-- ==== Sys2Proof/Word.lean ====
section
/-! DEFINITION. The word types of the machine (R4): instruction words of 32 bits, registers of 64 bits,
bytes, and 256-byte lines held as 2048 bits with byte `i` at bits `8i+7 .. 8i`. -/

namespace Sys2Proof

/-- A byte. -/
abbrev Byte := BitVec 8
/-- An instruction word (R58). -/
abbrev Word := BitVec 32
/-- A 64-bit register or memory word. -/
abbrev DWord := BitVec 64
/-- A 256-byte line, a vector register or a data-queue entry: byte `i` is bits `8i+7 .. 8i` (R4, R202). -/
abbrev Line := BitVec 2048
/-- A 32-byte instruction line: lane `k` is bits `32k+31 .. 32k` (R58). -/
abbrev ILine := BitVec 256

/-- Zero-extends or truncates to 64 bits. -/
abbrev dw {n : Nat} (x : BitVec n) : DWord := x.setWidth 64
/-- Sign-extends to 64 bits. -/
abbrev sx {n : Nat} (x : BitVec n) : DWord := x.signExtend 64

end Sys2Proof
end

