-- ==== Sys2Proof/Syntax.lean ====
section
/-! DEFINITION. The syntax: one constructor of `Instr` for every row of spec/opcode_table.json, the 201 encoded
instructions first and then the 121 steps of the device that have no encoding. Fields are raw encoded bits; an
encoded instruction's field `w` is its iteration qualifier IQ (R69). -/

namespace Sys2Proof

/-- The four instruction streams of a compute core (01 R8). A yardmaster runs stream C (R61). -/
inductive Stream where
  | c | a | k | d
  deriving DecidableEq, Repr

/-- The engines that hold a retired mask (R142). -/
inductive Engine where
  | a | k | d | shunter | codec
  deriving DecidableEq, Repr

/-- The reported states of ports and links (R399, R400). -/
inductive LinkState where
  | down | training | up | degraded | retraining | lost
  deriving DecidableEq, Repr

/-- The LTSSM states of a PCIe or CXL port that R399 maps onto the reported states. -/
inductive Ltssm where
  | detect | polling | configuration
  /-- L0 at the highest rate and width both ends allow. -/
  | l0Best
  /-- L0 below the highest rate or width. -/
  | l0Below
  | recovery
  /-- A surprise down or a DPC trigger. -/
  | surpriseDown
  deriving DecidableEq, Repr

/-- A PCIe root port 0-3 or a CXL port 0-7 (R399). -/
inductive PortId where
  | pcie (n : Nat)
  | cxl (n : Nat)
  deriving DecidableEq, Repr

/-- The operations of an application core's atomics (R314): those of the A extension of RISC-V, whose memory model RVWMO is. -/
inductive HartOp where
  | swap | add | xor | and | or | min | max | minu | maxu
  deriving DecidableEq, Repr

/-- The kinds of access an outside requester makes (R314, R315). -/
inductive AccessKind where
  | load | store
  /-- An application core's atomic (R314). -/
  | amo (op : HartOp)
  /-- An application core's LR and SC (R314). -/
  | loadReserved | storeConditional
  /-- An application core's FENCE (R314): reads and writes before it, reads and writes after it, and whether both of its sets hold
  i and o. -/
  | fence (pr pw sr sw io : Bool)
  deriving DecidableEq, Repr

/-- A memory access of an application-core hart or of a PCIe requester: `satp` names the translating root (ASID and
PPN of R375), `none` for an untranslated device physical access. `relaxed` is PCIe Relaxed Ordering (R315). -/
structure Access where
  kind : AccessKind
  requester : Nat
  satp : Option (BitVec 64)
  addr : BitVec 64
  size : Nat
  data : BitVec 2048
  relaxed : Bool
  /-- The `aq` and `rl` bits of an application core's LR, SC or atomic (R314). -/
  aq : Bool := false
  rl : Bool := false
  deriving DecidableEq, Repr

/-- Where a soft error strikes (R393): the line of an address of memory, a row of a slot of a core, or a 256-byte line of one of its
weight planes. -/
inductive Stored where
  | line (addr : Nat)
  | slotRow (core slot row : Nat)
  | planeLine (core plane line : Nat)
  deriving DecidableEq, Repr

/-- The operation of a transaction unit that a peer requests (R403). -/
inductive PeerOp where
  | read | write | reduce
  deriving DecidableEq, Repr

/-- A request of a peer device (R403, R407): data words are 64 bits wide, the first at the address. A reducing write
carries the major of its instruction (0x10-0x13), its source word and its sequence number. -/
structure PeerRequest where
  op : PeerOp
  tag : BitVec 14
  addr : BitVec 56
  words : List (BitVec 64)
  len : Nat
  major : BitVec 7
  source : BitVec 64
  seq : BitVec 32
  deriving DecidableEq, Repr

/-- The instruction set: the rows of the opcode table in its order. -/
inductive Instr where
  /-- NOP (R70): An all-zero instruction word does nothing in any stream. -/
  | nop
  /-- ADD (R111): s[d] receives A + B modulo 2^64. -/
  | add (w : BitVec 2) (d : BitVec 5) (a : BitVec 5) (b : BitVec 5)
  /-- SUB (R111): s[d] receives A − B modulo 2^64. -/
  | sub (w : BitVec 2) (d : BitVec 5) (a : BitVec 5) (b : BitVec 5)
  /-- MUL (R111): s[d] receives the low 64 bits of A × B. -/
  | mul (w : BitVec 2) (d : BitVec 5) (a : BitVec 5) (b : BitVec 5)
  /-- MULH (R111): s[d] receives the high 64 bits of the signed product. -/
  | mulh (w : BitVec 2) (d : BitVec 5) (a : BitVec 5) (b : BitVec 5)
  /-- MULHU (R111): s[d] receives the high 64 bits of the unsigned product. -/
  | mulhu (w : BitVec 2) (d : BitVec 5) (a : BitVec 5) (b : BitVec 5)
  /-- DIV (R112): s[d] receives the signed quotient toward zero, with fixed results for division by zero and overflow. -/
  | div (w : BitVec 2) (d : BitVec 5) (a : BitVec 5) (b : BitVec 5)
  /-- DIVU (R112): s[d] receives the unsigned quotient. -/
  | divu (w : BitVec 2) (d : BitVec 5) (a : BitVec 5) (b : BitVec 5)
  /-- REM (R112): s[d] receives the signed remainder with the sign of A. -/
  | rem (w : BitVec 2) (d : BitVec 5) (a : BitVec 5) (b : BitVec 5)
  /-- REMU (R112): s[d] receives the unsigned remainder. -/
  | remu (w : BitVec 2) (d : BitVec 5) (a : BitVec 5) (b : BitVec 5)
  /-- AND (R111): s[d] receives A and B. -/
  | and_ (w : BitVec 2) (d : BitVec 5) (a : BitVec 5) (b : BitVec 5)
  /-- OR (R111): s[d] receives A or B. -/
  | or_ (w : BitVec 2) (d : BitVec 5) (a : BitVec 5) (b : BitVec 5)
  /-- XOR (R111): s[d] receives A xor B. -/
  | xor_ (w : BitVec 2) (d : BitVec 5) (a : BitVec 5) (b : BitVec 5)
  /-- ANDN (R111): s[d] receives A and not B. -/
  | andn (w : BitVec 2) (d : BitVec 5) (a : BitVec 5) (b : BitVec 5)
  /-- SHL (R111): s[d] receives A shifted left by B[5:0]. -/
  | shl (w : BitVec 2) (d : BitVec 5) (a : BitVec 5) (b : BitVec 5)
  /-- SHR (R111): s[d] receives A shifted logically right by B[5:0]. -/
  | shr (w : BitVec 2) (d : BitVec 5) (a : BitVec 5) (b : BitVec 5)
  /-- SAR (R111): s[d] receives A shifted arithmetically right by B[5:0]. -/
  | sar (w : BitVec 2) (d : BitVec 5) (a : BitVec 5) (b : BitVec 5)
  /-- ROL (R111): s[d] receives A rotated left by B[5:0]. -/
  | rol (w : BitVec 2) (d : BitVec 5) (a : BitVec 5) (b : BitVec 5)
  /-- MIN (R111): s[d] receives the signed minimum. -/
  | min_ (w : BitVec 2) (d : BitVec 5) (a : BitVec 5) (b : BitVec 5)
  /-- MAX (R111): s[d] receives the signed maximum. -/
  | max_ (w : BitVec 2) (d : BitVec 5) (a : BitVec 5) (b : BitVec 5)
  /-- MINU (R111): s[d] receives the unsigned minimum. -/
  | minu (w : BitVec 2) (d : BitVec 5) (a : BitVec 5) (b : BitVec 5)
  /-- MAXU (R111): s[d] receives the unsigned maximum. -/
  | maxu (w : BitVec 2) (d : BitVec 5) (a : BitVec 5) (b : BitVec 5)
  /-- SLT (R111): s[d] receives 1 if A < B signed, else 0. -/
  | slt (w : BitVec 2) (d : BitVec 5) (a : BitVec 5) (b : BitVec 5)
  /-- SLTU (R111): s[d] receives 1 if A < B unsigned, else 0. -/
  | sltu (w : BitVec 2) (d : BitVec 5) (a : BitVec 5) (b : BitVec 5)
  /-- SEQ (R111): s[d] receives 1 if A = B, else 0. -/
  | seq (w : BitVec 2) (d : BitVec 5) (a : BitVec 5) (b : BitVec 5)
  /-- CLZ (R111): s[d] receives the leading zero count of A. -/
  | clz (w : BitVec 2) (d : BitVec 5) (a : BitVec 5)
  /-- CTZ (R111): s[d] receives the trailing zero count of A. -/
  | ctz (w : BitVec 2) (d : BitVec 5) (a : BitVec 5)
  /-- POPC (R111): s[d] receives the number of one bits in A. -/
  | popc (w : BitVec 2) (d : BitVec 5) (a : BitVec 5)
  /-- BEXT (R111): s[d] receives the bit field of A selected by B. -/
  | bext (w : BitVec 2) (d : BitVec 5) (a : BitVec 5) (b : BitVec 5)
  /-- ADDI (R113): s[d] receives s[a] plus the sign-extended immediate. -/
  | addi (w : BitVec 2) (d : BitVec 5) (a : BitVec 5) (imm : BitVec 13)
  /-- ANDI (R113): s[d] receives s[a] and the immediate. -/
  | andi (w : BitVec 2) (d : BitVec 5) (a : BitVec 5) (imm : BitVec 13)
  /-- ORI (R113): s[d] receives s[a] or the immediate. -/
  | ori (w : BitVec 2) (d : BitVec 5) (a : BitVec 5) (imm : BitVec 13)
  /-- XORI (R113): s[d] receives s[a] xor the immediate. -/
  | xori (w : BitVec 2) (d : BitVec 5) (a : BitVec 5) (imm : BitVec 13)
  /-- SHLI (R113): s[d] receives s[a] shifted left by imm13[5:0]. -/
  | shli (w : BitVec 2) (d : BitVec 5) (a : BitVec 5) (sh : BitVec 6)
  /-- SHRI (R113): s[d] receives s[a] shifted logically right by imm13[5:0]. -/
  | shri (w : BitVec 2) (d : BitVec 5) (a : BitVec 5) (sh : BitVec 6)
  /-- SARI (R113): s[d] receives s[a] shifted arithmetically right by imm13[5:0]. -/
  | sari (w : BitVec 2) (d : BitVec 5) (a : BitVec 5) (sh : BitVec 6)
  /-- SLTI (R113): s[d] receives 1 if s[a] is below the immediate, signed. -/
  | slti (w : BitVec 2) (d : BitVec 5) (a : BitVec 5) (imm : BitVec 13)
  /-- SLTIU (R113): s[d] receives 1 if s[a] is below the sign-extended immediate, unsigned. -/
  | sltiu (w : BitVec 2) (d : BitVec 5) (a : BitVec 5) (imm : BitVec 13)
  /-- LI (R114): s[d] receives an 18-bit signed immediate formed from a and imm13. -/
  | li (w : BitVec 2) (d : BitVec 5) (hi : BitVec 5) (imm : BitVec 13)
  /-- LI64 (R115): s[d] receives the 8-byte literal at IMM32 in the image's constant section. -/
  | li64 (w : BitVec 2) (d : BitVec 5) (imm : BitVec 32)
  /-- LD_B (R116): Loads a sign-extended byte from s[a] + imm13. -/
  | ldB (w : BitVec 2) (d : BitVec 5) (a : BitVec 5) (imm : BitVec 13)
  /-- LD_BU (R116): Loads a zero-extended byte. -/
  | ldBu (w : BitVec 2) (d : BitVec 5) (a : BitVec 5) (imm : BitVec 13)
  /-- LD_H (R116): Loads a sign-extended halfword. -/
  | ldH (w : BitVec 2) (d : BitVec 5) (a : BitVec 5) (imm : BitVec 13)
  /-- LD_HU (R116): Loads a zero-extended halfword. -/
  | ldHu (w : BitVec 2) (d : BitVec 5) (a : BitVec 5) (imm : BitVec 13)
  /-- LD_W (R116): Loads a sign-extended 32-bit word. -/
  | ldW (w : BitVec 2) (d : BitVec 5) (a : BitVec 5) (imm : BitVec 13)
  /-- LD_WU (R116): Loads a zero-extended 32-bit word. -/
  | ldWu (w : BitVec 2) (d : BitVec 5) (a : BitVec 5) (imm : BitVec 13)
  /-- LD_D (R116): Loads a 64-bit value. -/
  | ldD (w : BitVec 2) (d : BitVec 5) (a : BitVec 5) (imm : BitVec 13)
  /-- ST_B (R116): Stores s[d][7:0] at s[a] + imm13. -/
  | stB (w : BitVec 2) (d : BitVec 5) (a : BitVec 5) (imm : BitVec 13)
  /-- ST_H (R116): Stores s[d][15:0]. -/
  | stH (w : BitVec 2) (d : BitVec 5) (a : BitVec 5) (imm : BitVec 13)
  /-- ST_W (R116): Stores s[d][31:0]. -/
  | stW (w : BitVec 2) (d : BitVec 5) (a : BitVec 5) (imm : BitVec 13)
  /-- ST_D (R116): Stores s[d]. -/
  | stD (w : BitVec 2) (d : BitVec 5) (a : BitVec 5) (imm : BitVec 13)
  /-- AMO_ADD (R120): Atomically adds B to memory and returns the old value. -/
  | amoAdd (w : BitVec 2) (d : BitVec 5) (a : BitVec 5) (b : BitVec 5) (stm : BitVec 3) (scope : BitVec 2) (size : BitVec 2)
  /-- AMO_AND (R120): Atomic AND returning the old value. -/
  | amoAnd (w : BitVec 2) (d : BitVec 5) (a : BitVec 5) (b : BitVec 5) (stm : BitVec 3) (scope : BitVec 2) (size : BitVec 2)
  /-- AMO_OR (R120): Atomic OR returning the old value. -/
  | amoOr (w : BitVec 2) (d : BitVec 5) (a : BitVec 5) (b : BitVec 5) (stm : BitVec 3) (scope : BitVec 2) (size : BitVec 2)
  /-- AMO_XOR (R120): Atomic XOR returning the old value. -/
  | amoXor (w : BitVec 2) (d : BitVec 5) (a : BitVec 5) (b : BitVec 5) (stm : BitVec 3) (scope : BitVec 2) (size : BitVec 2)
  /-- AMO_MIN (R120): Atomic signed minimum returning the old value. -/
  | amoMin (w : BitVec 2) (d : BitVec 5) (a : BitVec 5) (b : BitVec 5) (stm : BitVec 3) (scope : BitVec 2) (size : BitVec 2)
  /-- AMO_MAX (R120): Atomic signed maximum returning the old value. -/
  | amoMax (w : BitVec 2) (d : BitVec 5) (a : BitVec 5) (b : BitVec 5) (stm : BitVec 3) (scope : BitVec 2) (size : BitVec 2)
  /-- AMO_SWP (R120): Atomic swap returning the old value. -/
  | amoSwp (w : BitVec 2) (d : BitVec 5) (a : BitVec 5) (b : BitVec 5) (stm : BitVec 3) (scope : BitVec 2) (size : BitVec 2)
  /-- AMO_CAS (R120): Atomic compare-and-swap against s[d], returning the old value. -/
  | amoCas (w : BitVec 2) (d : BitVec 5) (a : BitVec 5) (b : BitVec 5) (stm : BitVec 3) (scope : BitVec 2) (size : BitVec 2)
  /-- AMO_ADDD (R121): Sends a deterministic-round contribution to X and later receives its walk-order prefix. -/
  | amoAddd (w : BitVec 2) (d : BitVec 5) (a : BitVec 5) (b : BitVec 5) (stm : BitVec 3) (scope : BitVec 2) (size : BitVec 2)
  /-- AMO_NULL (R121): Joins a deterministic round with a zero contribution. -/
  | amoNull (w : BitVec 2) (d : BitVec 5) (a : BitVec 5) (stm : BitVec 3) (scope : BitVec 2) (size : BitVec 2)
  /-- FENCE (R124): Orders the stream's accesses by kind, scope and storage mask. -/
  | fence (w : BitVec 2) (kind : BitVec 2) (uo : BitVec 1) (mask : BitVec 3) (scope : BitVec 2)
  /-- FENCE_I (R125): Makes later line fetches of the core see stores visible to C. -/
  | fenceI (w : BitVec 2)
  /-- BEQ (R126): Branches at line end if s[a] = s[b]. -/
  | beq (w : BitVec 2) (a : BitVec 5) (b : BitVec 5) (off : BitVec 13)
  /-- BNE (R126): Branches if s[a] ≠ s[b]. -/
  | bne (w : BitVec 2) (a : BitVec 5) (b : BitVec 5) (off : BitVec 13)
  /-- BLT (R126): Branches if s[a] < s[b] signed. -/
  | blt (w : BitVec 2) (a : BitVec 5) (b : BitVec 5) (off : BitVec 13)
  /-- BGE (R126): Branches if s[a] ≥ s[b] signed. -/
  | bge (w : BitVec 2) (a : BitVec 5) (b : BitVec 5) (off : BitVec 13)
  /-- BLTU (R126): Branches if s[a] < s[b] unsigned. -/
  | bltu (w : BitVec 2) (a : BitVec 5) (b : BitVec 5) (off : BitVec 13)
  /-- BGEU (R126): Branches if s[a] ≥ s[b] unsigned. -/
  | bgeu (w : BitVec 2) (a : BitVec 5) (b : BitVec 5) (off : BitVec 13)
  /-- JMPR (R127): Jumps to the line at s[a]. -/
  | jmpr (w : BitVec 2) (a : BitVec 5)
  /-- FORK (R130): Forks the named streams to their target lines at line end. -/
  | fork (w : BitVec 2) (mask : BitVec 3) (offa : BitVec 16) (offk : BitVec 16) (offd : BitVec 16)
  /-- PUSHFMT (R144): Pushes IMM32 to fq unchecked. -/
  | pushfmt (w : BitVec 2) (imm : BitVec 32)
  /-- QPUSH (R145): Pushes s[n] to sq0, sq1 or sq2, waiting while full. -/
  | qpush (w : BitVec 2) (q : BitVec 4) (n : BitVec 5)
  /-- QPOP (R145): Pops oq0 or oq1 into s[n], waiting while empty. -/
  | qpop (w : BitVec 2) (q : BitVec 4) (n : BitVec 5)
  /-- QSTAT (R146): Reads a queue's occupancy and depth without waiting. -/
  | qstat (w : BitVec 2) (q : BitVec 4) (n : BitVec 5)
  /-- CONT (R147): Adds a continuation record to the task. -/
  | cont (w : BitVec 2) (a : BitVec 5) (b : BitVec 5)
  /-- LAUNCH (R148): Pushes a launch record to a launch queue and returns a status. -/
  | launch (w : BitVec 2) (d : BitVec 5) (a : BitVec 5) (b : BitVec 5)
  /-- CSRR (R152): Reads a CSR into s[d]. -/
  | csrr (w : BitVec 2) (d : BitVec 5) (csr : BitVec 12)
  /-- CSRW (R152): Writes a CSR and returns its old value. -/
  | csrw (w : BitVec 2) (d : BitVec 5) (a : BitVec 5) (csr : BitVec 12)
  /-- CSRS (R152): Sets CSR bits and returns the old value. -/
  | csrs (w : BitVec 2) (d : BitVec 5) (a : BitVec 5) (csr : BitVec 12)
  /-- CSRC (R152): Clears CSR bits and returns the old value. -/
  | csrc (w : BitVec 2) (d : BitVec 5) (a : BitVec 5) (csr : BitVec 12)
  /-- RTT (R154): Yardmaster returns from a trap to YTEPC and restores IE. -/
  | rtt (w : BitVec 2)
  /-- WFI (R154): Yardmaster waits until a YIP bit is set. -/
  | wfi (w : BitVec 2)
  /-- HALT (R154): Stops the yardmaster. -/
  | halt (w : BitVec 2)
  /-- FREEZE (R155): Stops a physical core through clock enable and waits until it has stopped. -/
  | freeze (w : BitVec 2) (d : BitVec 5) (a : BitVec 5)
  /-- THAW (R155): Removes the FREEZE cause and ends recorded trap stops of a core. -/
  | thaw (w : BitVec 2) (a : BitVec 5)
  /-- SNAPR (R156): Reads one snapshot word of a frozen core. -/
  | snapr (w : BitVec 2) (d : BitVec 5) (a : BitVec 5) (b : BitVec 5)
  /-- SNAPW (R156): Writes one snapshot word of a frozen core. -/
  | snapw (w : BitVec 2) (d : BitVec 5) (a : BitVec 5) (b : BitVec 5)
  /-- LOOP (R133): Activates a loop level with a count and end line. -/
  | loop (w : BitVec 2) (level : BitVec 3) (cr : BitVec 1) (creg : BitVec 5) (count : BitVec 16) (endl : BitVec 16)
  /-- LSTR (R135): Attaches a stride to a loop level. -/
  | lstr (w : BitVec 2) (d : BitVec 5) (slot : BitVec 2) (level : BitVec 3) (pair : BitVec 1) (imm : BitVec 32)
  /-- JMP (R128): Jumps to the holding line plus imm23 lines. -/
  | jmp (w : BitVec 2) (off : BitVec 23)
  /-- BQZ (R129): Branches if the named queue is empty as the stream sees it. -/
  | bqz (w : BitVec 2) (q : BitVec 5) (off : BitVec 13)
  /-- BQNZ (R129): Branches if the named queue is not empty. -/
  | bqnz (w : BitVec 2) (q : BitVec 5) (off : BitVec 13)
  /-- JOIN (R131): Records the stream's arrival on a flag and stops it issuing. -/
  | join (w : BitVec 2) (f : BitVec 3)
  /-- TKSIG (R138): Gives one token to a token queue, releasing earlier accesses. -/
  | tksig (w : BitVec 2) (t : BitVec 3)
  /-- TKWAIT (R138): Waits for a countable token and takes it, acquiring. -/
  | tkwait (w : BitVec 2) (t : BitVec 3)
  /-- MARK (R142): Places a marker behind the stream's engine commands. -/
  | mark (w : BitVec 2) (m : BitVec 5)
  /-- FSET (R137): Sets a sync flag, releasing at core scope. -/
  | fset (w : BitVec 2) (f : BitVec 3)
  /-- FCLR (R137): Clears a sync flag, releasing at core scope. -/
  | fclr (w : BitVec 2) (f : BitVec 3)
  /-- FWAIT (R137): Waits until a flag is set or clear, acquiring. -/
  | fwait (w : BitVec 2) (c : BitVec 1) (f : BitVec 3)
  /-- CNTSET (R139): Sets a completion counter's COUNT and ERR to 0. -/
  | cntset (w : BitVec 2) (n : BitVec 4)
  /-- CNTWAIT (R139): Waits until a counter reaches a threshold, acquiring. -/
  | cntwait (w : BitVec 2) (n : BitVec 4) (t : BitVec 16)
  /-- BAR_INIT (R140): Sets a stage barrier's count and phase and clears arrivals. -/
  | barInit (w : BitVec 2) (n : BitVec 4) (cnt : BitVec 6) (ph : BitVec 1)
  /-- BAR_ARV (R140): Adds one arrival to a stage barrier, flipping its phase at the count. -/
  | barArv (w : BitVec 2) (n : BitVec 4)
  /-- BAR_WAIT (R140): Waits until a stage barrier's phase differs from PH. -/
  | barWait (w : BitVec 2) (n : BitVec 4) (ph : BitVec 1)
  /-- BAR_ARV_GROUP (R141): Sends an atomic arrival to a group barrier word in yard memory. -/
  | barArvGroup (w : BitVec 2) (a : BitVec 5)
  /-- BAR_WAIT_GROUP (R141): Polls a group barrier word until its phase differs from PH. -/
  | barWaitGroup (w : BitVec 2) (a : BitVec 5) (ph : BitVec 1)
  /-- RDVSET (R143): Arms a rendezvous register on a marker and engine mask. -/
  | rdvset (w : BitVec 2) (z : BitVec 3) (eng : BitVec 5) (m : BitVec 5)
  /-- RDVWAIT (R143): Waits while a rendezvous register is armed and disarms it on fire. -/
  | rdvwait (w : BitVec 2) (z : BitVec 3)
  /-- TEND (R149): Ends the task, which then waits for commit. -/
  | tend (w : BitVec 2)
  /-- HINT (R150): Gives a translation or instruction-cache prefetch hint. -/
  | hint (w : BitVec 2) (a : BitVec 5) (k : BitVec 4)
  /-- MHINT (R197): Sets the matrix array's hint target, ramping it up ahead of use. -/
  | mhint (w : BitVec 2) (n : BitVec 12)
  /-- TRAP (R151): Raises SOFTWARE with a code. -/
  | trap (w : BitVec 2) (code : BitVec 8)
  /-- AADD (R161): Adds coordinate elements selected by EM. -/
  | aadd (w : BitVec 2) (d : BitVec 5) (a : BitVec 5) (b : BitVec 5) (em : BitVec 4)
  /-- AADDI (R161): Adds an immediate to one coordinate element. -/
  | aaddi (w : BitVec 2) (d : BitVec 5) (a : BitVec 5) (e : BitVec 2) (imm : BitVec 11)
  /-- AMOV (R161): Permutes coordinate elements from a register or a popped sq0 entry. -/
  | amov (w : BitVec 2) (d : BitVec 5) (a : BitVec 5) (q : BitVec 1) (sel : BitVec 8)
  /-- ASET (R161): Sets one coordinate element from a shifted source value. -/
  | aset (w : BitVec 2) (d : BitVec 5) (a : BitVec 5) (e : BitVec 2) (rsh : BitVec 6) (q : BitVec 1) (lsh : BitVec 4)
  /-- ALI (R161): Loads two coordinate elements from a second word. -/
  | ali (w : BitVec 2) (d : BitVec 5) (pair : BitVec 1) (lo : BitVec 16) (hi : BitVec 16)
  /-- TLD (R162): Reserves queue entries and loads one or two tensor lines into them. -/
  | tld (w : BitVec 2) (q : BitVec 4) (t : BitVec 6) (c : BitVec 4) (n : BitVec 1)
  /-- TLD_T (R163): Loads a column segment of a tensor into one queue entry. -/
  | tldT (w : BitVec 2) (q : BitVec 4) (t : BitVec 6) (c : BitVec 4)
  /-- TLDB (R165): Loads packed source bytes and extracts elements by a bit-field pattern. -/
  | tldb (w : BitVec 2) (q : BitVec 4) (t : BitVec 6) (c : BitVec 4) (x : BitVec 2)
  /-- ILD (R166): Appends n index words to iq. -/
  | ild (w : BitVec 2) (t : BitVec 6) (c : BitVec 4) (n : BitVec 6)
  /-- BFXCFG (R164): Reads a pattern record into a bit-field pattern register. -/
  | bfxcfg (w : BitVec 2) (x : BitVec 2) (a : BitVec 5) (imm : BitVec 13)
  /-- MLDW (R167): Loads one line into the shadow weight plane. -/
  | mldw (w : BitVec 2) (t : BitVec 6) (c : BitVec 4) (spa : BitVec 1) (m : BitVec 7)
  /-- MLDW_T (R167): Loads a tensor column into a shadow plane row. -/
  | mldwT (w : BitVec 2) (t : BitVec 6) (c : BitVec 4) (k : BitVec 7)
  /-- MLDS (R167): Loads a line into a side area of the shadow plane. -/
  | mlds (w : BitVec 2) (t : BitVec 6) (c : BitVec 4) (kind : BitVec 2) (m : BitVec 7)
  /-- GATHER (R172): Queues an engine command that copies indexed rows. -/
  | gather (w : BitVec 2) (n : BitVec 6) (rb : BitVec 3) (t : BitVec 6) (c : BitVec 4) (t2 : BitVec 6) (c2 : BitVec 4) (waitt : BitVec 3) (sigt : BitVec 3) (cnt : BitVec 4) (inc : BitVec 8)
  /-- XCHG_P (R173): Queues an exchange that swaps two blocks' frames. -/
  | xchgP (w : BitVec 2) (t : BitVec 6) (c : BitVec 4) (t2 : BitVec 6) (c2 : BitVec 4) (waitt : BitVec 3) (sigt : BitVec 3) (cnt : BitVec 4) (inc : BitVec 8)
  /-- XCHG_D (R173): Queues an exchange that swaps two blocks' contents. -/
  | xchgD (w : BitVec 2) (t : BitVec 6) (c : BitVec 4) (t2 : BitVec 6) (c2 : BitVec 4) (waitt : BitVec 3) (sigt : BitVec 3) (cnt : BitVec 4) (inc : BitVec 8)
  /-- XFER (R174): Queues a copy of lines between blocks of one level. -/
  | xfer (w : BitVec 2) (n : BitVec 7) (t : BitVec 6) (c : BitVec 4) (t2 : BitVec 6) (c2 : BitVec 4) (waitt : BitVec 3) (sigt : BitVec 3) (cnt : BitVec 4) (inc : BitVec 8)
  /-- STASH (R175): Queues a Dazia encoding of a block into a region slot. -/
  | stash (w : BitVec 2) (mode : BitVec 2) (t : BitVec 6) (c : BitVec 4) (t2 : BitVec 6) (c2 : BitVec 4) (waitt : BitVec 3) (sigt : BitVec 3) (cnt : BitVec 4) (inc : BitVec 8)
  /-- RESTORE (R175): Queues a Dazia decoding of a region slot into a block. -/
  | restore (w : BitVec 2) (mode : BitVec 2) (t : BitVec 6) (c : BitVec 4) (t2 : BitVec 6) (c2 : BitVec 4) (waitt : BitVec 3) (sigt : BitVec 3) (cnt : BitVec 4) (inc : BitVec 8)
  /-- MFLIP (R188): Queues an exchange of the active and shadow planes. -/
  | mflip (w : BitVec 2)
  /-- MSTREAM (R189): Pops a format word, resolves its label and streams rows into the slot. -/
  | mstream (w : BitVec 2) (q : BitVec 4) (row0 : BitVec 6) (sq : BitVec 4) (nr : BitVec 6)
  /-- MSTREAM_IDX (R190): Streams rows into slot rows listed by an index entry. -/
  | mstreamIdx (w : BitVec 2) (q : BitVec 4) (sq : BitVec 4) (iq : BitVec 2) (nr : BitVec 6)
  /-- MZERO (R191): Queues the zeroing of a label's slot and release of its images. -/
  | mzero (w : BitVec 2) (l : BitVec 6)
  /-- BIND (R198): Resolves a destination label and queues a combination of masked labels with coefficients. -/
  | bind (w : BitVec 2) (q : BitVec 4) (l : BitVec 6)
  /-- SLOTCFG (R195): Configures a spill area of near frames and the spill policy. -/
  | slotcfg (w : BitVec 2) (nim : BitVec 6) (first : BitVec 7)
  /-- SLOTCFG_FAULT (R195): Sets the fault policy with no spill area. -/
  | slotcfgFault (w : BitVec 2)
  /-- SLOTFREE (R195): Unmaps a label and releases its images. -/
  | slotfree (w : BitVec 2) (l : BitVec 6)
  /-- SLOTFREE_ALL (R195): Unmaps every label and releases every image. -/
  | slotfreeAll (w : BitVec 2)
  /-- SLOTMAP_READ (R195): Writes a label's slot status word to k[d]. -/
  | slotmapRead (w : BitVec 2) (d : BitVec 5) (l : BitVec 6)
  /-- SLOTMAP_MAP (R195): Maps a label to a named slot with a queued zeroing. -/
  | slotmapMap (w : BitVec 2) (slot : BitVec 5) (l : BitVec 6)
  /-- MSPILL (R192): Spills a label's resident slot to a free image. -/
  | mspill (w : BitVec 2) (l : BitVec 6)
  /-- VPOP (R209): Pops a data-queue entry into a vector register. -/
  | vpop (w : BitVec 2) (d : BitVec 5) (q : BitVec 5)
  /-- VPOP_K (R209): Pops an sq1 entry into a K scalar. -/
  | vpopK (w : BitVec 2) (d : BitVec 5) (q : BitVec 5)
  /-- VPUSH (R210): Pushes a vector register to dq4 or dq5. -/
  | vpush (w : BitVec 2) (q : BitVec 5) (a : BitVec 5)
  /-- VPUSH_OQ0 (R210): Pushes a K scalar to oq0. -/
  | vpushOq0 (w : BitVec 2) (q : BitVec 5) (a : BitVec 5)
  /-- VMOV (R211): Copies active lanes of a vector register. -/
  | vmov (w : BitVec 2) (d : BitVec 5) (a : BitVec 5) (z : BitVec 1) (p : BitVec 3) (ty : BitVec 3)
  /-- VMOV_K (R211): Copies one vector lane to a K scalar. -/
  | vmovK (w : BitVec 2) (d : BitVec 5) (a : BitVec 5) (b : BitVec 5) (ty : BitVec 3)
  /-- VBCAST (R211): Broadcasts a K scalar to active lanes. -/
  | vbcast (w : BitVec 2) (d : BitVec 5) (a : BitVec 5) (z : BitVec 1) (p : BitVec 3) (ty : BitVec 3)
  /-- VBCAST_LANE (R211): Broadcasts one vector lane to active lanes. -/
  | vbcastLane (w : BitVec 2) (d : BitVec 5) (a : BitVec 5) (b : BitVec 5) (z : BitVec 1) (p : BitVec 3) (ty : BitVec 3)
  /-- VLI (R211): Loads an immediate into every active lane. -/
  | vli (w : BitVec 2) (d : BitVec 5) (z : BitVec 1) (p : BitVec 3) (ty : BitVec 3) (imm : BitVec 32)
  /-- VLI_K (R211): Loads an immediate into a K scalar. -/
  | vliK (w : BitVec 2) (d : BitVec 5) (imm : BitVec 32)
  /-- VADD (R212): Lane-wise float addition rounded once. -/
  | vadd (w : BitVec 2) (d : BitVec 5) (a : BitVec 5) (b : BitVec 5) (z : BitVec 1) (p : BitVec 3) (ty : BitVec 3)
  /-- VSUB (R212): Lane-wise float subtraction. -/
  | vsub (w : BitVec 2) (d : BitVec 5) (a : BitVec 5) (b : BitVec 5) (z : BitVec 1) (p : BitVec 3) (ty : BitVec 3)
  /-- VMUL (R212): Lane-wise float multiplication. -/
  | vmul (w : BitVec 2) (d : BitVec 5) (a : BitVec 5) (b : BitVec 5) (z : BitVec 1) (p : BitVec 3) (ty : BitVec 3)
  /-- VFMA (R212): Lane-wise fused a × b + d. -/
  | vfma (w : BitVec 2) (d : BitVec 5) (a : BitVec 5) (b : BitVec 5) (z : BitVec 1) (p : BitVec 3) (ty : BitVec 3)
  /-- VFMS (R212): Lane-wise fused a × b − d. -/
  | vfms (w : BitVec 2) (d : BitVec 5) (a : BitVec 5) (b : BitVec 5) (z : BitVec 1) (p : BitVec 3) (ty : BitVec 3)
  /-- VNFMA (R212): Lane-wise fused −(a × b) + d. -/
  | vnfma (w : BitVec 2) (d : BitVec 5) (a : BitVec 5) (b : BitVec 5) (z : BitVec 1) (p : BitVec 3) (ty : BitVec 3)
  /-- VMIN (R212): Lane-wise float minimum. -/
  | vmin (w : BitVec 2) (d : BitVec 5) (a : BitVec 5) (b : BitVec 5) (z : BitVec 1) (p : BitVec 3) (ty : BitVec 3)
  /-- VMAX (R212): Lane-wise float maximum. -/
  | vmax (w : BitVec 2) (d : BitVec 5) (a : BitVec 5) (b : BitVec 5) (z : BitVec 1) (p : BitVec 3) (ty : BitVec 3)
  /-- VABS (R212): Lane-wise float absolute value. -/
  | vabs (w : BitVec 2) (d : BitVec 5) (a : BitVec 5) (z : BitVec 1) (p : BitVec 3) (ty : BitVec 3)
  /-- VNEG (R212): Lane-wise float negation. -/
  | vneg (w : BitVec 2) (d : BitVec 5) (a : BitVec 5) (z : BitVec 1) (p : BitVec 3) (ty : BitVec 3)
  /-- VRCP (R213): Lane-wise correctly rounded reciprocal. -/
  | vrcp (w : BitVec 2) (d : BitVec 5) (a : BitVec 5) (z : BitVec 1) (p : BitVec 3) (ty : BitVec 3)
  /-- VRSQ (R213): Lane-wise correctly rounded reciprocal square root. -/
  | vrsq (w : BitVec 2) (d : BitVec 5) (a : BitVec 5) (z : BitVec 1) (p : BitVec 3) (ty : BitVec 3)
  /-- VEXP2 (R213): Lane-wise correctly rounded 2^a. -/
  | vexp2 (w : BitVec 2) (d : BitVec 5) (a : BitVec 5) (z : BitVec 1) (p : BitVec 3) (ty : BitVec 3)
  /-- VLOG2 (R213): Lane-wise correctly rounded log2 a. -/
  | vlog2 (w : BitVec 2) (d : BitVec 5) (a : BitVec 5) (z : BitVec 1) (p : BitVec 3) (ty : BitVec 3)
  /-- VCVT (R214): Converts lanes between types with segment selection. -/
  | vcvt (w : BitVec 2) (d : BitVec 5) (a : BitVec 5) (dty : BitVec 3) (rnd : BitVec 2) (seg : BitVec 2) (ov : BitVec 1) (sty : BitVec 3)
  /-- VQ (R215): Quantises 64 FP32 lanes into a packed narrow format, optionally with MX scales. -/
  | vq (w : BitVec 2) (d : BitVec 5) (a : BitVec 5) (b : BitVec 5) (rnd : BitVec 2) (ov : BitVec 1) (mx : BitVec 1) (fmt : BitVec 4)
  /-- VCMP (R216): Compares lanes into a predicate. -/
  | vcmp (w : BitVec 2) (d : BitVec 5) (a : BitVec 5) (b : BitVec 5) (cond : BitVec 3) (ty : BitVec 3)
  /-- VSEL (R217): Selects lanes from two registers by predicate. -/
  | vsel (w : BitVec 2) (d : BitVec 5) (a : BitVec 5) (b : BitVec 5) (p : BitVec 3) (ty : BitVec 3)
  /-- VAND (R218): Lane-wise bitwise AND. -/
  | vand (w : BitVec 2) (d : BitVec 5) (a : BitVec 5) (b : BitVec 5) (z : BitVec 1) (p : BitVec 3) (ty : BitVec 3)
  /-- VOR (R218): Lane-wise bitwise OR. -/
  | vor (w : BitVec 2) (d : BitVec 5) (a : BitVec 5) (b : BitVec 5) (z : BitVec 1) (p : BitVec 3) (ty : BitVec 3)
  /-- VXOR (R218): Lane-wise bitwise XOR. -/
  | vxor (w : BitVec 2) (d : BitVec 5) (a : BitVec 5) (b : BitVec 5) (z : BitVec 1) (p : BitVec 3) (ty : BitVec 3)
  /-- VSHL (R218): Lane-wise left shift. -/
  | vshl (w : BitVec 2) (d : BitVec 5) (a : BitVec 5) (b : BitVec 5) (z : BitVec 1) (p : BitVec 3) (ty : BitVec 3)
  /-- VSHR (R218): Lane-wise logical right shift. -/
  | vshr (w : BitVec 2) (d : BitVec 5) (a : BitVec 5) (b : BitVec 5) (z : BitVec 1) (p : BitVec 3) (ty : BitVec 3)
  /-- VSAR (R218): Lane-wise arithmetic right shift. -/
  | vsar (w : BitVec 2) (d : BitVec 5) (a : BitVec 5) (b : BitVec 5) (z : BitVec 1) (p : BitVec 3) (ty : BitVec 3)
  /-- VIADD (R218): Lane-wise integer add, wrapping or saturating. -/
  | viadd (w : BitVec 2) (d : BitVec 5) (a : BitVec 5) (b : BitVec 5) (z : BitVec 1) (p : BitVec 3) (x : BitVec 1) (ty : BitVec 3)
  /-- VISUB (R218): Lane-wise integer subtract, wrapping or saturating. -/
  | visub (w : BitVec 2) (d : BitVec 5) (a : BitVec 5) (b : BitVec 5) (z : BitVec 1) (p : BitVec 3) (x : BitVec 1) (ty : BitVec 3)
  /-- VIMUL (R218): Lane-wise integer multiply, low bits or saturating. -/
  | vimul (w : BitVec 2) (d : BitVec 5) (a : BitVec 5) (b : BitVec 5) (z : BitVec 1) (p : BitVec 3) (x : BitVec 1) (ty : BitVec 3)
  /-- VIMIN (R218): Lane-wise signed or unsigned integer minimum. -/
  | vimin (w : BitVec 2) (d : BitVec 5) (a : BitVec 5) (b : BitVec 5) (z : BitVec 1) (p : BitVec 3) (x : BitVec 1) (ty : BitVec 3)
  /-- VIMAX (R218): Lane-wise signed or unsigned integer maximum. -/
  | vimax (w : BitVec 2) (d : BitVec 5) (a : BitVec 5) (b : BitVec 5) (z : BitVec 1) (p : BitVec 3) (x : BitVec 1) (ty : BitVec 3)
  /-- VRED (R219): Reduces active lanes by add, max or min into a K scalar. -/
  | vred (w : BitVec 2) (d : BitVec 5) (a : BitVec 5) (op : BitVec 2) (p : BitVec 3) (ty : BitVec 3)
  /-- VSCAN (R220): Computes an inclusive scan over active lanes. -/
  | vscan (w : BitVec 2) (d : BitVec 5) (a : BitVec 5) (op : BitVec 2) (p : BitVec 3) (ty : BitVec 3)
  /-- VPERM (R221): Permutes lanes by an index register. -/
  | vperm (w : BitVec 2) (d : BitVec 5) (a : BitVec 5) (b : BitVec 5) (z : BitVec 1) (p : BitVec 3) (ty : BitVec 3)
  /-- VTHR (R222): Counts lanes per segment at or above a threshold. -/
  | vthr (w : BitVec 2) (d : BitVec 5) (a : BitVec 5) (b : BitVec 5) (op : BitVec 2) (p : BitVec 3) (ty : BitVec 3)
  /-- VTOPK (R223): Ranks lanes per segment with deterministic ties. -/
  | vtopk (w : BitVec 2) (d : BitVec 5) (a : BitVec 5) (b : BitVec 5) (op : BitVec 2) (p : BitVec 3) (ty : BitVec 3)
  /-- PAND (R224): ANDs two predicates. -/
  | pand (w : BitVec 2) (d : BitVec 5) (a : BitVec 5) (b : BitVec 5)
  /-- POR (R224): ORs two predicates. -/
  | por (w : BitVec 2) (d : BitVec 5) (a : BitVec 5) (b : BitVec 5)
  /-- PXOR (R224): XORs two predicates. -/
  | pxor (w : BitVec 2) (d : BitVec 5) (a : BitVec 5) (b : BitVec 5)
  /-- PNOT (R224): Inverts a predicate. -/
  | pnot (w : BitVec 2) (d : BitVec 5) (a : BitVec 5)
  /-- PSET (R225): Sets a predicate to clear, all or the first n bits. -/
  | pset (w : BitVec 2) (d : BitVec 5) (a : BitVec 5) (kind : BitVec 2)
  /-- DRAIN (R235): Queues a conversion of slot rows into a tensor. -/
  | drain (w : BitVec 2) (t : BitVec 6) (c : BitVec 4) (dt : BitVec 5) (sk : BitVec 1) (qc : BitVec 1) (lbl : BitVec 6) (row0 : BitVec 6) (nrow : BitVec 6) (rnd : BitVec 2) (ovf : BitVec 1) (wrap : BitVec 1)
  /-- DRAIN_Q (R237): Queues a quantising drain with computed MX or asymmetric scales. -/
  | drainQ (w : BitVec 2) (t : BitVec 6) (c : BitVec 4) (qf : BitVec 4) (kind : BitVec 1) (gs : BitVec 1) (qc : BitVec 1) (lbl : BitVec 6) (row0 : BitVec 6) (nrow : BitVec 6) (rnd : BitVec 2) (ovf : BitVec 1) (st : BitVec 6) (sc : BitVec 4)
  /-- TST (R240): Pops a queue line and queues its store to a tensor line. -/
  | tst (w : BitVec 2) (q : BitVec 4) (t : BitVec 6) (c : BitVec 4) (qc : BitVec 1)
  /-- SCATTER (R241): Queues an engine command that copies rows to indexed places. -/
  | scatter (w : BitVec 2) (q : BitVec 4) (n : BitVec 6) (rb : BitVec 3) (t : BitVec 6) (c : BitVec 4) (t2 : BitVec 6) (c2 : BitVec 4) (waitt : BitVec 3) (sigt : BitVec 3) (cnt : BitVec 4) (inc : BitVec 8) (qc : BitVec 1) (qc2 : BitVec 1)
  /-- RWR_ADD_F32 (R242): Queues an FP32 reducing add to destination elements. -/
  | rwrAddF32 (w : BitVec 2) (q : BitVec 4) (m : BitVec 7) (t : BitVec 6) (c : BitVec 4) (waitt : BitVec 3) (sigt : BitVec 3) (cnt : BitVec 4) (inc : BitVec 8) (qc : BitVec 1)
  /-- RWR_ADD_BF16 (R242): Queues a BF16 reducing add. -/
  | rwrAddBf16 (w : BitVec 2) (q : BitVec 4) (m : BitVec 7) (t : BitVec 6) (c : BitVec 4) (waitt : BitVec 3) (sigt : BitVec 3) (cnt : BitVec 4) (inc : BitVec 8) (qc : BitVec 1)
  /-- RWR_MAX_F32 (R242): Queues an FP32 reducing maximum. -/
  | rwrMaxF32 (w : BitVec 2) (q : BitVec 4) (m : BitVec 7) (t : BitVec 6) (c : BitVec 4) (waitt : BitVec 3) (sigt : BitVec 3) (cnt : BitVec 4) (inc : BitVec 8) (qc : BitVec 1)
  /-- RWR_ADD_I32 (R242): Queues an INT32 reducing add. -/
  | rwrAddI32 (w : BitVec 2) (q : BitVec 4) (m : BitVec 7) (t : BitVec 6) (c : BitVec 4) (waitt : BitVec 3) (sigt : BitVec 3) (cnt : BitVec 4) (inc : BitVec 8) (qc : BitVec 1)
  /-- INSTRUCTION_LINE_FETCH (R60): A sequencer fetches a line and checks it for legality. -/
  | instructionLineFetch (p : Nat) (st : Stream)
  /-- LINE_PASS_OVER (R63): A forked stream spends one cycle passing a line with none of its lanes. -/
  | linePassOver (p : Nat) (st : Stream)
  /-- HELD_LANE_RESUME (R62): A joined line held on an unready operand takes effect from the held lane once it is ready. -/
  | heldLaneResume (p : Nat)
  /-- LOOP_LINE_END (R133): At an end line the loop unit applies strides and advances or deactivates the level. -/
  | loopLineEnd (p : Nat) (st : Stream)
  /-- JOIN_COMPLETE (R131): When all forked streams and C have arrived, the flag is set and the core rejoins. -/
  | joinComplete (p : Nat)
  /-- SCALAR_RESULT_READY (R108): A pending C result with nonzero ready time lands in its register. -/
  | scalarResultReady (p : Nat)
  /-- VECTOR_RESULT_READY (R207): A pending vector or K result lands after its ready time. -/
  | vectorResultReady (p : Nat)
  /-- LOAD_REPLY (R108): A linear load's value returns to its destination register, or its UNCORRECTABLE is taken. -/
  | loadReply (p : Nat)
  /-- AMO_RESULT_RETURN (R120): An atomic's old value returns to s[d]. -/
  | amoResultReturn (p : Nat)
  /-- ROUND_CLOSE (R121): A memory-side unit closes a deterministic round, updates memory and returns prefixes. -/
  | roundClose (i : Nat)
  /-- TLD_LINE_ARRIVAL (R329): A load's line arrives and its reserved queue entry becomes READY. -/
  | tldLineArrival (p : Nat) (q : Nat)
  /-- PLANE_LINE_ARRIVAL (R168): A plane-load line lands in the current shadow plane and sets its recorded format. -/
  | planeLineArrival (p : Nat)
  /-- BFXCFG_RECORD_LOADED (R164): The pattern record's last line returns and the record is checked and loaded. -/
  | bfxcfgRecordLoaded (p : Nat)
  /-- TILE_LOOKUP_COMPLETE (R256): A tile-table lookup returns, filling the tile cache and setting the sharer bit. -/
  | tileLookupComplete (p : Nat) (port : Nat)
  /-- PAGE_WALK_COMPLETE (R379): A shed-TLB miss walk returns a translation or a fault. -/
  | pageWalkComplete (p : Nat)
  /-- DEFERRED_RELEASE_EFFECT (R136): A release-bearing effect takes place once the accesses it releases are visible. -/
  | deferredReleaseEffect (p : Nat) (st : Stream)
  /-- GROUP_BARRIER_UPDATE (R339): The yard controller applies an arrival to a group barrier word. -/
  | groupBarrierUpdate (p : Nat)
  /-- GROUP_BARRIER_POLL_REPLY (R141): A group-barrier wait read returns and is tested against PH. -/
  | groupBarrierPollReply (p : Nat)
  /-- MARKER_RETIRE (R142): An engine sets a marker bit again when every command ahead of it has completed. -/
  | markerRetire (p : Nat) (e : Engine)
  /-- RENDEZVOUS_FIRE (R342): An armed rendezvous register fires when its marker is retired in every named engine. -/
  | rendezvousFire (p : Nat) (z : Nat)
  /-- ENGINE_COMMAND_DISPATCH (R170): The head engine command takes its wait token and passes to its engine. -/
  | engineCommandDispatch (p : Nat) (st : Stream)
  /-- ENGINE_COMMAND_COMPLETION (R170): An engine command completes, giving its token, adding INC and committing an exchange. -/
  | engineCommandCompletion (id : Nat)
  /-- GATHER_EXECUTE (R172): The gather engine or yard controller copies a gather's rows in order. -/
  | gatherExecute (id : Nat)
  /-- SCATTER_EXECUTE (R241): The engine copies a scatter's rows to their indexed destinations. -/
  | scatterExecute (id : Nat)
  /-- XFER_EXECUTE (R174): The engine copies an XFER's lines in ascending order. -/
  | xferExecute (id : Nat)
  /-- STASH_ENCODE (R289): A Dazia codec starts a STASH, encoding the block's groups into the slot. -/
  | stashEncode (id : Nat)
  /-- RESTORE_DECODE (R290): A Dazia codec starts a RESTORE, decoding the slot into the block. -/
  | restoreDecode (id : Nat)
  /-- REDUCE_REQUEST_APPLY (R243): A reduce unit applies or discards a reducing-write request by its sequence window and acknowledges it. -/
  | reduceRequestApply (id : Nat)
  /-- XCHG_P_START (R258): A shunter reserves two RESIDENT blocks, invalidates sharers and marks them MOVING. -/
  | xchgPStart (n : Nat)
  /-- XCHG_D_START (R260): A shunter marks two blocks SWAPPING and waits for in-flight accesses to drain. -/
  | xchgDStart (n : Nat)
  /-- EXCHANGE_LINE_SWAP (R258): The shunter locks, crosses and unlocks one line pair and advances the cursor. -/
  | exchangeLineSwap (n : Nat)
  /-- EXCHANGE_COMMIT (R258): The exchange commits, both entries returning to RESIDENT. -/
  | exchangeCommit (n : Nat)
  /-- EXCHANGE_ROLLBACK_START (R261): A poisoned line or lost link starts an exchange roll-back. -/
  | exchangeRollbackStart (n : Nat)
  /-- ROLLBACK_LINE_SWAP (R261): One line is swapped back and the cursor decreases. -/
  | rollbackLineSwap (n : Nat)
  /-- ROLLBACK_COMPLETE (R261): Both entries return to their old frames and EXCHANGE_ABORTED is reported. -/
  | rollbackComplete (n : Nat)
  /-- ROLLBACK_LINK_LOST (R262): A link reaching LOST during roll-back poisons the lines that cannot be swapped back. -/
  | rollbackLinkLost (n : Nat)
  /-- IDLE_SCRUB_WRITE (R257): A controller zeroes a scrub-pending line in an idle cycle. -/
  | idleScrubWrite (frame : Nat) (line : Nat)
  /-- MATRIX_ROW_ENTRY (R185): A streamed row enters the array once its data, scales and ramp-up are ready. -/
  | matrixRowEntry (p : Nat)
  /-- RAMP_UP_END (R197): A ramp-up completes and the array is warm. -/
  | rampUpEnd (p : Nat)
  /-- SLOT_ROW_ADD (R185): A row's group sums are added to its slot row 20 cycles after entry. -/
  | slotRowAdd (p : Nat)
  /-- MFLIP_EFFECT (R188): The planes swap roles once earlier stream commands have their rows entered. -/
  | mflipEffect (p : Nat)
  /-- MZERO_EFFECT (R191): A label's slot becomes zero bits and its images are discarded. -/
  | mzeroEffect (p : Nat)
  /-- SLOT_SPILL (R194): A victim slot is written to its spill image through port 3. -/
  | slotSpill (p : Nat)
  /-- BIND_START (R198): BIND starts, popping one coefficient entry per masked label. -/
  | bindStart (p : Nat)
  /-- BIND_ROW_WRITE (R199): BIND writes one destination row. -/
  | bindRowWrite (p : Nat)
  /-- ARRAY_COLD (R196): The idle count reaches 64 with no hint target ahead and the array becomes cold. -/
  | arrayCold (p : Nat)
  /-- HINT_TARGET_REACHED (R197): The hint target cycle arrives and the idle count restarts. -/
  | hintTargetReached (p : Nat)
  /-- CLAIM_COMPLETE (R280): A claim's save and restore lines are done and the waiting use proceeds. -/
  | claimComplete (p : Nat)
  /-- DRAIN_ROW_READ (R229): The drain unit reads one slot row or a TST's held entry. -/
  | drainRowRead (p : Nat)
  /-- DRAIN_DELIVERY (R229): Converted data is delivered four cycles after its read, completing lines. -/
  | drainDelivery (p : Nat)
  /-- WRITE_BUFFER_LINE_WRITE (R229): Port 2 writes the write buffer's oldest line. -/
  | writeBufferLineWrite (p : Nat)
  /-- REMOTE_LINE_WRITE (R230): A buffered line for another destination is written there after a variable delay. -/
  | remoteLineWrite (p : Nat)
  /-- FREEZE_WATCHDOG_EXPIRY (R32): A joined freeze reaches its limit and raises FREEZE_TIMEOUT. -/
  | freezeWatchdogExpiry (p : Nat)
  /-- WAIT_WATCHDOG_EXPIRY (R32): A stream's wait reaches its limit and raises WAIT_TIMEOUT. -/
  | waitWatchdogExpiry (p : Nat) (st : Stream)
  /-- SCHEDULE_SLIP (R30): A timed task not started by base + offset + slack halts the walker. -/
  | scheduleSlip (l : Nat)
  /-- TASK_START (R28): The walker starts a task on a free core with preloaded state. -/
  | taskStart (l : Nat)
  /-- TASK_COMMIT (R34): A task in ENDING commits once its conditions hold. -/
  | taskCommit (p : Nat)
  /-- LAUNCH_TAKE (R351): The yardmaster takes a head launch record and runs its acceptance checks. -/
  | launchTake (q : Nat)
  /-- LAUNCH_AGING_TICK (R335): A head record's effective level rises after 2^24 cycles of waiting. -/
  | launchAgingTick (q : Nat)
  /-- LAUNCH_QUEUE_PUSH (R333): A store to LQPUSH reads and appends a launch record and sets LAST. -/
  | launchQueuePush (q : Nat) (v : BitVec 64)
  /-- LAUNCH_QUEUE_OPEN (R334): LQCTL command open makes a queue OPEN. -/
  | launchQueueOpen (q : Nat)
  /-- LAUNCH_QUEUE_QUIESCE (R334): LQCTL command quiesce closes a queue at a record boundary. -/
  | launchQueueQuiesce (q : Nat)
  /-- LAUNCH_QUEUE_DISABLE (R334): LQCTL command disable discards held records. -/
  | launchQueueDisable (q : Nat)
  /-- TRAP_RECORD_PLACE (R388): A trap source places its four-word record into the trap FIFO, waiting for room. -/
  | trapRecordPlace
  /-- TRAPQ_POP (R388): A read of TRAPQ pops one word of the trap FIFO. -/
  | trapqPop (y : Nat)
  /-- YARDMASTER_TRAP_ENTRY (R153): A yardmaster takes a trap or interrupt, saving state and vectoring to YTVEC. -/
  | yardmasterTrapEntry (y : Nat)
  /-- HEARTBEAT (R417): A write to HEARTBEAT restarts the heartbeat limit. -/
  | heartbeat (y : Nat)
  /-- HEARTBEAT_LIMIT_EXPIRY (R418): The heartbeat limit passes, restoring the previous slot or promoting the standby. -/
  | heartbeatLimitExpiry (y : Nat)
  /-- SNAPSHOT_STORE (R372): Writes a frozen core's snapshot record to memory. -/
  | snapshotStore (p : Nat) (addr : Nat)
  /-- SNAPSHOT_LOAD (R372): Loads a snapshot record into a frozen core. -/
  | snapshotLoad (p : Nat) (addr : Nat)
  /-- SNAPSHOT_EVICT (R372): Saves a context's slots and plane pair and clears their owner and pins. -/
  | snapshotEvict (p : Nat)
  /-- SNAPSHOT_CLEAR (R372): Sets a context's slots and plane pair to creation state without saving. -/
  | snapshotClear (p : Nat)
  /-- SERVICE_XCHG_P (R270): A service-FIFO record requests a placement exchange without context check. -/
  | serviceXchgP (n : Nat)
  /-- SERVICE_XCHG_D (R270): A service-FIFO record requests a data exchange. -/
  | serviceXchgD (n : Nat)
  /-- GRANT (R270): A service-FIFO record passes a void block's frame to another identity. -/
  | grant (n : Nat)
  /-- TLBINV_ALL (R381): An invalidation record drops all device TLB entries. -/
  | tlbinvAll (v : BitVec 64)
  /-- TLBINV_ASID (R381): An invalidation record drops one ASID's non-global entries. -/
  | tlbinvAsid (v : BitVec 64)
  /-- TLBINV_PAGE (R381): An invalidation record drops one ASID and page. -/
  | tlbinvPage (v : BitVec 64)
  /-- TLB_INVALIDATION_DONE (R381): When all matching entries are dropped and users resolved, DONE is written. -/
  | tlbInvalidationDone
  /-- GRANULE_MIGRATION_START (R385): A write to FMMIG starts copying a far granule. -/
  | granuleMigrationStart (v : BitVec 64)
  /-- MIGRATION_COPY_COMPLETE (R386): The copy ends and the granule enters DRAINING. -/
  | migrationCopyComplete
  /-- MIGRATION_FLIP (R386): With no access in flight the indirection entry flips to the new place. -/
  | migrationFlip
  /-- MIGRATION_ABANDON (R386): A poisoned read or link loss abandons the migration and sets FAIL. -/
  | migrationAbandon
  /-- RTS_VERIFY (R415): A root-of-trust request verifies a firmware slot. -/
  | rtsVerify
  /-- RTS_EXTEND (R414): A root-of-trust request extends a measurement register. -/
  | rtsExtend
  /-- RTS_SWITCH (R417): A root-of-trust request switches the yardmaster to a verified slot. -/
  | rtsSwitch
  /-- RTS_REQUEST_COMPLETE (R415): The Plovelm writes a request's status and sets YIP[2]. -/
  | rtsRequestComplete
  /-- CONTEXT_CREATE (R364): A mailbox request creates a context from its record. -/
  | contextCreate
  /-- CONTEXT_DESTROY (R365): A mailbox request starts destroying a context. -/
  | contextDestroy
  /-- CONTEXT_DESTRUCTION_COMPLETE (R365): Destruction steps finish and the identifier becomes free. -/
  | contextDestructionComplete (ctx : Nat)
  /-- GROUP_BIND (R360): A mailbox request binds a declared group. -/
  | groupBind
  /-- GROUP_REBIND (R360): A mailbox request rebinds a contained group. -/
  | groupRebind
  /-- GROUP_RESUME (R360): A mailbox request re-runs a contained group's aborted phase. -/
  | groupResume
  /-- GROUP_RELEASE (R360): A mailbox request drops a group's binding. -/
  | groupRelease
  /-- LAUNCH_QUEUE_ASSIGN (R419): A mailbox request assigns a launch queue to a context. -/
  | launchQueueAssign
  /-- TRAP_REPLY (R390): A mailbox request resumes or aborts a forwarded trap. -/
  | trapReply
  /-- VYLUM_ENABLE (R401): VLCTL command enable starts link training. -/
  | vylumEnable (k : Nat)
  /-- VYLUM_RETRAIN (R401): VLCTL command retrain starts retraining. -/
  | vylumRetrain (k : Nat)
  /-- VYLUM_DISABLE (R401): VLCTL command disable takes the link DOWN. -/
  | vylumDisable (k : Nat)
  /-- LINK_TRAINED (R401): Training or retraining succeeds and the link goes UP or DEGRADED. -/
  | linkTrained (k : Nat) (lanes : BitVec 8) (gen : BitVec 2) (peer : BitVec 16) (plink : BitVec 8)
  /-- LINK_TRAINING_TIMEOUT (R401): 100 ms pass in TRAINING and the link returns to DOWN. -/
  | linkTrainingTimeout (k : Nat)
  /-- LINK_RETRAIN_TIMEOUT (R401): 10 ms pass in RETRAINING and the link is LOST. -/
  | linkRetrainTimeout (k : Nat)
  /-- ERROR_BURST (R401): Too many CRC failures within 2^20 flits start retraining. -/
  | errorBurst (k : Nat)
  /-- LANE_LOCK_LOSS (R401): Loss of lane lock starts retraining. -/
  | laneLockLoss (k : Nat)
  /-- FLIT_RECEIVE (R404): A received flit is accepted, discarded or answered by NAK. -/
  | flitReceive (k : Nat) (flit : BitVec 2048)
  /-- NAK_RECEIVE (R404): A NAK makes the sender resend from the named sequence. -/
  | nakReceive (k : Nat) (ack : BitVec 12)
  /-- PEER_REQUEST_RECEIVE (R407): An incoming peer request is applied to a landing frame or refused. -/
  | peerRequestReceive (k : Nat) (rq : PeerRequest)
  /-- PORT_LINK_STATE_CHANGE (R399): A PCIe or CXL port's LTSSM change moves its reported state. -/
  | portLinkStateChange (port : PortId) (ltssm : Ltssm)
  /-- PCIE_MEMORY_REQUEST (R315): A PCIe requester's memory access is checked and applied. -/
  | pcieMemoryRequest (rq : Access)
  /-- SHED_LOST (R395): Loss of a shed freezes and contains the affected groups. -/
  | shedLost (shed : Nat)
  /-- PACKAGE_RESET (R411): The Plovelm ROM verifies and starts the yardmaster and application-core images. -/
  | packageReset
  /-- SPDM_REQUEST (R414): The SPDM responder answers a request with signed measurements. -/
  | spdmRequest (index : Nat) (nonce : BitVec 256)
  /-- REGISTER_WRITE (R409): A write to a control-region register without its own row sets its fields or is refused and logged. -/
  | registerWrite (addr : Nat) (v : BitVec 64) (rqk : BitVec 4) (rqi : BitVec 12) (size : Nat)
  /-- APPLICATION_CORE_ACCESS (R314): An application-core hart's load, store or atomic reaches device memory, a tensor window or a near store through port 3. -/
  | applicationCoreAccess (rq : Access)
  /-- STORE_RESOLVED (R381): A linear store that has left its core becomes visible at its home frame after a variable delay. -/
  | storeResolved (p : Nat)
  /-- SOFT_ERROR (R393): A stored word suffers a soft error, which is corrected and counted, or which poisons its line if it cannot be corrected. -/
  | softError (x : Stored) (fatal : Bool)
  /-- WALKER_RESUME (R30): The yardmaster re-times a slipped phase by a base-cycle delta and resumes the halted walker. -/
  | walkerResume (l : Nat)
  /-- SERIALISED_RE_RUN (R38): After DIGEST_MISMATCH the yardmaster re-runs the phase one task at a time on logical core 0. -/
  | serialisedReRun (l : Nat)
  /-- PHASE_ROLL_BACK (R394): The yardmaster discards started tasks, clears commit bits, restores the continuation queue and re-runs the phase. -/
  | phaseRollBack (l : Nat)
  /-- LAUNCH_ABORT (R354): The yardmaster aborts a launch whose trap it does not resume, writing status 5 and sending the MSI. -/
  | launchAbort (l : Nat) (code : Nat)
  /-- DVFS (R420): The device adjusts the compute supply and clock and updates PNOW and MV to keep package power under PLIM. -/
  | dvfs (pnow : BitVec 16) (mv : BitVec 12)
  deriving DecidableEq, Repr

end Sys2Proof
end

