-- ==== Sys2Proof/Config.lean ====
section
/-! DEFINITION. What the spec leaves open and one part fixes: the free values (opaque, no body) and the placement that
the spec does not give. -/

namespace Sys2Proof.Config

/-- FREE VALUE (DESIGN CHOICE, log 4): the variable delays of R19, R108, R230, R243, R292, R379 and R381, in cycles beyond the least
delay of one cycle. The argument is the machine's counter of free values. -/
opaque delay : Nat → Nat

/-- FREE VALUE (DESIGN CHOICE, log 13): the four public keys by slot, modulus and exponent, which the spec does not give (R413). -/
opaque publicKey : Nat → Nat × Nat

/-- FREE VALUE (DESIGN CHOICE, log 13): the signature of the device key over a measurement report (R414), from the report as a number. -/
opaque deviceSignature : Nat → BitVec 4096

/-- FREE VALUE (DESIGN CHOICE, log 13): the SHA-512 digest of the application-core boot image, none where it fails verification. The spec
gives neither the image's place nor its contents (R411). -/
opaque appImage : Option (BitVec 512)

/-- FREE VALUE (DESIGN CHOICE, log 12): the snapshot words of R368 whose layout the spec does not give. The argument is the machine's
counter of free values. -/
opaque snapWord : Nat → BitVec 64

/-- FREE VALUE (DESIGN CHOICE, log 26): what the spec does not state of `YTCAUSE`[5:0] and `YTVAL` for an interrupt (R153). -/
opaque interruptWord : Nat → BitVec 64

/-- FREE VALUE (DESIGN CHOICE, log 39): what a round answers when its word is no longer reached at the close. The argument is the machine's
counter of free values. -/
opaque roundAnswer : Nat → BitVec 64


/-- FREE VALUE (DESIGN CHOICE, log 37): which of the four operations of R242 a peer's reducing write asks for, as the low two bits of its
major; the units of R403 carry none. The argument is the machine's counter of free values. -/
opaque peerReduce : Nat → BitVec 2

/-- DESIGN CHOICE (DESIGN CHOICE, log 2): the device physical address of the first near-store frame of core 0. The spec gives
no placement of the near stores in the 56-bit space; it is clear of every address that the spec gives. -/
def nearBase : Nat := 0x40_0000_0000

/-- The device physical address of the first byte of shed 0's yard (DESIGN CHOICE, log 2; the address that the program
of R440 uses lies in it). -/
def yardBase : Nat := 0x80_0000_0000

/-- The first byte of the firmware body in device physical space (R437). -/
def firmwareBase : Nat := 0xFE_0000_0000_0000

/-- The control region (R409). -/
def controlBase : Nat := 0xFF_0000_0000_0000

/-- DESIGN CHOICE (DESIGN CHOICE, log 2): the yard address of the far-memory indirection table of R384: the 512 MiB of the yard of shed 7,
one 16-byte entry for each 2 MiB of 64 TiB. -/
def farTable : Nat := 0x80_E000_0000

/-- DESIGN CHOICE (DESIGN CHOICE, log 3): what a byte of memory that nothing has written reads as. -/
def blankByte : BitVec 8 := 0

end Sys2Proof.Config
end

