-- ==== Sys2Proof/Machine/Bits.lean ====
section
/-! DEFINITION. Byte order, bit fields and lanes: little-endian bytes of numbers and of lines (R4), elements of dense bit
streams (R88), and the CRC of R37. -/

namespace Sys2Proof.Machine

/-- The value of a little-endian byte string. -/
def bytesVal : List Byte → Nat
  | [] => 0
  | b :: bs => b.toNat + 256 * bytesVal bs

/-- The `n` little-endian bytes of a value. -/
def valBytes : Nat → Nat → List Byte
  | 0, _ => []
  | n + 1, x => BitVec.ofNat 8 x :: valBytes n (x / 256)

/-- A byte string as a line; missing bytes are zero. -/
def lineOf (bs : List Byte) : Line := BitVec.ofNat 2048 (bytesVal bs)

/-- The 256 bytes of a line. -/
def lineBytes (l : Line) : List Byte := valBytes 256 l.toNat

/-- Bits `lo + n - 1 .. lo` of a number. -/
def bits (x lo n : Nat) : Nat := (x >>> lo) % 2 ^ n

/-- One bit of a number. -/
def bit (x i : Nat) : Bool := Nat.testBit x i

/-- Element `n` of a dense stream of `w`-bit elements (R88). -/
def elem (x w n : Nat) : Nat := bits x (w * n) w

/-- The elements of a list packed densely, `w` bits each, the first lowest (R88). -/
def pack (w : Nat) : List Nat → Nat
  | [] => 0
  | x :: xs => x % 2 ^ w + 2 ^ w * pack w xs

/-- Lane `i` of width `w` of a line (R202). -/
def lane (w : Nat) (l : Line) (i : Nat) : Nat := elem l.toNat w i

/-- A line from its lanes. -/
def ofLanes (w : Nat) (xs : List Nat) : Line := BitVec.ofNat 2048 (pack w xs)

/-- The two's complement reading of the low `w` bits. -/
def toSigned (w x : Nat) : Int := if bit x (w - 1) then (x % 2 ^ w : Nat) - 2 ^ w else (x % 2 ^ w : Nat)

/-- The low `w` bits of an integer. -/
def ofSigned (w : Nat) (x : Int) : Nat := (x % (2 ^ w : Int)).toNat

/-- One byte into a CRC-64/ECMA-182 register (R37): no reflection, most significant bit first. -/
def crcByte (c : BitVec 64) (b : Byte) : BitVec 64 :=
  (List.range 8).foldl
    (fun c _ => if c.msb then (c <<< 1) ^^^ 0x42F0E1EBA9EA3693 else c <<< 1)
    (c ^^^ (b.setWidth 64 <<< 56))

/-- The CRC-64/ECMA-182 of a byte string onto a running value (R37). -/
def crcBytes (c : BitVec 64) (bs : List Byte) : BitVec 64 := bs.foldl crcByte c

/-- Replaces element `n` of a list. -/
def setAt {α : Type} : List α → Nat → α → List α
  | [], _, _ => []
  | _ :: xs, 0, v => v :: xs
  | x :: xs, n + 1, v => x :: setAt xs n v

/-- Inserts by a key, after equal keys. -/
def insertBy {α : Type} (f : α → Nat) (x : α) : List α → List α
  | [] => [x]
  | y :: ys => if f x < f y then x :: y :: ys else y :: insertBy f x ys

/-- A list in ascending order of a key; equal keys keep their order. -/
def sortBy {α : Type} (f : α → Nat) (xs : List α) : List α := xs.foldl (fun ys x => insertBy f x ys) []

/-- Rounds a division up. -/
def ceilDiv (a b : Nat) : Nat := (a + b - 1) / b

/-- The exact base-2 logarithm of a positive number, rounded down. -/
def ilog2 (n : Nat) : Nat := Nat.log2 n

/-- The integer square root by bits, from bit `k` down. -/
def isqrtBits (n : Nat) : Nat → Nat → Nat
  | 0, r => r
  | k + 1, r =>
    let t := r + 2 ^ k
    isqrtBits n k (if t * t ≤ n then t else r)

/-- The integer square root, rounded down. -/
def isqrt (n : Nat) : Nat := isqrtBits n (ilog2 n / 2 + 1) 0

end Sys2Proof.Machine
end

