-- ==== Sys2Proof/Machine/Sparse.lean ====
section
/-! DEFINITION. Sparse maps: lists of (key, value) pairs with strictly rising keys and no entry equal to the default,
so that equal maps are equal lists. Memory is one of these, keyed by device physical address. -/

namespace Sys2Proof.Machine

/-- A sparse map in canonical form: keys strictly rise and no listed value is the default. -/
abbrev Sparse (α : Type) := List (Nat × α)

/-- Reads a key; an unlisted key reads as the default `d`. -/
def Sparse.get {α : Type} (d : α) : Sparse α → Nat → α
  | [], _ => d
  | (k, v) :: m, x => if k = x then v else Sparse.get d m x

/-- Inserts or replaces a key, keeping the order. -/
def Sparse.put {α : Type} : Sparse α → Nat → α → Sparse α
  | [], x, v => [(x, v)]
  | (k, u) :: m, x, v =>
    if x < k then (x, v) :: (k, u) :: m
    else if x = k then (x, v) :: m
    else (k, u) :: Sparse.put m x v

/-- Removes a key. -/
def Sparse.del {α : Type} : Sparse α → Nat → Sparse α
  | [], _ => []
  | (k, u) :: m, x => if k = x then Sparse.del m x else (k, u) :: Sparse.del m x

/-- Writes a key: writing the default removes the entry. -/
def Sparse.set {α : Type} [DecidableEq α] (d : α) (m : Sparse α) (x : Nat) (v : α) : Sparse α :=
  if v = d then Sparse.del m x else Sparse.put m x v

/-- The first key of a map is above a bound. -/
def Sparse.above {α : Type} (n : Nat) : Sparse α → Bool
  | [] => true
  | (k, _) :: _ => n < k

/-- The canonical form. -/
def Sparse.wf {α : Type} [DecidableEq α] (d : α) : Sparse α → Bool
  | [] => true
  | (k, v) :: m => Sparse.above k m && v != d && Sparse.wf d m

end Sys2Proof.Machine
end

