-- ==== Sys2Proof/Machine/State.lean ====
section
/-! DEFINITION. The state of the package as plain data. Every piece of state that the spec names has its field; a field
whose docstring begins with MODEL is the model's own bookkeeping. Reset values that the spec does not state are zero or
empty (DESIGN CHOICE, log 1). -/

namespace Sys2Proof.Machine

/-- The trap causes of R387, by name. -/
inductive Cause where
  | illegalLine | illegalInstruction | reservedField | formatUnderflow | formatInvalid | queueMisuse
  | freezeTimeout | tileFault | pageFault | accessViolation | alignment | exchangeAborted | slotExhausted
  | scheduleSlip | digestMismatch | routeOverflow | uncorrectable | linkLost | software | waitTimeout
  | heartbeatMissed | shedLost
  deriving DecidableEq, Repr

/-- A register that a pending write names (R110, R227). -/
inductive Reg where
  | s (n : BitVec 5) | v (n : BitVec 5) | k (n : BitVec 5)
  /-- A pattern register that a BFXCFG in flight loads (R164). -/
  | x (n : BitVec 2)
  deriving DecidableEq, Repr

/-- What an instruction waits for: an object of R343 (kind and index), a delay of memory or translation (R20), or a
fixed number of cycles of the task's own making, which counts on no watchdog (R35, R207). -/
inductive Wait where
  | object (kind idx : Nat)
  | memory
  | fixed
  /-- An operand that an earlier lane of the same joined line produces later (R62). -/
  | sameLine (r : Reg)
  deriving DecidableEq, Repr

/-- The kinds of access that a page entry is checked for (R376). -/
inductive Acc where
  | load | store | amo | fetch
  deriving DecidableEq, Repr

/-- A lookup that a waiting instruction starts: a translation (ASID, root page number, address) or a tile-table lookup
of a port (R256, R379). -/
inductive Lookup where
  | walk (acc : Acc) (asid root : Nat) (va : DWord)
  | tile (port ea : Nat)
  /-- The claim of a foreign slot 0-31, or at 32 of the plane pair (R280). -/
  | claim (what : Nat)
  /-- The next read of a group barrier's word by a WAIT (R141). -/
  | poll (va : DWord) (pa : Nat) (win : Bool)
  /-- FREEZE asks a core to stop at the end of the cycle (R155). -/
  | freeze (p : Nat)
  deriving DecidableEq, Repr

/-- A refused access for an error log (R392): log unit, `RSN` and address. -/
structure LogRec where
  unit : Nat
  rsn : Nat
  addr : DWord
  /-- MODEL: the address lies in a table of the context, where an uncorrectable error destroys it (R364). -/
  table : Bool
  deriving DecidableEq, Repr


/-- How the lane that `exec` has just run ended. MODEL bookkeeping. -/
inductive LaneEnd where
  | idle | done | suppressed | waiting (w : Wait) (l : Option Lookup)
  /-- Cause, word 3 of the record, the queue pops that stay in effect: queue, and the d register that holds the
  popped value (R94, R232), and the refusal that a port or controller logs. -/
  | trapped (c : Cause) (info : DWord) (keep : List (Nat × Option Nat)) (log : Option LogRec)
  deriving DecidableEq, Repr

/-- A bit-field extraction pattern register (R105): the record, and whether one has been loaded since task start. -/
structure Pattern where
  record : BitVec 576 := 0
  loaded : Bool := false
  deriving DecidableEq, Repr

/-- The register files and read-only registers of a core (R10, R22, R23, R74, R109, R202, R204). -/
structure Regs where
  s : Vector DWord 32 := .replicate 32 0
  a : Vector DWord 16 := .replicate 16 0
  d : Vector DWord 16 := .replicate 16 0
  k : Vector Word 8 := .replicate 8 0
  v : Vector Line 32 := .replicate 32 0
  p : Vector (BitVec 256) 8 := .replicate 8 0
  x : Vector Pattern 4 := .replicate 4 {}
  /-- i0-i5. -/
  i : Vector Word 6 := .replicate 6 0
  wid : DWord := 0
  tcycle : DWord := 0
  lcore : BitVec 9 := 0
  phase : BitVec 8 := 0
  deriving DecidableEq, Repr

/-- What stands open at a line to which RTT returns (R66, R133): the target of a taken transfer, the move past the end line of a LOOP with
count 0, and whether all lanes have issued and the line's end is what remains. -/
structure Resume where
  target : Option DWord := none
  skip : Option DWord := none
  atEnd : Bool := false
  deriving DecidableEq, Repr

/-- A stride slot of a loop level (R135, R371): it names a register of the stream whose unit holds it; in joined mode the strides
of every stream act with C's level. -/
structure Stride where
  used : Bool := false
  imm : Word := 0
  pair : Bool := false
  coord : Bool := false
  reg : BitVec 5 := 0
  deriving DecidableEq, Repr

/-- A level of a loop unit (R133, R371). -/
structure LoopLevel where
  active : Bool := false
  count : Word := 0
  index : Word := 0
  start : DWord := 0
  endLine : DWord := 0
  strides : List Stride := []
  deriving DecidableEq, Repr

/-- A stream of a core (R63, R66, R370). -/
structure StreamState where
  line : DWord := 0
  lane : Nat := 0
  /-- `BP`: a taken transfer stands in the line. -/
  bp : Bool := false
  target : DWord := 0
  /-- `OUT`: outside the fork's mask. -/
  out : Bool := false
  /-- `JN` and its flag. -/
  jn : Option (BitVec 3) := none
  /-- `HLT`: halted at a fault. -/
  hlt : Bool := false
  /-- `END`: TEND has issued (C). -/
  ended : Bool := false
  /-- The wait watchdog count. -/
  wdog : Nat := 0
  digest : DWord := 0
  loops : Vector LoopLevel 6 := .replicate 6 {}
  /-- MODEL: the fetched line, until the stream leaves it (R84). -/
  buf : Option ILine := none
  /-- MODEL: the move past the end line of a LOOP with count 0, pending to the line end (R133). -/
  skip : Option DWord := none
  /-- MODEL: on a yardmaster, what stands open in the lines to which RTT returns, the next one first (R66). -/
  after : List Resume := []
  /-- MODEL: what the stream waits for in this cycle. -/
  wait : Option Wait := none
  /-- MODEL: a TRAP issued in this line or lane, whose record is made once the position has advanced (R151). -/
  swTrap : Option (BitVec 8) := none
  /-- MODEL: a FORK issued in this line takes effect at its end: mask and the targets of A, K, D (R130). -/
  fork : Option (BitVec 3 × DWord × DWord × DWord) := none
  deriving DecidableEq, Repr

/-- A pending register write (R108, R110, R207, R227): ready when the core's clock reaches `ready`. -/
structure Pend where
  reg : Reg
  val : Line
  ready : Nat
  issued : Nat
  deriving DecidableEq, Repr

/-- A linear load in flight (R110, R116). `dst` is none once a later instruction has written the register. -/
structure LinLoad where
  dst : Option (BitVec 5)
  va : DWord
  pa : Nat
  size : Nat
  signed : Bool
  kind : BitVec 2
  seq : Nat
  due : Nat
  issued : Nat
  /-- The value, once a release or a fence of the stream has bound it. MODEL. -/
  bound : Option DWord := none
  /-- Its UNCORRECTABLE has been taken; it is performed again after THAW (R393). -/
  failed : Bool := false
  /-- The storage level of its frame (R299); it reads a commit bit, which acquires at system scope (R308). -/
  level : Nat := 0
  acq : Bool := false
  /-- It goes to a block through a tensor window, and follows the block (R258). -/
  win : Bool := false
  /-- It is to be performed again, from its virtual address on (R110, R393). -/
  again : Bool := false
  deriving DecidableEq, Repr

/-- The task that a command, a record or a held delivery belongs to. -/
structure TaskId where
  ctx : Nat := 0
  launch : Nat := 0
  phase : Nat := 0
  ordinal : Nat := 0
  wid : DWord := 0
  /-- MODEL: how often the launch had been rolled back when it started. -/
  attempt : Nat := 0
  deriving DecidableEq, Repr

/-- A linear store in flight: it becomes visible at STORE_RESOLVED. `kind` is the page's ordering kind. -/
structure LinStore where
  va : DWord
  pa : Nat
  size : Nat
  val : DWord
  kind : BitVec 2
  seq : Nat
  due : Nat
  /-- MODEL: port 3 of the near store that it goes to has served it; it has been sent to its peer. -/
  served : Bool := false
  /-- The storage level of its frame (R299). -/
  level : Nat := 0
  /-- It goes to a block through a tensor window (R258). -/
  win : Bool := false
  /-- MODEL: the task whose core it has left for good: it runs on to its end there, whatever the core does (R110). -/
  gone : Option TaskId := none
  deriving DecidableEq, Repr

/-- Whose an atomic is that has left its core before its task has (R110). MODEL. -/
inductive AmoLate where
  | here
  /-- Of a core that no longer holds the task: it runs on, and its result is kept for the task. -/
  | sent (t : TaskId)
  /-- In the record of the task, or restored with it: the result comes from where it has been sent. -/
  | awaited (t : TaskId)
  deriving DecidableEq, Repr

/-- The operation of an atomic (R120, R121). -/
inductive AmoOp where
  | add | and | or | xor | min | max | swp | cas | addd | null
  deriving DecidableEq, Repr

/-- An atomic in flight, with its round number where it runs in a round (R121, R122). -/
structure AmoReq where
  op : AmoOp
  dst : Option (BitVec 5)
  va : DWord
  pa : Nat
  /-- The width in bits: 16, 32 or 64. -/
  width : Nat
  b : DWord
  cmp : DWord
  stm : BitVec 3
  scope : BitVec 2
  /-- The page's ordering kind. -/
  kind : BitVec 2
  seq : Nat
  due : Nat
  round : Option Nat
  issued : Nat
  /-- Its UNCORRECTABLE has been taken; it is performed again after THAW (R393). -/
  failed : Bool := false
  /-- The storage level of its frame (R299). -/
  level : Nat := 0
  /-- It goes to a block through a tensor window (R258). -/
  win : Bool := false
  /-- MODEL: port 3 of the near store that it goes to has served it. -/
  served : Bool := false
  late : AmoLate := .here
  deriving DecidableEq, Repr

/-- The result of an atomic that has left a core together with its task (R110): a value, or the exception of its reply. MODEL. -/
structure LateAmo where
  task : TaskId
  seq : Nat
  value : DWord
  cause : Option Cause
  deriving DecidableEq, Repr

/-- A fence placed by C (R124, R309); `last` is the last load before it that is in flight, which an acquire makes its own (R309). -/
structure FenceRec where
  kind : BitVec 2
  uo : Bool
  mask : BitVec 3
  scope : BitVec 2
  seq : Nat
  last : Option Nat
  deriving DecidableEq, Repr

/-- A queue entry (R329): `val` is none while RESERVED; READY entries can be popped in the cycles after `ready`. -/
structure QEntry where
  val : Option Line := none
  ready : Nat := 0
  /-- MODEL: names the load that reserved the entry. -/
  id : Nat := 0
  /-- MODEL: a push of K releases its spills: the entry can be popped once those before this sequence number have been
  written (R308). -/
  hold : Nat := 0
  deriving DecidableEq, Repr

/-- A core queue (R328): entries from the read position, and the entries popped in this cycle, which count as occupied
to its end (R329). -/
structure CoreQueue where
  entries : List QEntry := []
  pops : Nat := 0
  /-- The entries popped since the task's start: modulo the depth it is the read position, and the write position stands as many places
  behind it as there are entries (R331). -/
  rpos : Nat := 0
  deriving DecidableEq, Repr

/-- A token given and not yet taken (R138). -/
structure Token where
  id : Nat
  countable : Bool
  deriving DecidableEq, Repr

/-- A stage barrier (R140, R338). -/
structure Bar where
  count : Nat := 1
  arrivals : Nat := 0
  phase : Bool := false
  deriving DecidableEq, Repr

/-- A rendezvous register (R143, R342). -/
inductive Rdv where
  | disarmed
  | armed (marker : BitVec 5) (eng : BitVec 5)
  | fired
  deriving DecidableEq, Repr

/-- A marker placed and not yet retired (R142): retired once every command before `seq` has completed. -/
structure Marker where
  e : Engine
  n : BitVec 5
  seq : Nat
  deriving DecidableEq, Repr

/-- An effect on a synchronisation object that takes place at the end of a cycle (R136). -/
inductive SyncEff where
  | flag (n : BitVec 3) (set : Bool)
  | flags (v : BitVec 8)
  /-- Gives the token that effect `id` names, not yet countable. -/
  | give (t : BitVec 3) (id : Nat)
  /-- Takes the oldest token. -/
  | take (t : BitVec 3)
  /-- Makes the token given by effect `id` countable. -/
  | countable (t : BitVec 3) (id : Nat)
  | cntSet (n : BitVec 4) (v : Word)
  | barInit (n : BitVec 4) (count : Nat) (ph : Bool)
  | barArv (n : BitVec 4)
  | rdvSet (z : BitVec 3) (marker eng : BitVec 5)
  | rdvDisarm (z : BitVec 3)
  deriving DecidableEq, Repr

/-- An effect waiting for the end of its cycle, or, when it releases, for the accesses before `seq` (R136, R308). -/
structure Deferred where
  st : Stream
  /-- The cycle in which its instruction issued. -/
  time : Nat
  seq : Nat
  release : Bool
  eff : SyncEff
  deriving DecidableEq, Repr

/-- A load of stream A in flight (R110, R168, R179), by layout index and coordinates of its element. -/
inductive ALoadKind where
  /-- The line `k` lines after the element's, into queue `q`. -/
  | tld (q lay : Nat) (coord : DWord) (k : Nat)
  /-- The 8-byte word of a TLD into oq1. -/
  | word (lay : Nat) (coord : DWord)
  | column (q lay : Nat) (coord : DWord)
  /-- A TLDB of `len` bytes with the pattern record that it issued with. -/
  | pattern (q lay : Nat) (coord : DWord) (record : BitVec 576) (len : Nat)
  | index (lay : Nat) (coord : DWord) (n : Nat)
  /-- A line into the plane (area 0) or a side area (1 scales, 2 zero points, 3 metadata), with the format to record. -/
  | plane (area m lay : Nat) (coord : DWord) (fmt : Option (BitVec 4 × Bool))
  | planeColumn (k lay : Nat) (coord : DWord) (fmt : BitVec 4)
  | bfx (x : BitVec 2) (va : DWord) (pa pa2 : Nat) (win : Bool)
  deriving DecidableEq, Repr

/-- A load of stream A. -/
structure ALoad where
  kind : ALoadKind
  id : Nat
  seq : Nat
  due : Nat
  /-- The cycles in which ports of the core's own near store read its lines (R13, R159), and what those read so far have found,
  with their poison; none elsewhere. -/
  reads : List Nat
  got : List (List Byte × Bool)
  pos : DWord
  /-- Its line has come poisoned: its entries stay RESERVED, and a restore performs it again (R178, R331). -/
  failed : Bool := false
  /-- It has issued in forked mode and waits for its tile-table entries, or for a block: the cycle in which its lookups end, and the
  port of its first request (R20, R260). -/
  look : Option (Nat × Nat) := none
  /-- The core's clock at its issue (R62). -/
  issued : Nat := 0
  deriving DecidableEq, Repr

/-- What an engine command does (R169, R241, R242). -/
inductive EngKind where
  | gather | scatter | xfer | xchgP | xchgD | stash | restore
  | rwrAddF32 | rwrAddBf16 | rwrMaxF32 | rwrAddI32
  deriving DecidableEq, Repr

/-- An engine command of A or D (R170, R228): resolved operands, tokens, counter, and its progress at the engine. -/
structure EngCmd where
  id : Nat
  core : Nat
  st : Stream
  kind : EngKind
  /-- Layout-table entries of the operands by index, and their coordinates as read at issue. -/
  lay1 : Nat
  c1 : DWord
  lay2 : Nat
  c2 : DWord
  /-- Rows, lines or elements. -/
  n : Nat
  /-- Row bytes of GATHER and SCATTER; mode of STASH and RESTORE. -/
  rb : Nat
  idx : List Nat
  data : Line
  waitt : BitVec 3
  sigt : BitVec 3
  cnt : BitVec 4
  inc : BitVec 8
  task : TaskId
  pos : DWord
  seq : Nat
  /-- Source queue code and sequence number of a reducing write (R243). -/
  queue : Nat
  number : Nat
  /-- The launch queue of the task, part of the source identity (R403). -/
  lq : Nat
  /-- At the engine: started, the cycle of its next effect, rows or lines done, failed. -/
  started : Bool := false
  due : Nat := 0
  progress : Nat := 0
  failed : Bool := false
  finished : Bool := false
  /-- MODEL: the shunter or codec chosen when it reached its engine. -/
  unit : Nat := 0
  /-- MODEL: the bytes of the digest records of the writes made (R180, R246). -/
  records : List Byte := []
  /-- Groups of a STASH that held a NaN or an infinity (R293). -/
  nans : Nat := 0
  /-- MODEL: the row or line that has been read and is still to be written; port 3 has served its pending request. -/
  row : Option (List Byte) := none
  served : Bool := false
  /-- The layout-table entries as they stood at the start (R171). -/
  raw1 : Nat := 0
  raw2 : Nat := 0
  deriving DecidableEq, Repr

/-- A matrix command (R183), and the queued zeroings and spills that resolution adds (R193, R194). -/
inductive MKind where
  | flip
  /-- The queued zeroing of a newly mapped slot (R193). -/
  | zeroSlot (slot : Nat)
  /-- MZERO of a label: its resident slot. -/
  | zero (slot : Option Nat)
  | free
  /-- A spill of a slot to a near-store frame of the core, the image's when it was queued; an MSPILL's own, or one that
  resolution has added (R193). -/
  | spill (slot frame : Nat) (own : Bool)
  | stream (slot : Nat) (word : Word) (q sq row0 n : Nat) (iq : Option Nat)
  /-- BIND: destination slot, and for each label of the mask its resident slot and the frames of its images in spill
  order, as they were when it issued (R279). -/
  | bind (slot q : Nat) (srcs : List (Option Nat × List Nat))
  deriving DecidableEq, Repr

/-- A matrix command with its progress: rows entered or written, the index and coefficient entries popped, the clock from
which its cycles count; the lines of a spill written, or of the images of a BIND's present label read; the labels whose
reads a BIND has counted, and the clock from which the reads of the next label count (R199). -/
structure MCmd where
  kind : MKind
  seq : Nat
  issued : Nat
  pos : DWord
  rows : Nat := 0
  index : Option Line := none
  coefs : List Line := []
  start : Option Nat := none
  lines : Nat := 0
  label : Nat := 0
  cursor : Nat := 0
  /-- MODEL: the sums of a BIND's images as read so far, by place in the mask × 4096 + row × 64 + column, and the rows
  read poisoned, by place × 64 + row. -/
  parts : Sparse DWord := []
  bads : List Nat := []
  /-- MODEL: its failure at a poisoned plane has been recorded (R393). -/
  failed : Bool := false
  deriving DecidableEq, Repr

/-- An exact value: a dyadic number m × 2^e, an infinity or NaN. Zero keeps a sign. -/
inductive Num where
  | nan
  | inf (neg : Bool)
  | zero (neg : Bool)
  /-- A nonzero number m × 2^e. -/
  | fin (m : Int) (e : Int)
  deriving DecidableEq, Repr

/-- What lands in a slot 20 cycles after its row-entry cycle (R185, R191). -/
inductive Landing where
  /-- A row's exact group sums of each column (for AFMT FP64 its factors a, b in turn), with the format word and whether
  the element is zeroed first. -/
  | sums (row : Nat) (word : Word) (cols : List (List Num)) (zero : Bool)
  /-- The whole slot becomes zero bits. -/
  | zeros
  deriving DecidableEq, Repr

/-- A row in the array: its slot, what lands, and the clock at whose end it lands. -/
structure ArrayRow where
  slot : Nat
  land : Landing
  addAt : Nat
  seq : Nat
  deriving DecidableEq, Repr

/-- A spill image that a label owns (R194, R277), in the label's spill order by list order. -/
structure Image where
  idx : Nat
  label : BitVec 6
  deriving DecidableEq, Repr

/-- A weight plane with its side areas (R181): bytes 0-32767 the plane, then 2 KiB of scales, 1 KiB of zero points and
4 KiB of metadata. -/
structure Plane where
  bytes : Sparse Byte := []
  fmt : BitVec 4 := 0
  spa : Bool := false
  /-- Its poisoned 256-byte lines (R393). -/
  bad : List Nat := []
  deriving DecidableEq, Repr

/-- A claim in progress (R280): what it claims (0-31 slot, 32 the plane pair), the stream whose use it delays, the save lines
that have yet to leave port 3, the restored lines that have yet to come, and the cycle from which it can go on. -/
structure Claim where
  what : Nat
  stream : Stream
  saves : Nat
  loads : Nat
  due : Nat
  deriving DecidableEq, Repr

/-- The matrix engine of a core and its slots (R181-R201, R273-R280). -/
structure Matrix where
  queue : List MCmd := []
  rows : List ArrayRow := []
  plane0 : Plane := {}
  plane1 : Plane := {}
  /-- Plane 1 is active. -/
  active1 : Bool := false
  /-- Elements: key slot × 4096 + row × 64 + column. -/
  slots : Sparse DWord := []
  /-- Poisoned slot rows (R247): slot × 64 + row. -/
  poison : List Nat := []
  /-- Owner of slots 0-31 and, at 32, of the plane pair (R280). -/
  owner : Sparse Nat := []
  /-- Label to slot. -/
  map : List (Nat × Nat) := []
  /-- Slot to last use. -/
  use : Sparse Nat := []
  images : List Image := []
  /-- `POL` = 1: policy fault. -/
  polFault : Bool := true
  area : Option (Nat × Nat) := none
  idle : Nat := 0
  warm : Bool := true
  hint : Option Nat := none
  rampEnd : Option Nat := none
  /-- MODEL: the clock from which the array is free for the next row, and the clock to which a row occupies it. -/
  freeAt : Nat := 0
  busyTo : Nat := 0
  /-- MODEL: the slots in which a row has landed in this cycle of the clock, to be read from the next (R185). -/
  landed : List Nat := []
  /-- The claims in progress, the one that takes the next turn of port 3 first. -/
  claims : List Claim := []
  deriving DecidableEq, Repr

/-- The slot map of a context on a core (R28, R193, R273): as `Matrix` holds it for the running context. -/
structure SlotMap where
  map : List (Nat × Nat) := []
  use : Sparse Nat := []
  images : List Image := []
  polFault : Bool := true
  area : Option (Nat × Nat) := none
  deriving DecidableEq, Repr

/-- A store command of D (R229, R235, R237, R240). -/
inductive SKind where
  | drain (dt : BitVec 5) (i64 : Bool) (label : BitVec 6) (row0 n : Nat) (rnd : BitVec 2) (ovf wrap : Bool)
  | drainQ (qf : BitVec 4) (asym : Bool) (g : Nat) (label : BitVec 6) (row0 n : Nat) (rnd : BitVec 2) (ovf : Bool)
      (lays : Nat) (cs : DWord) (layz : Nat)
  | tst (data : Line)
  deriving DecidableEq, Repr

/-- A run of bytes that a store command writes: layout entry, block, offset; kind 0 element data, 1 scales, 2 zero
points (R229); `row` is the read that delivers it. -/
structure Run where
  row : Nat
  kind : Nat
  lay : Nat
  blk : Nat
  off : Nat
  /-- Its length in bits. -/
  len : Nat
  deriving DecidableEq, Repr

/-- A store command in the store queue or with data still in delivery. -/
structure SCmd where
  kind : SKind
  lay : Nat
  c : DWord
  seq : Nat
  pos : DWord
  issued : Nat
  /-- Reads of one row take u cycles (R229). -/
  u : Nat
  runs : List Run
  start : Option Nat := none
  slot : Option Nat := none
  reads : Nat := 0
  /-- Rows read of the current asymmetric group (R239). -/
  held : List (List DWord) := []
  /-- Runs delivered. -/
  delivered : Nat := 0
  failed : Bool := false
  deriving DecidableEq, Repr

/-- Converted data on its way to the write buffer: delivered at clock `at` (R229 step 3). -/
structure Delivery where
  seq : Nat
  /-- The position of the command. -/
  pos : DWord
  time : Nat
  run : Run
  data : List Byte
  deriving DecidableEq, Repr

/-- A line of the write buffer, partial until its last byte is delivered. -/
structure WLine where
  seq : Nat
  lay : Nat
  blk : Nat
  line : Nat
  kind : Nat
  /-- Offset in the line, byte, and the bits of it that are written. -/
  bytes : List (Nat × Byte × Byte)
  complete : Bool := false
  /-- It has left the buffer for another destination and is due there (R230). -/
  remote : Option Nat := none
  /-- MODEL: its block has been resolved to a place, so that an exchange counts it as in flight (R260); port 3 of its
  destination has served it. -/
  resolved : Bool := false
  served : Bool := false
  pos : DWord := 0
  deriving DecidableEq, Repr

/-- The drain unit of a core (R228, R229, R248). -/
structure Drain where
  cmds : List SCmd := []
  deliveries : List Delivery := []
  buf : List WLine := []
  /-- MODEL: the clock from which the next read may be made, and from which port 2 may write again. -/
  freeAt : Nat := 0
  writeAt : Nat := 0
  /-- MODEL: lines that have left the buffer for other destinations, of tasks that the core no longer holds: they run on (R110). -/
  away : List (TaskId × WLine) := []
  /-- Reducing writes issued from dq4, dq5, dq6 (R243). -/
  rwr : Vector Nat 3 := .replicate 3 0
  deriving DecidableEq, Repr

/-- An entry of A's or D's digest log: records fold in program order once ready (R180, R246). MODEL. -/
structure DigestRec where
  seq : Nat
  st : Stream
  ready : Bool
  bytes : List Byte
  /-- A store command's, with the runs delivered and their bytes. -/
  store : Bool := false
  parts : List (Run × List Byte) := []
  deriving DecidableEq, Repr

/-- A TLB entry (R379): page size by `level` (0 is 4 KiB). -/
structure TlbEntry where
  asid : Nat
  vpn : Nat
  level : Nat
  pte : DWord
  deriving DecidableEq, Repr

/-- A translation being looked up: the cycle its result is due; `hit` is the shed TLB's entry when it holds one. -/
structure WalkReq where
  acc : Acc
  asid : Nat
  root : Nat
  va : DWord
  due : Nat
  hit : Option TlbEntry
  deriving DecidableEq, Repr

/-- The translation side of a core (R10, R256, R379). -/
structure Lookups where
  tlb : List TlbEntry := []
  walks : List WalkReq := []
  /-- MODEL: walks (access, asid, vpn, cycle) that have failed in a cycle, for the access that retries in it, and the exception that it
  raises. -/
  walkFaults : List (Acc × Nat × Nat × Nat × Cause) := []
  /-- Tile caches of ports 0-3: entry addresses and entries, the most recently used first. -/
  tiles : Vector (List (Nat × BitVec 128)) 4 := .replicate 4 []
  /-- Tile lookups in progress: port, entry address, due cycle. -/
  tileReqs : List (Nat × Nat × Nat) := []
  /-- MODEL: lookups that completed without filling the cache, for the access that retries. -/
  tileDone : List (Nat × Nat) := []
  /-- The instruction cache: line addresses (device physical) and their contents, the newest first. -/
  icache : List (Nat × ILine) := []
  deriving DecidableEq, Repr

/-- A continuation record (R33). -/
structure ContRec where
  wid : DWord
  p0 : DWord
  p1 : DWord
  p2 : DWord
  /-- MODEL: the launch and the phase whose commit has appended it (R336). -/
  launch : Nat := 0
  phase : Nat := 0
  deriving DecidableEq, Repr

/-- A trap stop of a core (R178, R366): a stream, or all of a joined core; `placed` once its record is in the FIFO. -/
structure TrapStop where
  st : Option Stream
  placed : Bool
  deriving DecidableEq, Repr

/-- A group barrier wait's read (R141): the lane of the WAIT, due cycle, and the word once it has returned. -/
structure GbPoll where
  lane : Nat
  va : DWord
  pa : Nat
  due : Nat
  reply : Option DWord
  /-- It goes to a block through a tensor window (R258). -/
  win : Bool
  deriving DecidableEq, Repr

/-- What waits for a turn of a port 3 (R11): a linear load, or a store or atomic, of a core, a load of stream A, a line of a D store, an engine
command, an outside access, a peer's request on a link. -/
inductive PortOwner where
  | load (core seq : Nat) | store (core seq : Nat) | aload (core id : Nat) | wline (core seq lay blk line : Nat)
  | cmd (id : Nat) | outside (id : Nat) | peer (link : Nat)
  deriving DecidableEq, Repr

/-- A request of port 3 (R11): its class in round order from 0 (linear) to 6 (I/O dies and peers), its owner, the cycle in which it
comes to the port, the lines that it has still to move, and the cycles from its last turn to its arrival. -/
structure PortReq where
  cls : Nat
  owner : PortOwner
  since : Nat
  lines : Nat
  lat : Nat
  deriving DecidableEq, Repr

/-- A write of a near store's port 2 or 3 at the end of a cycle (R13); `bad` marks the line poisoned. -/
structure PortWrite where
  port : Nat
  pa : Nat
  bytes : List Byte
  bad : Bool := false
  deriving DecidableEq, Repr

/-- A group barrier arrival on its way to the yard controller. -/
structure GbArrive where
  va : DWord
  pa : Nat
  due : Nat
  pos : DWord
  seq : Nat
  /-- The storage level of its frame (R299). -/
  level : Nat
  /-- It goes to a block through a tensor window (R258). -/
  win : Bool
  /-- MODEL: as for a store. -/
  gone : Option TaskId := none
  deriving DecidableEq, Repr

/-- What the aligned 32-bit pieces that a store to a UO page touches were before it took place, which another agent may still read until
a fence of the storing core covers them (R301, R305). -/
structure UoOld where
  core : Nat
  pa : Nat
  bytes : List Byte
  deriving DecidableEq, Repr

/-- A core: 0-511 compute cores, 512 and 513 the yardmasters' instruction side. -/
structure Core where
  regs : Regs := {}
  c : StreamState := {}
  a : StreamState := {}
  k : StreamState := {}
  d : StreamState := {}
  /-- Forked mode. -/
  forked : Bool := false
  forkMask : BitVec 3 := 0
  /-- The joined line is held with its earlier lanes in effect (R62). -/
  heldLine : Bool := false
  /-- MODEL: the clock at which the first part of a held line took effect. -/
  heldClk : Nat := 0
  pend : List Pend := []
  loads : List LinLoad := []
  stores : List LinStore := []
  amos : List AmoReq := []
  fences : List FenceRec := []
  /-- MODEL: the place of the latest FENCE with `UO` in the stream (R305), and of the latest FENCE.I: lines fetched after it see the
  stores before it (R125). -/
  uoFence : Nat := 0
  fenceI : Nat := 0
  /-- Round requests issued per kind (false: R121, true: R122) and virtual address. -/
  roundCounts : List (Bool × Nat × Nat) := []
  gbPolls : List GbPoll := []
  gbArrives : List GbArrive := []
  queues : Vector CoreQueue 14 := .replicate 14 {}
  tokens : Vector (List Token) 6 := .replicate 6 []
  flags : BitVec 8 := 0
  counters : Vector Word 16 := .replicate 16 0
  bars : Vector Bar 16 := .replicate 16 {}
  rdvs : Vector Rdv 8 := .replicate 8 .disarmed
  /-- Retired masks of A, K, D, shunter, codec. -/
  retired : Vector Word 5 := .replicate 5 0xFFFFFFFF
  markers : List Marker := []
  deferred : List Deferred := []
  aloads : List ALoad := []
  aq : List EngCmd := []
  dq : List EngCmd := []
  matrix : Matrix := {}
  drain : Drain := {}
  digests : List DigestRec := []
  lookups : Lookups := {}
  conts : List ContRec := []
  /-- MODEL: ranges that the task has written, as entries of an error record (R394). -/
  wrote : List (DWord × DWord) := []
  /-- The context whose slot map stands in the matrix engine, and the maps that the others have left (R28). -/
  mapCtx : Nat := 0
  kept : Sparse SlotMap := []
  /-- `CTXID` of word 0 of the snapshot (R369). -/
  ctxWord : Nat := 0
  /-- The task that the core holds, and its context (R369). -/
  task : Option TaskId := none
  freezeHeld : Bool := false
  /-- MODEL: a FREEZE has asked the core to stop and has not returned yet. -/
  freezeAsk : Bool := false
  /-- MODEL: THAW has come within this cycle: the core runs on from the next (R367). -/
  thawed : Bool := false
  stops : List TrapStop := []
  freezeDog : Nat := 0
  /-- The round position of port 3 (R11). -/
  port3 : Nat := 0
  /-- The requests that wait for port 3, in the order in which they came; the cycle from which it can serve again. -/
  port3Q : List PortReq := []
  port3Busy : Nat := 0
  /-- MODEL: A's line requests of this cycle; the cycles from which ports 0 and 1 are free; the cycle before which a joined
  core is frozen, or stream A waits, for later requests and turns of those ports (R12, R159). -/
  aReqs : Nat := 0
  ports : Vector Nat 2 := .replicate 2 0
  portHold : Nat := 0
  /-- MODEL: the result clock from which the vector unit starts its next instruction, and before which a joined core is frozen
  for the further vector instructions of its bundle (R207). -/
  vnext : Nat := 0
  vhold : Nat := 0
  /-- MODEL: the core's clock, which freezes do not advance; the clock before which a joined core issues nothing; the result clock,
  by which results become ready: it goes on in a freeze that waits for a result (R108, R207); the source of sequence
  numbers. -/
  clk : Nat := 0
  hold : Nat := 0
  rclk : Nat := 0
  seq : Nat := 0
  /-- MODEL: the sequence number from which the present task's accesses count; those before it, of a task that the core no longer
  holds, go on to their end (R110). -/
  first : Nat := 0
  /-- MODEL: a record has been loaded, whose loads are performed again at THAW (R179). -/
  restored : Bool := false
  /-- MODEL: the core has been frozen in this cycle by its own stall. -/
  stalled : Option (Stream × Wait) := none
  /-- MODEL: the core, a stream or a lane has issued in this cycle (C, A, K, D). -/
  issued : BitVec 4 := 0
  /-- Snapshot words written by SNAPW that have no documented layout (DESIGN CHOICE, log 12). -/
  snapWords : Sparse DWord := []
  deriving DecidableEq, Repr

/-- A yardmaster (R109, R153, R154, R411-R418). -/
structure Yard where
  ytvec : DWord := 0
  ytepc : DWord := 0
  ytcause : DWord := 0
  ytval : DWord := 0
  yscratch : DWord := 0
  /-- What stood open where `YTEPC` points, for RTT (R66). -/
  shadow : List Resume := []
  pie : Bool := false
  ie : Bool := false
  /-- `YIP`[3:1]. -/
  yip : BitVec 3 := 0
  halted : Bool := false
  inReset : Bool := true
  /-- Cycles since the heartbeat limit last restarted. -/
  hb : Nat := 0
  /-- HEARTBEAT_MISSED to be taken first: the slot that missed (R391). -/
  missed : Option Bool := none
  /-- It has missed its heartbeat and is held in reset for good (R418). -/
  failed : Bool := false
  deriving DecidableEq, Repr

/-- A tag of a frame (R257, R373, R378, R407): owner, scrub mask, table, pin and landing bits. -/
structure Tag where
  owner : Nat := 0
  scrub : BitVec 128 := 0
  table : Bool := false
  pin : Bool := false
  landing : Bool := false
  deriving DecidableEq, Repr

/-- Group states (R359); a group of the table that has no entry is DECLARED. -/
inductive GroupState where
  | declared | bound | running | frozen | contained | released
  deriving DecidableEq, Repr

/-- A group of a context (R355, R359, R336). -/
structure Group where
  st : GroupState := .declared
  desc : DWord := 0
  queue : List ContRec := []
  /-- MODEL: how many records have left the queue since its creation. -/
  gone : Nat := 0
  /-- MODEL: the launch that the loss of a shed aborted, which a resume request re-runs (R360). -/
  lost : Option Nat := none
  deriving DecidableEq, Repr

/-- A forwarded trap that awaits a reply (R390, R419): ring position, core or launch, cause. -/
structure Forwarded where
  tseq : Nat
  core : Nat
  task : TaskId
  deriving DecidableEq, Repr

/-- A context (R362, R364): its record and the create request's trap ring. -/
structure Context where
  record : BitVec 1024
  destroying : Bool := false
  ring : Nat := 0
  msia : Nat := 0
  msid : Word := 0
  trl2 : Nat := 4
  groups : Sparse Group := []
  forwarded : List Forwarded := []
  deriving DecidableEq, Repr

/-- Launch queue states (R332, R334). -/
inductive LqState where
  | disabled | opened | quiescing | closed
  deriving DecidableEq, Repr

/-- What a launch's header names, as read (R345 to R348): the header, the binding table, the phase records and their start
offsets, and the recorded phase digests where the launch carries a digest table. -/
structure KernelText where
  hdr : BitVec 512
  binds : List (BitVec 16)
  phases : List (BitVec 1024)
  offs : List (List Nat)
  recorded : List DWord
  deriving DecidableEq, Repr

/-- A read for the walker: what it gives, a wait for a block (R351), or a status code with the phase it names (R350). -/
inductive Check (α : Type) where
  | ok (x : α)
  | wait
  | fail (code phase : Nat)
  deriving DecidableEq, Repr

/-- What the reads of a kernel have given so far: address and length of each, and its bytes or none where it has failed. -/
abbrev Reads := List (DWord × Nat × Option Nat)

/-- A record of a launch queue, what its kernel read as at the push (R310), the reads behind that, and for the push of a LAUNCH whose
release is not complete its core and place: the launch is taken only when the earlier accesses of that core have taken place (R148,
R308). -/
structure LqRecord where
  bits : BitVec 512
  text : Check KernelText
  got : Reads := []
  hold : Option (Nat × Nat) := none
  deriving DecidableEq, Repr

/-- A launch queue (R332-R335): its records, the levels that the head has risen above `PRIO`, and the cycles it has
waited since. -/
structure LaunchQueue where
  ctx : BitVec 16 := 0
  last : BitVec 2 := 0
  prio : BitVec 2 := 0
  st : LqState := .disabled
  recs : List LqRecord := []
  elev : Nat := 0
  aged : Nat := 0
  deriving DecidableEq, Repr

/-- Launch states (R354); a QUEUED launch is a record of its queue. -/
inductive LaunchState where
  | accepting | running | preempted | complete | refused | aborted
  deriving DecidableEq, Repr

/-- A kernel in state LOADED (18): its context, its launch header, and where the runtime has placed the constant section of
its image: address and length (DESIGN CHOICE, log 16). -/
structure Kernel where
  ctx : Nat
  hdr : DWord
  base : DWord
  len : Nat
  deriving DecidableEq, Repr

/-- A launch (R345-R354). -/
structure Launch where
  id : Nat
  queue : Nat
  level : Nat
  ctx : Nat
  group : Nat
  stat : Nat
  msia : Nat
  msid : Word
  /-- The address of the header, the header and the binding table as read (R345, R346). -/
  khdr : DWord
  /-- What the kernel read as at the push (R310). -/
  pushed : Check KernelText := .wait
  got : Reads := []
  hdr : BitVec 512
  binds : List (BitVec 16)
  /-- The phase records (R347) and their start offsets. -/
  phases : List (BitVec 1024)
  offs : List (List Nat)
  /-- The recorded phase digests as read (R348); none where the launch carries no table. -/
  recorded : List DWord := []
  st : LaunchState := .accepting
  phase : Nat := 0
  base : Nat := 0
  /-- The next walk ordinal to start, and whether the walker is halted by SCHEDULE_SLIP, and its re-timing delta. -/
  next : Nat := 0
  halted : Bool := false
  delta : Nat := 0
  /-- The walk ordinal of the task that has slipped (R30). -/
  slipped : Nat := 0
  /-- The logical core on which each task first ran: phase, ordinal, core; a re-run after a rebind keeps them (R361). -/
  placed : List (Nat × Nat × Nat) := []
  rebound : Bool := false
  /-- The number of tasks of each phase that has started, and the commits: phase, ordinal, cycle. -/
  sizes : List Nat := []
  commits : List (Nat × Nat × Nat) := []
  /-- Task digests of the phase by ordinal; records held for walk order (R33). -/
  digests : List (Nat × DWord) := []
  heldConts : List (Nat × List ContRec) := []
  /-- The queue at the start of a continuation walk: phase, records, and the queue's `gone` once they have left (R336). -/
  walkConts : List (Nat × List ContRec × Nat) := []

  /-- Cores whose tasks a pre-emption at level 3 has stored (R353, R374). -/
  parked : List Nat := []
  /-- How often it has been rolled back, and the ranges that its committed tasks of the phase have written (R394). -/
  attempt : Nat := 0
  wrote : List (DWord × DWord) := []
  /-- Serialised re-run (R38) in progress. -/
  rerun : Bool := false
  firstDigest : DWord := 0
  mismatched : Bool := false
  /-- The UNCORRECTABLEs that have already caused a re-run (R394): the address, or the record where it names none. -/
  repaired : List (List DWord) := []
  lastStart : Nat := 0
  deriving DecidableEq, Repr

/-- A request that a round unit holds (R121, R122). -/
structure RoundReq where
  launch : Nat
  phase : Nat
  /-- False: R121; true: R122. -/
  kind : Bool
  va : DWord
  round : Nat
  ordinal : Nat
  core : Nat
  seq : Nat
  op : AmoOp
  width : Nat
  b : DWord
  cmp : DWord
  deriving DecidableEq, Repr

/-- What a closed round returned to a task (R394). -/
structure RoundDone where
  launch : Nat
  phase : Nat
  kind : Bool
  va : DWord
  round : Nat
  ordinal : Nat
  value : DWord
  cause : Option Cause
  deriving DecidableEq, Repr

/-- A reduce-unit window (R243): unit, source identity (R403), highest number and mask. -/
structure Window where
  unit : Nat
  source : DWord
  high : Nat
  mask : DWord
  /-- The launch, for a source of this package (0 for a peer's). -/
  launch : Nat
  deriving DecidableEq, Repr

/-- An exchange that a shunter runs (R258-R262). -/
structure Exchange where
  placement : Bool
  /-- Tile-table entry addresses and the frames at the start. -/
  e1 : Nat
  e2 : Nat
  f1 : Nat
  f2 : Nat
  cursor : Nat
  rollback : Bool
  /-- The entries have left RESIDENT, at the end of the setup (R258, R260, R427); what was in flight then has drained (XCHG.D). -/
  marked : Bool
  drained : Bool
  /-- The cycle of the next line's end, or of the commit. -/
  due : Nat
  per : Nat
  /-- Cycles of the commit. -/
  tail : Nat
  /-- The context of the blocks. -/
  ctx : Nat
  /-- The issuing command, or none for a service record; its increment and completion word. -/
  cmd : Option EngCmd
  inc : Nat
  done : Nat
  linkLost : Bool
  deriving DecidableEq, Repr

/-- A record of a shunter's service FIFO (R270), with its place in arrival order and the cycle of its arrival (R259). -/
structure Service where
  id : Nat
  due : Nat
  opw : DWord
  e1 : DWord
  e2 : DWord
  done : DWord
  deriving DecidableEq, Repr

/-- A shunter (R7, R258, R270): the running exchange, and the service records. -/
structure Shunter where
  run : Option Exchange := none
  service : List Service := []
  deriving DecidableEq, Repr

/-- A trap record that waits for room in the FIFO (R388): core or device source, the stop that it belongs to. -/
structure TrapRec where
  core : Nat
  words : List DWord
  stop : Option (Option Stream)
  deriving DecidableEq, Repr

/-- An increment or token held for a task that is pre-empted (R179, R340), with the digest records of the command. -/
structure Held where
  task : TaskId
  st : Stream
  seq : Nat
  sigt : BitVec 3
  cnt : BitVec 4
  inc : BitVec 8
  err : Bool
  records : List Byte
  deriving DecidableEq, Repr

/-- A TLB invalidation being carried out (R381): what its `DONE` word receives, and the accesses that may have used an entry
it drops: for each core, those before a sequence number. -/
structure TlbInv where
  done : Nat
  value : Word
  users : List (Nat × Nat)
  deriving DecidableEq, Repr

/-- `FMMIG` and the migration's progress (R385, R386). -/
structure Migration where
  busy : Bool := false
  fail : Bool := false
  gran : BitVec 35 := 0
  due : Nat := 0
  deriving DecidableEq, Repr

/-- The access that a request to a peer belongs to: a linear load or store of a core, line `k` of a load of stream A, a
line of a D store, access `k` of an engine command. -/
inductive PeerOwner where
  | load (core seq : Nat) | store (core seq : Nat) | aload (core id k : Nat) | wline (core seq lay blk line : Nat)
  | cmd (id k : Nat)
  /-- Line `k` of an access of an application core or a PCIe requester. -/
  | outside (id k : Nat)
  /-- The instruction line of a core at an address. -/
  | fetch (core pa : Nat)
  deriving DecidableEq, Repr

/-- A request sent to a peer and not yet consumed (R404): link, tag, and the answer once it has come: data, empty for an
acknowledgement, or the cause that its consumer raises. -/
structure PeerReq where
  link : Nat
  tag : Nat
  owner : PeerOwner
  data : Option (List Byte) := none
  error : Option Cause := none
  deriving DecidableEq, Repr

/-- A Vylum link (R400-R404). -/
structure VLink where
  genmax : BitVec 2 := 2
  wmin : BitVec 2 := 1
  peer : BitVec 16 := 0
  plink : BitVec 8 := 0
  retry : BitVec 16 := 0
  lanes : BitVec 8 := 0
  width : BitVec 4 := 0
  gen : BitVec 2 := 0
  st : LinkState := .down
  /-- Next sequence to send, next expected, and the replay buffer from the oldest unacknowledged flit. -/
  txSeq : Nat := 0
  rxSeq : Nat := 0
  replay : List Line := []
  /-- Flits sent or to be resent on the wire, NAKs among them. MODEL: the link's output. -/
  wire : List Line := []
  /-- Cycle at which the present training or retraining began. -/
  since : Nat := 0
  /-- The next request tag. -/
  nextTag : Nat := 0
  /-- Transaction units waiting for room in the replay buffer (R404). -/
  backlog : List (List DWord) := []
  /-- Payload bytes of a unit not yet complete (R403). -/
  partialUnit : List Byte := []
  /-- Requests of the far end that have come and are not yet carried out (R407). -/
  incoming : List PeerRequest := []
  /-- Flits received, and the places of those that failed their CRC among them (R401). -/
  received : Nat := 0
  bad : List Nat := []
  /-- The flit received last has made an error burst (R401). -/
  burst : Bool := false
  /-- Bytes that the far end has acknowledged (R395). -/
  acked : Nat := 0
  deriving DecidableEq, Repr

/-- A request of the root-of-trust service FIFO (R415). -/
structure RtsReq where
  record : BitVec 512
  /-- The digest that `ADDR` of an EXTEND names, read with the record; none where it cannot be read. -/
  digest : Option (BitVec 512)
  status : Option Nat
  /-- MODEL: the cycle from which the Plovelm takes it up, once it is the oldest. -/
  due : Nat
  deriving DecidableEq, Repr

/-- The Plovelm (R411-R418). -/
structure Plovelm where
  meas : Vector (BitVec 512) 16 := .replicate 16 0
  log : List (Nat × BitVec 512) := []
  /-- Boot flash, slot A then slot B, 16 MiB each. -/
  flash : Sparse Byte := []
  /-- Slots verified since their last write (A, B). -/
  verifiedA : Bool := false
  verifiedB : Bool := false
  activeB : Bool := false
  /-- Fuses: least security version, revoked keys, boot selector (true: slot B). -/
  svn : Nat := 0
  /-- The SHA-512 digests of the four public keys (R413). -/
  keys : Vector (BitVec 512) 4 := .replicate 4 0
  revoked : BitVec 4 := 0
  selectB : Bool := false
  requests : List RtsReq := []
  /-- A pending SWITCH: the slot left and `ADDR`. -/
  switch : Option (Bool × DWord) := none
  /-- Application cores held in reset. -/
  appReset : Bool := true
  bootFailed : Bool := false
  /-- Reports of the SPDM responder: index, value, nonce, signature. -/
  spdm : List (Nat × BitVec 512 × BitVec 256 × BitVec 4096) := []
  deriving DecidableEq, Repr

/-- An access of an application core or of a PCIe requester that waits: its number, whether a PCIe requester made it, and the bytes of
its first part once that has been carried out (R306). -/
structure IoReq where
  id : Nat
  pcie : Bool
  rq : Access
  got : Option (List Byte) := none
  deriving DecidableEq, Repr

/-- The bifurcation of a PCIe root port, fixed by strap at reset (R397). -/
inductive Bifurcation where
  | x16 | x8x8 | x4x4x4x4
  deriving DecidableEq, Repr

/-- The straps of the PCIe ports (R397): the bifurcation of each, and whether port 0 is in endpoint mode. -/
structure Straps where
  split : Vector Bifurcation 4 := .replicate 4 .x16
  endpoint0 : Bool := false
  deriving DecidableEq, Repr

/-- The capability structures in a root port's configuration space, and the protocols of a DOE mailbox (R397). -/
inductive PcieCap where
  | aer | dpc | acs | l0p | ptm | doe
  deriving DecidableEq, Repr
inductive DoeProtocol where
  | discovery | cmaSpdm
  deriving DecidableEq, Repr

/-- What the outside and the firmware do to the package that no row of the opcode table names: the yardmaster's firmware sets or clears
the landing bit of a frame (R407), and bytes of the boot flash are written (R417). DESIGN CHOICE, log 15. -/
inductive OutsideAct where
  | landing (frame : Nat) (set : Bool)
  | flash (addr : Nat) (bytes : List Byte)
  deriving DecidableEq, Repr

/-- Where the machine stands within a cycle. MODEL. -/
inductive Turn where
  /-- Outside inputs of this cycle come first. -/
  | start
  /-- The core and stream that issues next. -/
  | issue (core : Nat) (st : Stream)
  /-- The events of the end of the cycle. -/
  | events
  deriving DecidableEq, Repr

/-- The whole package. -/
structure State where
  /-- MODEL: the cycle, the place within it, the acting core and stream, how its lane ended. -/
  now : Nat := 0
  turn : Turn := .start
  core : Nat := 0
  stream : Stream := .c
  lane : LaneEnd := .idle
  /-- MODEL: the lane of the line that acts. -/
  laneNo : Nat := 0
  /-- MODEL: counts the free values taken (DESIGN CHOICE, log 5). -/
  choices : Nat := 0
  /-- Outside inputs still to come: cycle and step (DESIGN CHOICE, log 15). -/
  inputs : List (Nat × Instr) := []
  /-- Acts still to come that are no steps of the table: cycle and act (DESIGN CHOICE, log 15). -/
  acts : List (Nat × OutsideAct) := []
  /-- The deltas that the yardmaster's firmware has chosen for the resumptions of a walker to come (R30), oldest first; where the list
  is empty the firmware chooses as the shipped one does. -/
  deltas : List DWord := []
  /-- Device memory by 56-bit device physical address. -/
  mem : Sparse Byte := []
  /-- Poisoned lines (address / 256). -/
  poison : List Nat := []
  /-- MODEL: the older bytes that UO pages may still give (R305). -/
  uoOld : List UoOld := []
  /-- Contexts with an uncorrectable error in their tables, which are to be destroyed (R364). -/
  tableErrors : List Nat := []
  /-- MODEL: what the ports 2 and 3 of the near stores write at the end of this cycle (R13). -/
  writes : List PortWrite := []
  /-- MODEL: the outside accesses and peers' requests that a port 3 has served and that have not yet gone on. -/
  served : List PortOwner := []
  /-- Tag store by frame (address / 32768). -/
  tags : Sparse Tag := []
  /-- Cores and the yardmasters' instruction sides, by number. -/
  cores : Sparse Core := []
  yard0 : Yard := {}
  yard1 : Yard := {}
  /-- The primary yardmaster is number 1. -/
  primary1 : Bool := false
  ctxs : Sparse Context := []
  kernels : List Kernel := []
  lqs : Sparse LaunchQueue := []
  /-- The queue served last at each level (R335). -/
  lastServed : Vector Nat 4 := .replicate 4 63
  launches : List Launch := []
  nextLaunch : Nat := 1
  rounds : List RoundReq := []
  roundsDone : List RoundDone := []
  windows : List Window := []
  shunters : Sparse Shunter := []
  /-- Engine commands that have left their queue and are not complete. -/
  engines : List EngCmd := []
  nextCmd : Nat := 1
  trapFifo : List DWord := []
  /-- Records that wait for room, each with the cycle it arose in (R388). -/
  trapWait : List (Nat × TrapRec) := []
  held : List Held := []
  lateAmos : List LateAmo := []
  shedTlbs : Sparse (List TlbEntry) := []
  tlbInvs : List TlbInv := []
  migration : Migration := {}
  pnow : BitVec 16 := 0
  mv : BitVec 12 := 550
  plim : BitVec 12 := 2400
  links : Vector VLink 16 := .replicate 16 {}
  peerReqs : List PeerReq := []
  peerWindows : Vector (DWord × DWord) 64 := .replicate 64 (0, 0)
  straps : Straps := {}
  pcie : Vector LinkState 4 := .replicate 4 .down
  cxl : Vector LinkState 8 := .replicate 8 .down
  /-- `ELOG0` and `ELOG1` by log unit. -/
  elog : Sparse (DWord × DWord) := []
  /-- Tile caches of the I/O dies for window accesses (R378). -/
  ioTiles : Vector (List (Nat × BitVec 128)) 2 := .replicate 2 []
  plovelm : Plovelm := {}
  /-- MODEL: the words of a trap record that the shipped firmware has read so far (R390). -/
  fwRecord : List DWord := []
  /-- MODEL: the records of TILE_FAULTs that the shipped firmware has still to resolve, each with its task (R383). -/
  tileFaults : List (TaskId × List DWord) := []
  /-- Firmware mailbox requests pending: record addresses. -/
  mailbox : List Nat := []
  /-- MSIs sent: address and data. Replies to outside requesters. Management reports. -/
  msis : List (Nat × Word) := []
  replies : List (Nat × Option Line) := []
  softErrors : Nat := 0
  /-- Accesses of application cores and PCIe requesters that wait, in the order in which they came. -/
  ioWait : List IoReq := []
  /-- Reservations of application cores' LR: hart, place of the first byte, bytes (R314). -/
  reservations : List (Nat × Nat × Nat) := []
  /-- Sheds lost, and those of them whose trap record still waits for roll-backs to end (R396). -/
  lost : BitVec 8 := 0
  lostReport : BitVec 8 := 0
  /-- Containment and error records of R394, R395: context and words. -/
  reports : List (Nat × List DWord) := []
  /-- What the words without a layout of the records stored so far stand for, the newest first (DESIGN CHOICE, log 12): the free values
  that STORE drew for them, and the core. -/
  snaps : List (Nat × Core) := []
  /-- MODEL: bits of `YIP`[3:1] that have been raised while instructions issue: they are set after the CSR instructions of the cycle
  (R152). -/
  yipUp : BitVec 3 := 0
  deriving DecidableEq, Repr

/-- Why the machine stops. No step of the model stops with a fault: every behaviour that the spec describes is a next
state. -/
inductive Fault where
  /-- Never raised (safe): kept so that the type has a name for a stuck machine. -/
  | stuck
  deriving DecidableEq, Repr

/-- Why an instruction has no meaning. -/
inductive Refusal where
  /-- Raised by an arm of the dispatcher for an instruction without a meaning (safe). -/
  | notModelled (mnemonic : String)
  deriving DecidableEq, Repr

/-- The machine right after reset: the Plovelm holds every core in reset (R411), memory lists nothing, every register
stands at the value the spec or log 1 (DESIGN CHOICE) gives. -/
def State.reset : State := {}

end Sys2Proof.Machine
end

