-- ==== Sys2Proof/Machine/Numbers.lean ====
section
/-! DEFINITION. The number formats and their exact arithmetic (05): values as dyadic numbers, one rounding at the end
(R85-R104), and the functions of R213. -/

namespace Sys2Proof.Machine

/-- The shape of a floating-point format (R85): exponent and fraction bits, bias, and which specials it has. -/
structure FpFmt where
  e : Nat
  m : Nat
  bias : Nat
  /-- 0: infinities and NaNs as FP64; 1: E4M3, NaN at all ones only; 2: no specials. -/
  special : Nat
  deriving DecidableEq, Repr

/-- The floating-point format of a format code of R3, by its value bits (FP19 by its 19 bits). -/
def fpFmt (code : Nat) : FpFmt :=
  match code with
  | 0 => ⟨11, 52, 1023, 0⟩
  | 1 => ⟨8, 23, 127, 0⟩
  | 2 => ⟨8, 10, 127, 0⟩
  | 3 => ⟨8, 7, 127, 0⟩
  | 4 => ⟨5, 10, 15, 0⟩
  | 5 => ⟨5, 2, 15, 0⟩
  | 6 => ⟨4, 3, 7, 1⟩
  | 7 => ⟨3, 2, 3, 2⟩
  | 8 => ⟨2, 3, 1, 2⟩
  | _ => ⟨2, 1, 1, 2⟩

/-- The element width in bits of a format code (R3, R85, R89); FP19 by its 19 bits. -/
def fmtBits (code : Nat) : Nat :=
  match code with
  | 0 => 64
  | 1 => 32
  | 2 => 19
  | 3 | 4 => 16
  | 5 | 6 | 10 | 11 => 8
  | 7 | 8 => 6
  | _ => 4

/-- The container width in bits (R88): 32 for FP19. -/
def fmtWidth (code : Nat) : Nat := if code = 2 then 32 else fmtBits code

/-- Codes 10-13 are INT8, UINT8, INT4, UINT4 (R3, R89). -/
def fmtIsInt (code : Nat) : Bool := 10 ≤ code && code ≤ 13

/-- Signed integer formats. -/
def fmtSigned (code : Nat) : Bool := code = 10 || code = 12

/-- A number from an integer. -/
def Num.ofInt (x : Int) : Num := if x = 0 then .zero false else .fin x 0

/-- The number m × 2^e, zero with the given sign. -/
def Num.mk (neg : Bool) (m e : Int) : Num := if m = 0 then .zero neg else .fin m e

/-- The value of an encoding (R86). -/
def fpDecode (f : FpFmt) (x : Nat) : Num :=
  let frac := bits x 0 f.m
  let ex := bits x f.m f.e
  let neg := bit x (f.m + f.e)
  let sg : Int := if neg then -1 else 1
  if ex = 2 ^ f.e - 1 && f.special = 0 then (if frac = 0 then .inf neg else .nan)
  else if ex = 2 ^ f.e - 1 && f.special = 1 && frac = 2 ^ f.m - 1 then .nan
  else if ex = 0 then .mk neg (sg * frac) (1 - f.bias - f.m)
  else .fin (sg * (2 ^ f.m + frac)) ((ex : Int) - f.bias - f.m)

/-- The value of an element in its container (R86, R88, R89). -/
def fmtDecode (code x : Nat) : Num :=
  if fmtIsInt code then
    .ofInt (if fmtSigned code then toSigned (fmtBits code) x else ((x % 2 ^ fmtBits code : Nat) : Int))
  else if code = 2 then fpDecode (fpFmt 2) (x >>> 13) else fpDecode (fpFmt code) x

/-- |m| × 2^e at the scale 2^q, rounded to an integer by a rounding code of R101. -/
def roundMag (rnd : Nat) (neg : Bool) (m : Nat) (e q : Int) : Nat :=
  if q ≤ e then m * 2 ^ (e - q).toNat
  else
    let k := (q - e).toNat
    let n := m / 2 ^ k
    let r := m % 2 ^ k
    let half := 2 ^ (k - 1)
    let up := match rnd with
      | 0 => half < r || (r = half && n % 2 = 1)
      | 1 => false
      | 2 => r ≠ 0 && !neg
      | _ => r ≠ 0 && neg
    if up then n + 1 else n

/-- The magnitude bits of the largest finite value (R87). -/
def fpMax (f : FpFmt) : Nat :=
  match f.special with
  | 0 => (2 ^ f.e - 1) * 2 ^ f.m - 1
  | 1 => 2 ^ (f.e + f.m) - 2
  | _ => 2 ^ (f.e + f.m) - 1

/-- The canonical NaN of a format (R86); +0 where it has none (R103). -/
def fpNan (f : FpFmt) : Nat :=
  match f.special with
  | 0 => (2 ^ f.e - 1) * 2 ^ f.m + 2 ^ (f.m - 1)
  | 1 => 2 ^ (f.e + f.m) - 1
  | _ => 0

/-- The bits of an out-of-range or infinite result of sign `neg` (R102, R103): `toInf` where IEEE 754 gives infinity. E5M2
and E4M3 saturate at `ovf` = 0. -/
def fpOver (f : FpFmt) (ovf neg toInf : Bool) : Nat :=
  let s := if neg then 2 ^ (f.e + f.m) else 0
  let ieee := f.special = 0 && f.m ≠ 2
  match f.special with
  | 0 => s + (if toInf && (ieee || ovf) then (2 ^ f.e - 1) * 2 ^ f.m else fpMax f)
  | 1 => s + (if toInf && ovf then 2 ^ (f.e + f.m) - 1 else fpMax f)
  | _ => s + fpMax f

/-- Rounds a value once into a floating-point format (R101-R103). -/
def fpRound (f : FpFmt) (rnd : Nat) (ovf : Bool) (x : Num) : Nat :=
  match x with
  | .nan => fpNan f
  | .inf neg =>
    -- E5M2 has infinities, and an infinite source converts to them whatever `ovf` says (R103).
    if f.special = 0 then (if neg then 2 ^ (f.e + f.m) else 0) + (2 ^ f.e - 1) * 2 ^ f.m
    else fpOver f ovf neg true
  | .zero neg => if neg then 2 ^ (f.e + f.m) else 0
  | .fin m e =>
    let neg := m < 0
    let a := m.natAbs
    let top : Int := ilog2 a + e
    let q : Int := max top (1 - f.bias) - f.m
    let n := roundMag rnd neg a e q
    let mag : Int := (q + f.m + f.bias - 1) * 2 ^ f.m + n
    if mag.toNat > fpMax f then
      fpOver f ovf neg (rnd = 0 || (rnd = 2 && !neg) || (rnd = 3 && neg))
    else (if neg then 2 ^ (f.e + f.m) else 0) + mag.toNat

/-- Rounds a value to an integer by a rounding code; zero for zeros. -/
def roundInt (rnd : Nat) (m e : Int) : Int :=
  let n : Int := roundMag rnd (m < 0) m.natAbs e 0
  if m < 0 then -n else n

/-- Converts a value to an integer of `w` bits (R104). -/
def intConvert (w : Nat) (signed : Bool) (rnd : Nat) (wrap : Bool) (x : Num) : Nat :=
  let lo : Int := if signed then -(2 ^ (w - 1)) else 0
  let hi : Int := if signed then 2 ^ (w - 1) - 1 else 2 ^ w - 1
  match x with
  | .nan => 0
  | .zero _ => 0
  | .inf neg => ofSigned w (if neg then lo else hi)
  | .fin m e =>
    let i := roundInt rnd m e
    ofSigned w (if wrap then i else max lo (min hi i))

/-- Converts a value to a format of R3 in its container (R88, R101-R104). -/
def fmtConvert (code rnd : Nat) (ovf wrap : Bool) (x : Num) : Nat :=
  if fmtIsInt code then intConvert (fmtBits code) (fmtSigned code) rnd wrap x
  else if code = 2 then fpRound (fpFmt 2) rnd ovf x * 2 ^ 13
  else fpRound (fpFmt code) rnd ovf x

/-- The sign of a value. -/
def Num.neg? : Num → Bool
  | .nan => false
  | .inf n => n
  | .zero n => n
  | .fin m _ => m < 0

/-- Negation. -/
def Num.negate : Num → Num
  | .nan => .nan
  | .inf n => .inf (!n)
  | .zero n => .zero (!n)
  | .fin m e => .fin (-m) e

/-- The exact product, with IEEE 754's special cases (zero times infinity is NaN). -/
def Num.mul : Num → Num → Num
  | .nan, _ => .nan
  | _, .nan => .nan
  | .inf _, .zero _ => .nan
  | .zero _, .inf _ => .nan
  | .inf a, b => .inf (a != b.neg?)
  | a, .inf b => .inf (a.neg? != b)
  | .zero a, b => .zero (a != b.neg?)
  | a, .zero b => .zero (a.neg? != b)
  | .fin m e, .fin n f => .fin (m * n) (e + f)

/-- The exact sum; an exact zero takes the sign of IEEE 754 under RNE. -/
def Num.add : Num → Num → Num
  | .nan, _ => .nan
  | _, .nan => .nan
  | .inf a, .inf b => if a = b then .inf a else .nan
  | .inf a, _ => .inf a
  | _, .inf b => .inf b
  | .zero a, .zero b => .zero (a && b)
  | .zero _, y => y
  | x, .zero _ => x
  | .fin m e, .fin n f =>
    let g := min e f
    .mk false (m * 2 ^ (e - g).toNat + n * 2 ^ (f - g).toNat) g

/-- An exact quotient with 200 bits and a sticky bit below them, so that one rounding of it is that of the quotient. -/
def ratio (n : Int) (d : Nat) : Num :=
  if n = 0 || d = 0 then .zero false
  else
    let k := ilog2 d + 200 - min 199 (ilog2 n.natAbs)
    let q := n.natAbs * 2 ^ k / d
    let r := n.natAbs * 2 ^ k % d
    let m : Int := 2 * q + (if r = 0 then 0 else 1)
    .fin (if n < 0 then -m else m) (-(k : Int) - 1)

/-- The quotient of two finite values, the divisor nonzero (sticky as `ratio`). -/
def Num.div : Num → Num → Num
  | .fin m e, .fin n f =>
    match ratio (if n < 0 then -m else m) n.natAbs with
    | .fin q g => .fin q (g + e - f)
    | z => z
  | x, _ => x

/-- Comparison of values that are not NaN; the zeros are equal. -/
def Num.lt : Num → Num → Bool
  | .nan, _ => false
  | _, .nan => false
  | .inf a, .inf b => a && !b
  | .inf a, _ => a
  | _, .inf b => !b
  | .zero _, .zero _ => false
  | .zero _, .fin n _ => 0 < n
  | .fin m _, .zero _ => m < 0
  | .fin m e, .fin n f => let g := min e f; m * 2 ^ (e - g).toNat < n * 2 ^ (f - g).toNat

/-- The value is NaN. -/
def Num.isNan : Num → Bool
  | .nan => true
  | _ => false

/-- The value is infinite. -/
def Num.isInf : Num → Bool
  | .inf _ => true
  | _ => false

/-- The value is a zero. -/
def Num.isZero : Num → Bool
  | .zero _ => true
  | _ => false

/-- The magnitude. -/
def Num.abs : Num → Num
  | .nan => .nan
  | .inf _ => .inf false
  | .zero _ => .zero false
  | .fin m e => .fin m.natAbs e

/-- The larger by R212: −0 is below +0; NaN if either is NaN. -/
def Num.max (a b : Num) : Num :=
  if a.isNan || b.isNan then .nan
  else if a.isZero && b.isZero then .zero (a.neg? && b.neg?)
  else if a.lt b then b else a

/-- The smaller by R212. -/
def Num.min (a b : Num) : Num :=
  if a.isNan || b.isNan then .nan
  else if a.isZero && b.isZero then .zero (a.neg? || b.neg?)
  else if a.lt b then a else b

/-- A group sum by R97, from the factors' products: NaN and infinities first, an exact zero is +0. -/
def groupSum (xs : List Num) : Num :=
  match xs.foldl Num.add (.zero false) with
  | .zero _ => .zero false
  | x => x

/-- 1 / a (R213). -/
def Num.recip : Num → Num
  | .nan => .nan
  | .inf n => .zero n
  | .zero n => .inf n
  | .fin m e => Num.div (.fin (if m < 0 then -1 else 1) 0) (.fin m.natAbs e)

/-- 1 / √a (R213), with a sticky bit as in `ratio`. -/
def Num.rsqrt : Num → Num
  | .nan => .nan
  | .inf n => if n then .nan else .zero false
  | .zero n => .inf n
  | .fin m e =>
    if m < 0 then .nan
    else
      let odd := e % 2 ≠ 0
      let a := if odd then 2 * m.natAbs else m.natAbs
      let e' := if odd then e - 1 else e
      let k := 96 + ilog2 a
      let r := isqrt (2 ^ (2 * k) / a)
      let sticky := if r * r * a = 2 ^ (2 * k) then 0 else 1
      .fin (2 * r + sticky) (-(k : Int) - 1 - e' / 2)

/-- 2^(f / 2^96) × 2^96 for f < 2^96: the product of the roots 2^(2^-i) of the bits of f. -/
def exp2Frac (f : Nat) : Nat :=
  ((List.range 96).foldl
    (fun (st : Nat × Nat) i =>
      let c := isqrt (st.2 * 2 ^ 96)
      (if bit f (95 - i) then st.1 * c / 2 ^ 96 else st.1, c))
    (2 ^ 96, 2 ^ 97)).1

/-- 2^a (R213): exact for integers; otherwise 96 bits and a sticky bit (DEDUCED, log 9). -/
def Num.exp2 : Num → Num
  | .nan => .nan
  | .inf n => if n then .zero false else .inf false
  | .zero _ => .fin 1 0
  | .fin m e =>
    if 0 ≤ e then (if (ilog2 m.natAbs + e) > 20 then (if m < 0 then .fin 1 (-2 ^ 20) else .fin 1 (2 ^ 20))
      else .fin 1 (m * 2 ^ e.toNat))
    else if (ilog2 m.natAbs : Int) + e > 20 then (if m < 0 then .fin 1 (-2 ^ 20) else .fin 1 (2 ^ 20))
    else
      let k := (-e).toNat
      let i := m / (2 ^ k : Int)
      let r := (m % (2 ^ k : Int)).toNat
      if r = 0 then .fin 1 i
      else .fin (2 * exp2Frac (r * 2 ^ 96 / 2 ^ k) + 1) (i - 97)

/-- The fraction bits of log2(x / 2^256) for 2^256 ≤ x < 2^257, by repeated squaring. -/
def log2Frac (x : Nat) : Nat :=
  ((List.range 96).foldl
    (fun (st : Nat × Nat) _ =>
      let y := st.2 * st.2 / 2 ^ 256
      if 2 ^ 257 ≤ y then (2 * st.1 + 1, y / 2) else (2 * st.1, y))
    (0, x)).1

/-- log2 a (R213): exact for powers of two; otherwise 96 bits and a sticky bit (DEDUCED, log 9). -/
def Num.log2 : Num → Num
  | .nan => .nan
  | .inf n => if n then .nan else .inf false
  | .zero _ => .inf true
  | .fin m e =>
    if m < 0 then .nan
    else
      let a := m.natAbs
      let t := ilog2 a
      let i : Int := t + e
      if a = 2 ^ t then .ofInt i
      else
        let f := log2Frac (a * 2 ^ 256 / 2 ^ t)
        .fin (2 * (i * 2 ^ 96 + f) + 1) (-97)

end Sys2Proof.Machine
end

