-- ==== Sys2Proof/WellFormed.lean ====
section
/-! DEFINITION. Which terms of `Instr` are well formed in a stream: the stream's map holds the instruction (R77-R81), no
operand code or value that R82 makes ILLEGAL_INSTRUCTION stands in it, and every operand field that the other
operands make reserved is zero (RESERVED_FIELD). -/

namespace Sys2Proof

/-- A register code that may be read in a stream: R74, with the K scalar column for K. -/
def srcOk (st : Stream) (r : BitVec 5) : Bool :=
  match st with
  | .c => true
  | .a | .d => r.toNat ≤ 22 || (24 ≤ r.toNat && r.toNat ≤ 29)
  | .k => r.toNat < 8 || (16 ≤ r.toNat && r.toNat ≤ 22) || (24 ≤ r.toNat && r.toNat ≤ 29)

/-- A register code that may be written in a stream: R74 (i0-i5, WID and l0-l5 are read-only). -/
def dstOk (st : Stream) (r : BitVec 5) : Bool :=
  match st with
  | .c => true
  | .a | .d => r.toNat < 16
  | .k => r.toNat < 8

/-- A queue code of R75 that is not reserved. -/
def queueOk (q : Nat) : Bool := q ≤ 12

/-- A token code of R75 that is not reserved: tq0-tq5 or none. -/
def tokOk (t : BitVec 3) : Bool := t != 6

/-- The lines of a side area: 8 of scales, 4 of zero points, 16 of metadata (R167). -/
def sideLines (kind : BitVec 2) : Nat :=
  match kind.toNat with
  | 0 => 8
  | 1 => 4
  | 2 => 16
  | _ => 0

/-- The lane width in bits of a lane type (R203). -/
def tyWidth (ty : BitVec 3) : Nat :=
  match ty.toNat with
  | 0 | 3 => 32
  | 1 | 2 | 4 => 16
  | _ => 8

/-- The `SEG` limit of VCVT: the ratio of the wider to the narrower lane width (R214). -/
def segLimit (sty dty : BitVec 3) : Nat :=
  if tyWidth dty ≤ tyWidth sty then tyWidth sty / tyWidth dty else tyWidth dty / tyWidth sty

/-- The group size of an asymmetric drain (R238). -/
def groupRows (gs : BitVec 1) : Nat := if gs = 1 then 64 else 32

/-- An integer drain target, codes 10-13 and 16-18 (R234). -/
def intTarget (dt : BitVec 5) : Bool :=
  (10 ≤ dt.toNat && dt.toNat ≤ 13) || (16 ≤ dt.toNat && dt.toNat ≤ 18)

/-- The streams whose opcode map holds an instruction (R76-R81); none for a step of the device. The group forms of BAR
are legal only in C (R141). -/
def Instr.homes : Instr → List Stream
  | .nop | .loop .. | .lstr .. | .jmp .. | .bqz .. | .bqnz .. | .join .. | .tksig .. | .tkwait .. | .mark ..
  | .fset .. | .fclr .. | .fwait .. | .cntset .. | .cntwait .. | .barInit .. | .barArv .. | .barWait ..
  | .rdvset .. | .rdvwait .. | .trap .. => [.c, .a, .k, .d]
  | .add .. | .sub .. | .mul .. | .mulh .. | .mulhu .. | .div .. | .divu .. | .rem .. | .remu .. | .and_ ..
  | .or_ .. | .xor_ .. | .andn .. | .shl .. | .shr .. | .sar .. | .rol .. | .min_ .. | .max_ .. | .minu ..
  | .maxu .. | .slt .. | .sltu .. | .seq .. | .clz .. | .ctz .. | .popc .. | .bext .. | .addi .. | .andi ..
  | .ori .. | .xori .. | .shli .. | .shri .. | .sari .. | .slti .. | .sltiu .. | .li .. | .li64 .. | .ldB ..
  | .ldBu .. | .ldH .. | .ldHu .. | .ldW .. | .ldWu .. | .ldD .. | .stB .. | .stH .. | .stW .. | .stD ..
  | .amoAdd .. | .amoAnd .. | .amoOr .. | .amoXor .. | .amoMin .. | .amoMax .. | .amoSwp .. | .amoCas ..
  | .amoAddd .. | .amoNull .. | .fence .. | .fenceI .. | .beq .. | .bne .. | .blt .. | .bge .. | .bltu ..
  | .bgeu .. | .jmpr .. | .fork .. | .pushfmt .. | .qpush .. | .qpop .. | .qstat .. | .cont .. | .launch ..
  | .csrr .. | .csrw .. | .csrs .. | .csrc .. | .rtt .. | .wfi .. | .halt .. | .freeze .. | .thaw ..
  | .snapr .. | .snapw .. | .barArvGroup .. | .barWaitGroup .. | .tend .. | .hint .. => [.c]
  | .aadd .. | .aaddi .. | .amov .. | .aset .. | .ali .. | .tld .. | .tldT .. | .tldb .. | .ild .. | .bfxcfg ..
  | .mldw .. | .mldwT .. | .mlds .. | .gather .. | .xchgP .. | .xchgD .. | .xfer .. | .stash .. | .restore .. => [.a]
  | .mhint .. | .mflip .. | .mstream .. | .mstreamIdx .. | .mzero .. | .bind .. | .slotcfg ..
  | .slotcfgFault .. | .slotfree .. | .slotfreeAll .. | .slotmapRead .. | .slotmapMap .. | .mspill ..
  | .vpop .. | .vpopK .. | .vpush .. | .vpushOq0 .. | .vmov .. | .vmovK .. | .vbcast .. | .vbcastLane ..
  | .vli .. | .vliK .. | .vadd .. | .vsub .. | .vmul .. | .vfma .. | .vfms .. | .vnfma .. | .vmin .. | .vmax ..
  | .vabs .. | .vneg .. | .vrcp .. | .vrsq .. | .vexp2 .. | .vlog2 .. | .vcvt .. | .vq .. | .vcmp .. | .vsel ..
  | .vand .. | .vor .. | .vxor .. | .vshl .. | .vshr .. | .vsar .. | .viadd .. | .visub .. | .vimul ..
  | .vimin .. | .vimax .. | .vred .. | .vscan .. | .vperm .. | .vthr .. | .vtopk .. | .pand .. | .por ..
  | .pxor .. | .pnot .. | .pset .. => [.k]
  | .drain .. | .drainQ .. | .tst .. | .scatter .. | .rwrAddF32 .. | .rwrAddBf16 .. | .rwrMaxF32 ..
  | .rwrAddI32 .. => [.d]
  | .instructionLineFetch .. | .linePassOver .. | .heldLaneResume .. | .loopLineEnd .. | .joinComplete ..
  | .scalarResultReady .. | .vectorResultReady .. | .loadReply .. | .amoResultReturn .. | .roundClose ..
  | .tldLineArrival .. | .planeLineArrival .. | .bfxcfgRecordLoaded .. | .tileLookupComplete ..
  | .pageWalkComplete .. | .deferredReleaseEffect .. | .groupBarrierUpdate .. | .groupBarrierPollReply ..
  | .markerRetire .. | .rendezvousFire .. | .engineCommandDispatch .. | .engineCommandCompletion ..
  | .gatherExecute .. | .scatterExecute .. | .xferExecute .. | .stashEncode .. | .restoreDecode ..
  | .reduceRequestApply .. | .xchgPStart .. | .xchgDStart .. | .exchangeLineSwap .. | .exchangeCommit ..
  | .exchangeRollbackStart .. | .rollbackLineSwap .. | .rollbackComplete .. | .rollbackLinkLost ..
  | .idleScrubWrite .. | .matrixRowEntry .. | .rampUpEnd .. | .slotRowAdd .. | .mflipEffect ..
  | .mzeroEffect .. | .slotSpill .. | .bindStart .. | .bindRowWrite .. | .arrayCold .. | .hintTargetReached ..
  | .claimComplete .. | .drainRowRead .. | .drainDelivery .. | .writeBufferLineWrite .. | .remoteLineWrite ..
  | .freezeWatchdogExpiry .. | .waitWatchdogExpiry .. | .scheduleSlip .. | .taskStart .. | .taskCommit ..
  | .launchTake .. | .launchAgingTick .. | .launchQueuePush .. | .launchQueueOpen .. | .launchQueueQuiesce ..
  | .launchQueueDisable .. | .trapRecordPlace | .trapqPop .. | .yardmasterTrapEntry .. | .heartbeat ..
  | .heartbeatLimitExpiry .. | .snapshotStore .. | .snapshotLoad .. | .snapshotEvict .. | .snapshotClear ..
  | .serviceXchgP .. | .serviceXchgD .. | .grant .. | .tlbinvAll .. | .tlbinvAsid .. | .tlbinvPage ..
  | .tlbInvalidationDone | .granuleMigrationStart .. | .migrationCopyComplete | .migrationFlip
  | .migrationAbandon | .rtsVerify | .rtsExtend | .rtsSwitch | .rtsRequestComplete | .contextCreate
  | .contextDestroy | .contextDestructionComplete .. | .groupBind | .groupRebind | .groupResume | .groupRelease
  | .launchQueueAssign | .trapReply | .vylumEnable .. | .vylumRetrain .. | .vylumDisable .. | .linkTrained ..
  | .linkTrainingTimeout .. | .linkRetrainTimeout .. | .errorBurst .. | .laneLockLoss .. | .flitReceive ..
  | .nakReceive .. | .peerRequestReceive .. | .portLinkStateChange .. | .pcieMemoryRequest .. | .shedLost ..
  | .packageReset | .spdmRequest .. | .registerWrite .. | .applicationCoreAccess .. | .storeResolved ..
  | .softError .. | .walkerResume .. | .serialisedReRun .. | .phaseRollBack .. | .launchAbort .. | .dvfs .. => []

/-- No operand code or value of the instruction is one that R82 makes ILLEGAL_INSTRUCTION. -/
def Instr.codesOk (st : Stream) : Instr → Bool
  | .amoAdd _ _ _ _ _ _ size => size == 1 || size == 2
  | .amoAnd _ _ _ _ _ _ size => size == 1 || size == 2
  | .amoOr _ _ _ _ _ _ size => size == 1 || size == 2
  | .amoXor _ _ _ _ _ _ size => size == 1 || size == 2
  | .amoMin _ _ _ _ _ _ size => size == 1 || size == 2
  | .amoMax _ _ _ _ _ _ size => size == 1 || size == 2
  | .amoSwp _ _ _ _ _ _ size => size == 1 || size == 2
  | .amoCas _ _ _ _ _ _ size => size == 1 || size == 2
  | .amoAddd _ _ _ _ _ _ size => size == 0 || size == 1
  | .amoNull _ _ _ _ _ size => size == 0 || size == 1
  | .fence _ kind uo _ scope => kind != 3 && (uo == 0 || scope == 3)
  | .fork _ mask _ _ _ => mask != 0
  | .qpush _ q _ => queueOk q.toNat
  | .qpop _ q _ => queueOk q.toNat
  | .qstat _ q _ => queueOk q.toNat
  | .cont _ _ b => b.toNat ≤ 29
  | .loop _ level cr creg _ endl => level.toNat ≤ 5 && endl != 0 && (cr == 0 || srcOk st creg)
  | .lstr _ d _ level _ _ => level.toNat ≤ 5 && dstOk st d
  | .bqz _ q _ => queueOk q.toNat || (16 ≤ q.toNat && q.toNat ≤ 21)
  | .bqnz _ q _ => queueOk q.toNat || (16 ≤ q.toNat && q.toNat ≤ 21)
  | .tksig _ t => t.toNat ≤ 5
  | .tkwait _ t => t.toNat ≤ 5
  | .barInit _ _ cnt _ => cnt != 0
  | .hint _ _ k => k.toNat ≤ 2
  | .aadd _ d a b em => dstOk st d && srcOk st a && srcOk st b && em != 0
  | .aaddi _ d a _ _ => dstOk st d && srcOk st a
  | .amov _ d a q _ => dstOk st d && (q == 1 || srcOk st a)
  | .aset _ d a _ _ q _ => dstOk st d && (q == 1 || srcOk st a)
  | .ali _ d _ _ _ => dstOk st d
  | .tld _ q _ _ n => queueOk q.toNat && (q != 11 || n == 0)
  | .tldT _ q _ _ => queueOk q.toNat
  | .tldb _ q _ _ _ => queueOk q.toNat
  | .bfxcfg _ _ a _ => srcOk st a
  | .mlds _ _ _ kind m => kind != 3 && m.toNat < sideLines kind
  | .gather _ _ rb _ _ _ _ waitt sigt _ inc => rb.toNat ≤ 4 && tokOk waitt && tokOk sigt && inc != 0
  | .xchgP _ _ _ _ _ waitt sigt _ inc => tokOk waitt && tokOk sigt && inc != 0
  | .xchgD _ _ _ _ _ waitt sigt _ inc => tokOk waitt && tokOk sigt && inc != 0
  | .xfer _ _ _ _ _ _ waitt sigt _ inc => tokOk waitt && tokOk sigt && inc != 0
  | .stash _ _ _ _ _ _ waitt sigt _ inc => tokOk waitt && tokOk sigt && inc != 0
  | .restore _ _ _ _ _ _ waitt sigt _ inc => tokOk waitt && tokOk sigt && inc != 0
  | .mstream _ q row0 sq nr => queueOk q.toNat && sq.toNat ≤ 3 && row0.toNat + nr.toNat + 1 ≤ 64
  | .mstreamIdx _ q sq _ _ => queueOk q.toNat && sq.toNat ≤ 3
  | .bind _ q _ => queueOk q.toNat
  | .slotcfg _ nim first => first.toNat + nim.toNat ≤ 127
  | .slotmapRead _ d _ => dstOk .k d
  | .vpop _ _ q => queueOk q.toNat
  | .vpopK _ d q => dstOk .k d && queueOk q.toNat
  | .vpush _ q _ => queueOk q.toNat
  | .vpushOq0 _ q a => queueOk q.toNat && srcOk .k a
  | .vmovK _ d _ b _ => dstOk .k d && srcOk .k b
  | .vbcast _ _ a _ _ _ => srcOk .k a
  | .vbcastLane _ _ _ b _ _ _ => srcOk .k b
  | .vliK _ d _ => dstOk .k d
  | .vadd _ _ _ _ _ _ ty => ty.toNat ≤ 2
  | .vsub _ _ _ _ _ _ ty => ty.toNat ≤ 2
  | .vmul _ _ _ _ _ _ ty => ty.toNat ≤ 2
  | .vfma _ _ _ _ _ _ ty => ty.toNat ≤ 2
  | .vfms _ _ _ _ _ _ ty => ty.toNat ≤ 2
  | .vnfma _ _ _ _ _ _ ty => ty.toNat ≤ 2
  | .vmin _ _ _ _ _ _ ty => ty.toNat ≤ 2
  | .vmax _ _ _ _ _ _ ty => ty.toNat ≤ 2
  | .vabs _ _ _ _ _ ty => ty.toNat ≤ 2
  | .vneg _ _ _ _ _ ty => ty.toNat ≤ 2
  | .vrcp _ _ _ _ _ ty => ty.toNat ≤ 2
  | .vrsq _ _ _ _ _ ty => ty.toNat ≤ 2
  | .vexp2 _ _ _ _ _ ty => ty.toNat ≤ 2
  | .vlog2 _ _ _ _ _ ty => ty.toNat ≤ 2
  | .vcvt _ _ _ dty _ seg _ sty => seg.toNat < segLimit sty dty
  | .vq _ _ _ b _ _ mx fmt => 3 ≤ fmt.toNat && (if mx == 1 then dstOk .k b else srcOk .k b)
  | .vcmp _ d _ _ _ ty => d.toNat < 8 && ty.toNat ≤ 5
  | .vshl _ _ _ _ _ _ ty => 3 ≤ ty.toNat && ty.toNat ≤ 5
  | .vshr _ _ _ _ _ _ ty => 3 ≤ ty.toNat && ty.toNat ≤ 5
  | .vsar _ _ _ _ _ _ ty => 3 ≤ ty.toNat && ty.toNat ≤ 5
  | .viadd _ _ _ _ _ _ _ ty => 3 ≤ ty.toNat && ty.toNat ≤ 5
  | .visub _ _ _ _ _ _ _ ty => 3 ≤ ty.toNat && ty.toNat ≤ 5
  | .vimul _ _ _ _ _ _ _ ty => 3 ≤ ty.toNat && ty.toNat ≤ 5
  | .vimin _ _ _ _ _ _ _ ty => 3 ≤ ty.toNat && ty.toNat ≤ 5
  | .vimax _ _ _ _ _ _ _ ty => 3 ≤ ty.toNat && ty.toNat ≤ 5
  | .vred _ d _ op _ ty => dstOk .k d && op != 3 && ty.toNat ≤ 5
  | .vscan _ _ _ op _ ty => op != 3 && ty.toNat ≤ 5
  | .vthr _ _ _ _ _ _ ty => ty.toNat ≤ 5
  | .vtopk _ _ _ _ _ _ ty => ty == 0 || ty == 3
  | .pand _ d a b => d.toNat < 8 && a.toNat < 8 && b.toNat < 8
  | .por _ d a b => d.toNat < 8 && a.toNat < 8 && b.toNat < 8
  | .pxor _ d a b => d.toNat < 8 && a.toNat < 8 && b.toNat < 8
  | .pnot _ d a => d.toNat < 8 && a.toNat < 8
  | .pset _ d a kind => d.toNat < 8 && kind != 3 && (kind != 2 || srcOk .k a)
  | .drain _ _ _ dt _ _ _ row0 nrow _ _ _ => dt.toNat ≤ 18 && row0.toNat + nrow.toNat + 1 ≤ 64
  | .drainQ _ _ _ _ kind gs _ _ row0 nrow _ _ _ _ => row0.toNat + nrow.toNat + 1 ≤ 64 &&
      (kind == 0 || (row0.toNat % groupRows gs == 0 && (nrow.toNat + 1) % groupRows gs == 0))
  | .tst _ q _ _ _ => queueOk q.toNat
  | .scatter _ q _ rb _ _ _ _ waitt sigt _ inc _ _ => queueOk q.toNat && rb.toNat ≤ 4 && tokOk waitt && tokOk sigt && inc != 0
  | .rwrAddF32 _ q m _ _ waitt sigt _ inc _ => queueOk q.toNat && m.toNat < 64 && tokOk waitt && tokOk sigt && inc != 0
  | .rwrMaxF32 _ q m _ _ waitt sigt _ inc _ => queueOk q.toNat && m.toNat < 64 && tokOk waitt && tokOk sigt && inc != 0
  | .rwrAddI32 _ q m _ _ waitt sigt _ inc _ => queueOk q.toNat && m.toNat < 64 && tokOk waitt && tokOk sigt && inc != 0
  | .rwrAddBf16 _ q _ _ _ waitt sigt _ inc _ => queueOk q.toNat && tokOk waitt && tokOk sigt && inc != 0
  | _ => true

/-- Every operand field that the instruction's other operands make reserved is zero (R72, R73, R135, R161, R225, R234,
R237, R238). -/
def Instr.fieldsOk (st : Stream) : Instr → Bool
  | .fork _ mask offa offk offd => (mask.getLsbD 0 || offa == 0) && (mask.getLsbD 1 || offk == 0) && (mask.getLsbD 2 || offd == 0)
  | .loop _ _ cr creg count _ => if cr == 1 then count == 0 else creg == 0
  | .lstr _ _ _ _ pair _ => st == .a || st == .d || pair == 0
  | .amov _ _ a q _ => q == 0 || a == 0
  | .aset _ _ a _ _ q _ => q == 0 || a == 0
  | .pset _ _ a kind => kind == 2 || a == 0
  | .drain _ _ _ dt _ _ _ _ _ _ ovf wrap => (ovf == 0 || dt.toNat ≤ 9) && (wrap == 0 || intTarget dt)
  | .drainQ _ _ _ _ kind gs _ _ _ _ _ ovf _ _ => if kind == 0 then gs == 0 else ovf == 0
  | _ => true

/-- A well-formed instruction of a stream. -/
def Instr.wf (st : Stream) (i : Instr) : Bool := i.homes.contains st && i.codesOk st && i.fieldsOk st

end Sys2Proof
end

