-- ==== Sys2Proof/Machine/Ops.lean ====
section
/-! DEFINITION. The shared operations: cores and streams, the placement of memory, bytes and lines with their scrub and
poison marks, error logs, the taking of an exception and the return from one, and the frame that every
instruction's meaning stands in. -/

namespace Sys2Proof.Machine

/-! ### Cores and streams -/

/-- The core with a number; a core that nothing has written is the reset core. -/
def State.cr (s : State) (p : Nat) : Core := Sparse.get {} s.cores p

/-- Replaces a core. -/
def State.setCr (s : State) (p : Nat) (c : Core) : State := { s with cores := Sparse.put s.cores p c }

/-- The acting core. -/
def State.me (s : State) : Core := s.cr s.core

/-- Replaces the acting core. -/
def State.setMe (s : State) (c : Core) : State := s.setCr s.core c

/-- Numbers 512 and 513 are the yardmasters. -/
def isYard (p : Nat) : Bool := 512 ≤ p

/-- A stream of a core. -/
def Core.st (c : Core) : Stream → StreamState
  | .c => c.c
  | .a => c.a
  | .k => c.k
  | .d => c.d

/-- Replaces a stream of a core. -/
def Core.setSt (c : Core) (st : Stream) (x : StreamState) : Core :=
  match st with
  | .c => { c with c := x }
  | .a => { c with a := x }
  | .k => { c with k := x }
  | .d => { c with d := x }

/-- The place of a stream in the order C, A, K, D (R136, R388). -/
def streamNo : Stream → Nat
  | .c => 0
  | .a => 1
  | .k => 2
  | .d => 3

/-- The stream whose position and loop unit govern a stream: C in joined mode (R31, R134). -/
def Core.lead (c : Core) (st : Stream) : Stream := if c.forked then st else .c

/-- A yardmaster's registers. -/
def State.yard (s : State) (p : Nat) : Yard := if p = 513 then s.yard1 else s.yard0

/-- Replaces a yardmaster's registers. -/
def State.setYard (s : State) (p : Nat) (y : Yard) : State :=
  if p = 513 then { s with yard1 := y } else { s with yard0 := y }

/-- The core number of the primary yardmaster (R17). -/
def State.primary (s : State) : Nat := if s.primary1 then 513 else 512

/-- Sets `YIP` bits [3:1] of the primary yardmaster (R109). -/
def State.setYip (s : State) (v : BitVec 3) : State :=
  let y := s.yard s.primary
  s.setYard s.primary { y with yip := y.yip ||| v }

/-- Sets a `YIP` bit 1-3 of the primary yardmaster: at the end of the cycle at the latest, and after the CSR instructions of the
cycle (R152). -/
def State.raiseYip (s : State) (i : Nat) : State :=
  let v := BitVec.ofNat 3 (2 ^ (i - 1))
  if s.turn = .events then s.setYip v else { s with yipUp := s.yipUp ||| v }

/-- The bits raised earlier in the cycle are set (R152). -/
def State.applyYip (s : State) : State := if s.yipUp = 0 then s else { s.setYip s.yipUp with yipUp := 0 }

/-- Takes a free delay of at least one cycle (DESIGN CHOICE, log 4). -/
def State.delay (s : State) : Nat × State := (1 + Config.delay s.choices, { s with choices := s.choices + 1 })

/-! ### Places in device physical space -/

/-- Where a device physical address lies (R14, R254, R409, R437). -/
inductive Place where
  | near (core frame : Nat)
  | yard (shed : Nat)
  | far
  | firmware
  | control
  deriving DecidableEq, Repr

/-- The place of an address. -/
def place (pa : Nat) : Place :=
  if Config.nearBase ≤ pa && pa < Config.nearBase + 512 * 2 ^ 22 then
    .near ((pa - Config.nearBase) / 2 ^ 22) ((pa - Config.nearBase) % 2 ^ 22 / 2 ^ 15)
  else if Config.yardBase ≤ pa && pa < Config.yardBase + 8 * 2 ^ 29 then .yard ((pa - Config.yardBase) / 2 ^ 29)
  else if Config.controlBase ≤ pa then .control
  else if Config.firmwareBase ≤ pa && pa < Config.firmwareBase + 2 ^ 24 then .firmware
  else .far

/-- The address lies in yard memory. -/
def inYard (pa : Nat) : Bool :=
  match place pa with
  | .yard _ => true
  | _ => false

/-- The shed of a physical core: rows of 32, sheds of 8 × 8 cores, four sheds across (R8). -/
def shedOf (p : Nat) : Nat := p / 32 / 8 * 4 + p % 32 / 8

/-- The mesh distance of two cores in hops (R9). -/
def meshDist (p q : Nat) : Nat :=
  let d := fun (a b : Nat) => if a ≤ b then b - a else a - b
  d (p / 32) (q / 32) + d (p % 32) (q % 32)

/-- The storage level of an address: 0 near, 1 yard, 2 far (R14, R299). -/
def levelOf (pa : Nat) : Nat :=
  match place pa with
  | .near _ _ => 0
  | .yard _ => 1
  | _ => 2

/-- The latency in cycles of a line or scalar load of a core from an address (R19, R108): none where it is variable. -/
def latency (scalar : Bool) (p pa : Nat) : Option Nat :=
  if isYard p then none
  else match place pa with
    | .near q _ => if q = p then some 12 else if scalar then none else some (12 + 2 * meshDist p q)
    | .yard sh => some (if sh = shedOf p then 64 else 160)
    | _ => none

/-- The cycle a reply is due, taking a free delay where the latency is variable. -/
def State.replyDue (s : State) (scalar : Bool) (p pa : Nat) : Nat × State :=
  match latency scalar p pa with
  | some n => (s.now + n, s)
  | none => let (d, s) := s.delay; (s.now + d, s)

/-! ### Memory -/

/-- Reads `n` bytes of a memory from a key. -/
def Mem.read (m : Sparse Byte) (k : Nat) : Nat → List Byte
  | 0 => []
  | n + 1 => Sparse.get Config.blankByte m k :: Mem.read m (k + 1) n

/-- Writes bytes to a memory from a key; the canonical form is kept. -/
def Mem.write (m : Sparse Byte) (k : Nat) : List Byte → Sparse Byte
  | [] => m
  | b :: bs => Mem.write (Sparse.set Config.blankByte m k b) (k + 1) bs

/-- A memory in canonical form. -/
abbrev Mem.wf (m : Sparse Byte) : Bool := Sparse.wf Config.blankByte m

/-- Word 0 or 1 of a granule's entry in the far indirection table (R384); a granule beyond the table is not mapped (DESIGN CHOICE,
log 2). -/
def State.granule (s : State) (pa word : Nat) : Nat :=
  if 2 ^ 46 ≤ pa then 0 else bytesVal (Mem.read s.mem (Config.farTable + 16 * (pa / 2 ^ 21) + 8 * word) 8)

/-- A granule is mapped and its state is not reserved (R384). -/
def State.farOk (s : State) (pa : Nat) : Bool := bit (s.granule pa 0) 0 && bits (s.granule pa 0) 1 2 ≠ 3

/-- The key at which memory holds a byte: the address itself, or for far memory the CXL port and host physical address
that the granule's entry names, above the device space (R272, R384). -/
def State.key (s : State) (pa : Nat) : Nat :=
  match place pa with
  | .far => let g := s.granule pa 0; 2 ^ 72 * (1 + bits g 5 3) + (bits g 21 43 * 2 ^ 21 + pa % 2 ^ 21)
  | _ => pa

/-- What stands against an access to far memory (R384, R386, R399); a peer window is not far memory. -/
inductive FarState where
  | ok | wait | fail (c : Cause)
  deriving DecidableEq, Repr

/-- The link of the CXL port that a granule lies behind. UP and DEGRADED carry accesses, RETRAINING (and, for a port that
trains, TRAINING: DESIGN CHOICE, log 23) makes them wait, LOST and DOWN refuse them. The memory of a lost shed is out of reach
as behind a lost link (R396; DEDUCED, log 38). -/
def State.farLink (s : State) (pa : Nat) : FarState :=
  let shed := fun (n : Nat) => if s.lost.getLsbD n then FarState.fail .linkLost else .ok
  match place pa with
  | .far => match s.cxl[bits (s.granule pa 0) 5 3]? with
    | some .up | some .degraded => .ok
    | some .retraining | some .training => .wait
    | _ => .fail .linkLost
  | .near q _ => shed (shedOf q)
  | .yard n => shed n
  | _ => .ok

/-- The same with the granule's own state for a new access. -/
def State.farState (s : State) (pa : Nat) : FarState :=
  match place pa with
  | .far =>
    if !s.farOk pa then .fail .accessViolation
    else if bits (s.granule pa 0) 1 2 = 2 then .wait
    else s.farLink pa
  | _ => s.farLink pa

/-- The tag of the frame that holds an address. -/
def State.tag (s : State) (pa : Nat) : Tag := Sparse.get {} s.tags (pa / 32768)

/-- Replaces the tag of the frame that holds an address. -/
def State.setTag (s : State) (pa : Nat) (t : Tag) : State := { s with tags := Sparse.set {} s.tags (pa / 32768) t }

/-- The line that holds an address is scrub-pending (R257). -/
def State.scrubbed (s : State) (pa : Nat) : Bool := (s.tag pa).scrub.getLsbD (pa % 32768 / 256)

/-- Reads `n` bytes within one line: zeros where the line is scrub-pending (R257). -/
def State.readBytes (s : State) (pa n : Nat) : List Byte :=
  if s.scrubbed pa then List.replicate n 0 else Mem.read s.mem (s.key pa) n

/-- The line that holds an address is poisoned (R393); a scrub-pending line reads with no error (R257). -/
def State.poisoned (s : State) (pa : Nat) : Bool := !s.scrubbed pa && s.poison.contains (s.key pa / 256)

/-- Writes bytes within one line. A scrub-pending line is zeroed first, which clears poison too; a write of the whole
line clears poison, a part leaves it (R257, R393). -/
def State.writeBytes (s : State) (pa : Nat) (bs : List Byte) : State :=
  let base := pa / 256 * 256
  let k := s.key base
  let scrub := s.scrubbed pa
  let s1 := if scrub then
      let t := s.tag pa
      { s.setTag pa { t with scrub := t.scrub &&& ~~~(1#128 <<< (pa % 32768 / 256)) } with
        mem := Mem.write s.mem k (List.replicate 256 0) }
    else s
  { s1 with
    mem := Mem.write s1.mem (k + pa % 256) bs
    poison := if scrub || bs.length = 256 then s1.poison.filter (· ≠ k / 256) else s1.poison
    -- A write to reserved bytes ends the reservation (R314).
    reservations := s1.reservations.filter fun r => !(r.2.1 < k + pa % 256 + bs.length && k + pa % 256 < r.2.1 + r.2.2) }

/-- Reads a little-endian number of `n` bytes within one line. -/
def State.readNat (s : State) (pa n : Nat) : Nat := bytesVal (s.readBytes pa n)

/-- Reads a longer run that starts a line, line by line. -/
def State.readRun (s : State) (pa : Nat) : Nat → List Byte
  | 0 => []
  | n + 1 => s.readBytes pa 256 ++ s.readRun (pa + 256) n

/-- Writes a little-endian 64-bit word. -/
def State.writeDw (s : State) (pa : Nat) (v : DWord) : State := s.writeBytes pa (valBytes 8 v.toNat)

/-- Marks the line of an address poisoned. -/
def State.setPoison (s : State) (pa : Nat) : State :=
  let k := s.key pa / 256
  { s with poison := if s.poison.contains k then s.poison else k :: s.poison }

/-- A write by port 2 or 3 of a near store: it takes place at the end of the cycle (R13). Elsewhere it takes place now. -/
def State.portWrite (s : State) (port pa : Nat) (bs : List Byte) (bad : Bool := false) : State :=
  match place pa with
  | .near _ _ => { s with writes := s.writes ++ [⟨port, pa, bs, bad⟩] }
  | _ => if bad then (s.writeBytes pa bs).setPoison pa else s.writeBytes pa bs

/-- The writes of the near stores' ports take place: those of port 3 after those of port 2, so that they remain (R13). -/
def State.applyWrites (s : State) : State :=
  (sortBy (·.port) s.writes).foldl (fun s w =>
    let t := s.writeBytes w.pa w.bytes
    if w.bad then t.setPoison w.pa else t) { s with writes := [] }

/-- The 16-byte tile-table entry at an address (R253). -/
def State.tileEntry (s : State) (ea : Nat) : BitVec 128 := BitVec.ofNat 128 (s.readNat ea 16)

/-- Writes a tile-table entry. -/
def State.setTileEntry (s : State) (ea : Nat) (e : BitVec 128) : State := s.writeBytes ea (valBytes 16 e.toNat)

/-! ### Peer windows -/

/-- Fields of a peer window entry (R405): `V` with a valid `RLVL`, `RLVL`, `LBASE`, `LMASK`, `PEER`, `RBASE`. -/
def pwOk (e : DWord × DWord) : Bool := e.1.msb && bits e.1.toNat 61 2 ≠ 3
def pwLevel (e : DWord × DWord) : Nat := bits e.1.toNat 61 2
def pwBase (e : DWord × DWord) : Nat := bits e.1.toNat 30 26
def pwLinks (e : DWord × DWord) : Nat := bits e.1.toNat 0 16
def pwPeer (e : DWord × DWord) : Nat := bits e.2.toNat 48 16
def pwRemote (e : DWord × DWord) : Nat := bits e.2.toNat 22 26

/-- The peer window that maps an address: the lowest-numbered. -/
def State.peer? (s : State) (pa : Nat) : Option (DWord × DWord) :=
  s.peerWindows.toList.find? fun e => pwOk e && pwBase e = pa / 2 ^ 30

/-- The storage level of an address, 0 near, 1 yard, 2 far: behind a peer window it is the level of the frame there, which `RLVL` names
for a window on a peer's near stores or yards (R299, R321, R405); a linear window names it by the remote address (DEDUCED, log 107). -/
def State.level (s : State) (pa : Nat) : Nat :=
  match s.peer? pa with
  | some e => if pwLevel e = 0 then levelOf (pwRemote e * 2 ^ 30 + pa % 2 ^ 30) else pwLevel e - 1
  | none => levelOf pa

/-- Frames with the table bit: those of layout and tile tables, which the firmware has marked, and those of the far indirection
table (R378, R384). -/
def State.tableFrame (s : State) (pa : Nat) : Bool :=
  (s.tag pa).table || (Config.farTable ≤ pa && pa < Config.farTable + 2 ^ 29)

/-! ### Contexts -/

/-- A context; `none` where the identifier is GONE (R364). -/
def State.ctx? (s : State) (id : Nat) : Option Context := (s.ctxs.find? (·.1 = id)).map (·.2)

/-- A field of a context record: byte offset and length (R362). -/
def Context.field (c : Context) (off len : Nat) : Nat := bits c.record.toNat (8 * off) (8 * len)

/-- `SATP`, `LTAB`, `NLT`, `VOIDT`, `NGRP`, `GTAB`, `SAVEA`, `SAVEW`, `SNAPA`, `CBM` (R362). -/
def Context.satp (c : Context) : Nat := c.field 0 8
def Context.ltab (c : Context) : Nat := c.field 8 8
def Context.nlt (c : Context) : Nat := c.field 16 4
def Context.voidt (c : Context) : Nat := c.field 20 2
def Context.ngrp (c : Context) : Nat := c.field 22 2
def Context.gtab (c : Context) : Nat := c.field 24 8
def Context.savea (c : Context) : Nat := c.field 32 8
def Context.savew (c : Context) : Nat := c.field 40 8
def Context.snapa (c : Context) : Nat := c.field 48 8
def Context.cbm (c : Context) : Nat := c.field 56 8

/-- The watchdog limits of a context (R32, R362): a field of 0 selects the default. -/
def Context.freezeLimit (c : Context) : Nat := if c.field 66 1 = 0 then 2 ^ 20 else 2 ^ c.field 66 1
def Context.waitLimit (c : Context) : Nat := if c.field 67 1 = 0 then 2 ^ 24 else 2 ^ c.field 67 1

/-- The context of the task that a core holds; 0 with none. -/
def Core.ctxId (c : Core) : Nat := match c.task with | some t => t.ctx | none => 0

/-- The launch of an identifier. -/
def State.launch? (s : State) (id : Nat) : Option Launch := s.launches.find? (·.id = id)

/-- Replaces a launch. -/
def State.setLaunch (s : State) (l : Launch) : State :=
  { s with launches := s.launches.map fun x => if x.id = l.id then l else x }

/-! ### Error logs (R392) -/

/-- Logs a refused access: the first error is kept, a later one sets `OVR`. -/
def State.logError (s : State) (u : Nat) (cause rsn ctx rqk rqi : Nat) (addr : DWord) : State :=
  let (e0, e1) := Sparse.get (0, 0) s.elog u
  if e0.msb then { s with elog := Sparse.put s.elog u (e0 ||| 0x4000000000000000, e1) }
  else
    let w := 2 ^ 63 + cause % 64 * 2 ^ 56 + rsn % 256 * 2 ^ 48 + ctx % 65536 * 2 ^ 32 + rqk % 16 * 2 ^ 28 +
      rqi % 4096 * 2 ^ 16
    -- `OVR` stays until it is cleared by its own write.
    let ovr := if e0.getLsbD 62 then 2 ^ 62 else 0
    { s with elog := Sparse.put s.elog u (BitVec.ofNat 64 (w + ovr), addr) }

/-- The log unit of the controller that serves an address (R409): port 3 of a near store, a yard controller, a CXL
port, the lowest link of a peer window's mask, the control region. -/
def State.unitOf (s : State) (pa : Nat) : Nat :=
  match place pa with
  | .near q _ => 4 * q + 3
  | .yard sh => 2048 + sh
  | .control => 2094
  | .firmware => 2094
  | .far => match s.peer? pa with
    | some e => 2072 + ((List.range 16).find? (bit (pwLinks e))).getD 0
    | none => 2064 + bits (s.granule pa 0) 5 3

/-! ### Taking an exception, and returning from one -/

/-- The cause code (R387). -/
def Cause.code : Cause → Nat
  | .illegalLine => 0x01
  | .illegalInstruction => 0x02
  | .reservedField => 0x03
  | .formatUnderflow => 0x04
  | .formatInvalid => 0x05
  | .queueMisuse => 0x06
  | .freezeTimeout => 0x07
  | .tileFault => 0x08
  | .pageFault => 0x09
  | .accessViolation => 0x0A
  | .alignment => 0x0B
  | .exchangeAborted => 0x0C
  | .slotExhausted => 0x0D
  | .scheduleSlip => 0x0E
  | .digestMismatch => 0x0F
  | .routeOverflow => 0x10
  | .uncorrectable => 0x11
  | .linkLost => 0x12
  | .software => 0x13
  | .waitTimeout => 0x14
  | .heartbeatMissed => 0x15
  | .shedLost => 0x16

/-- A position word: line, `BP` in bit 3 for a trap record, lane (R388, R370). -/
def posWord (line : DWord) (bp : Bool) (lane : Nat) : DWord :=
  (line &&& ~~~0x1F) ||| (if bp then 8 else 0) ||| BitVec.ofNat 64 (lane % 8)

/-- The position of a stream's next or acting instruction (R63, R388). -/
def State.position (s : State) (p : Nat) (st : Stream) (lane : Nat) : DWord :=
  let x := (s.cr p).st ((s.cr p).lead st)
  posWord x.line x.bp lane

/-- Word 0 of a trap record (R388): `strm` 4 is an engine command, 5 the walker, 6 a device source. -/
def trapWord0 (ctx p kind obj strm swc : Nat) (c : Cause) : DWord :=
  BitVec.ofNat 64 (2 ^ 63 + ctx % 65536 * 2 ^ 40 + p % 512 * 2 ^ 31 + kind % 8 * 2 ^ 28 + obj % 32 * 2 ^ 23 +
    strm % 8 * 2 ^ 20 + swc % 256 * 2 ^ 8 + c.code)

/-- Queues a record for the trap FIFO (R388): it is placed at TRAP_RECORD_PLACE. -/
def State.report (s : State) (r : TrapRec) : State := { s with trapWait := s.trapWait ++ [(s.now, r)] }

/-- Places a record for a failure that halts no stream (R176, R247): the task's context and `WID`, the stream field, the
position and word 3. -/
def State.asyncTrap (s : State) (p strm : Nat) (t : TaskId) (pos : DWord) (c : Cause) (info : DWord) : State :=
  s.report ⟨p, [trapWord0 t.ctx p 0 0 strm 0 c, t.wid, pos, info], none⟩

/-- What stands open in a stream's line (R66, R133). -/
def StreamState.open_ (x : StreamState) : Resume :=
  { target := if x.bp then some x.target else none, skip := x.skip, atEnd := x.lane = 8 }

/-- TAKING AN EXCEPTION on a yardmaster (R153): `YTEPC` receives the position, `YTCAUSE` and `YTVAL` are set, `PIE` ← `IE`,
`IE` ← 0, and execution continues at `YTVEC`. -/
def State.yardTrap (s : State) (p : Nat) (pos cause val : DWord) : State :=
  let y := s.yard p
  let c := s.cr p
  let s1 := s.setYard p { y with
    ytepc := pos, ytcause := cause, ytval := val, shadow := c.c.open_ :: c.c.after, pie := y.ie, ie := false }
  s1.setCr p { c with
    c := { c.c with
      line := y.ytvec &&& ~~~0x1F, lane := 0, bp := false, buf := none, skip := none, after := [], swTrap := none }
    heldLine := false }

/-- An exception of a stream at a position. On a yardmaster it is `yardTrap`. On a compute core the record of R388 (context, core,
object, stream, `SWC`, cause; `WID`; position; word 3) goes to the trap FIFO, the stream halts in forked mode, and in joined mode the
core freezes (R178, R389); nothing else of the task changes. -/
def State.takeTrapAt (s : State) (p : Nat) (st : Stream) (pos : DWord) (cause : Cause) (info : DWord)
    (kind obj swc : Nat) : State :=
  if isYard p then
    s.yardTrap p pos (BitVec.ofNat 64 cause.code) (if cause = .software then BitVec.ofNat 64 swc else info)
  else
    let c := s.cr p
    let stop : Option Stream := if c.forked then some st else none
    let wid := match c.task with | some t => t.wid | none => 0
    let r : TrapRec := ⟨p, [trapWord0 c.ctxId p kind obj (streamNo st) swc cause, wid, pos, info], some stop⟩
    let x := c.st st
    let c1 := if c.forked then c.setSt st { x with hlt := true } else c
    (s.setCr p { c1 with stops := c1.stops ++ [⟨stop, false⟩] }).report r

/-- TAKING AN EXCEPTION of a stream at a lane of its line: `YTEPC` has no branch-pending bit. -/
def State.takeTrap (s : State) (p : Nat) (st : Stream) (lane : Nat) (cause : Cause) (info : DWord)
    (kind obj swc : Nat) : State :=
  s.takeTrapAt p st (if isYard p then posWord (s.cr p).c.line false lane else s.position p st lane) cause info kind obj swc

/-- RETURN FROM AN EXCEPTION on a yardmaster (R154): `IE` ← `PIE`, and execution resumes at `YTEPC`, in that line from the
recorded lane, with what stood open there (R66). Loads and atomics whose reply failed are performed again (R393). -/
def State.yardReturn (s : State) (p : Nat) : State :=
  let y := s.yard p
  let c := s.cr p
  (s.setYard p { y with ie := y.pie }).setCr p { c with
    c := { c.c with target := y.ytepc &&& ~~~0x18, bp := true, after := y.shadow }
    loads := c.loads.map fun l => { l with failed := false }
    amos := c.amos.map fun a => { a with failed := false } }

/-! ### The frame of a meaning -/

/-- Why an instruction does not complete: it waits, or raises an exception with word 3 of its record, the queue pops
that stay in effect and the refusal to log (`LaneEnd.trapped`). -/
inductive Stop where
  | wait (w : Wait) (l : Option Lookup)
  | trap (c : Cause) (info : DWord) (keep : List (Nat × Option Nat)) (log : Option LogRec)
  deriving DecidableEq, Repr

/-- A meaning: it changes the state, or stops and leaves the state as it was. -/
abbrev Act := StateT State (Except Stop)

/-- The acting core's data. -/
def core : Act Core := fun s => .ok (s.me, s)

/-- Changes the acting core. -/
def modCore (f : Core → Core) : Act Unit := fun s => .ok ((), s.setMe (f s.me))

/-- Raises an exception. -/
def raise {α : Type} (c : Cause) (info : DWord := 0) (keep : List (Nat × Option Nat) := []) : Act α :=
  fun _ => .error (.trap c info keep none)

/-- Raises an exception for an access that a port or controller refuses and logs (R392). -/
def refuse {α : Type} (c : Cause) (info : DWord) (unit rsn : Nat) (addr : DWord := info) (table : Bool := false) : Act α :=
  fun _ => .error (.trap c info [] (some ⟨unit, rsn, addr, table⟩))

/-- Waits, starting a lookup if one is given. -/
def wait {α : Type} (w : Wait) (l : Option Lookup := none) : Act α := fun _ => .error (.wait w l)

/-- Raises an exception unless a condition holds. -/
def require (b : Bool) (c : Cause) (info : DWord := 0) : Act Unit := if b then pure () else raise c info

/-- Waits unless a condition holds. -/
def ready (b : Bool) (w : Wait) : Act Unit := if b then pure () else wait w

/-- The innermost active level of a loop unit: its index and count (R69). -/
def innermost (ls : List LoopLevel) : Option LoopLevel := (ls.filter (·.active)).getLast?

/-- IQ lets the instruction issue (R69). -/
def iqIssues (w : BitVec 2) (l : Option LoopLevel) : Bool :=
  match l with
  | none => w != 3
  | some l =>
    if w = 0 then true
    else if w = 1 then l.index = 0
    else if w = 2 then l.index + 1 = l.count
    else l.index + 1 != l.count

/-- The acting stream's instruction issues by its iteration qualifier. -/
def State.issues (s : State) (w : BitVec 2) : Bool :=
  iqIssues w (innermost (s.me.st (s.me.lead s.stream)).loops.toList)

/-- Pops a queue's head: the remaining queue, with the entry counted as occupied to the cycle's end (R329). -/
def CoreQueue.pop (q : CoreQueue) : CoreQueue :=
  { entries := q.entries.drop 1, pops := q.pops + 1, rpos := q.rpos + 1 }

/-- Pops entry `n` of a queue, that after the `n` which earlier lanes of a line that does not take effect would have popped (R94). -/
def CoreQueue.popAt (q : CoreQueue) (n : Nat) : CoreQueue :=
  { entries := q.entries.eraseIdx n, pops := q.pops + 1, rpos := q.rpos + 1 }

/-- The pops of a stopped instruction that stay in effect (R94, R232): in a line that does not take effect, behind those of its earlier
lanes. -/
def keepPops (past : Nat → Nat) (c : Core) : List (Nat × Option Nat) → Core
  | [] => c
  | (q, r) :: rest =>
    let cq := c.queues.getD q {}
    let v := match cq.entries[past q]? with | some e => e.val.getD 0 | none => 0
    let regs := match r with
      | some n => { c.regs with d := c.regs.d.setIfInBounds n (v.setWidth 64) }
      | none => c.regs
    keepPops past { c with queues := c.queues.setIfInBounds q (cq.popAt (past q)), regs := regs } rest

/-- A TLB entry translates an address (R379): the page matches, and the ASID or the G bit. -/
def TlbEntry.covers (e : TlbEntry) (asid : Nat) (va : DWord) : Bool :=
  e.vpn = bits va.toNat 0 57 >>> (12 + 9 * e.level) && (e.asid = asid || e.pte.getLsbD 5)

/-- Drops what a faulting translation would find again: neither TLB holds an entry that faults (R379), and a lookup whose
entry is not valid is made anew (R383). -/
def State.dropFaulting (s : State) (c : Cause) (info : DWord) : State :=
  let k := s.me
  let asid := match s.ctx? k.ctxId with | some x => bits x.satp 44 16 | none => 0
  let l := k.lookups
  if c = .pageFault then
    let keep := fun (e : TlbEntry) => !e.covers asid info
    let s1 := s.setMe { k with lookups := { l with
      tlb := l.tlb.filter keep } }
    let rest := (Sparse.get [] s1.shedTlbs (shedOf s.core)).filter keep
    { s1 with shedTlbs := Sparse.set [] s1.shedTlbs (shedOf s.core) rest }
  else if c = .tileFault then
    let window := !info.getLsbD 62 || info.msb
    let stay := fun (r : Nat × Nat) => if window then r.1 ≠ 3 else r.2 ≠ info.toNat % 2 ^ 56
    s.setMe { k with lookups := { l with tileDone := l.tileDone.filter stay } }
  else s

/-- A context is to be destroyed for an error in its tables (R364). -/
def State.tableError (s : State) (ctx : Nat) : State :=
  if s.tableErrors.contains ctx then s else { s with tableErrors := s.tableErrors ++ [ctx] }

/-- An error log's entry for an access of a core (R392). -/
def State.logCore (s : State) (p : Nat) (c : Cause) (l : LogRec) : State :=
  let s := if l.table then s.tableError (s.cr p).ctxId else s
  s.logError l.unit c.code l.rsn (s.cr p).ctxId (if isYard p then 5 else 0) (if isYard p then p - 512 else p) l.addr

/-- What the controller of an address logs of an access of a core that has failed there: poison, or a lost link, for which R392
names no `RSN` (DESIGN CHOICE, log 94: zero). -/
def State.logFail (s : State) (p : Nat) (c : Cause) (pa : Nat) (addr : DWord) : State :=
  s.logCore p c ⟨s.unitOf pa, if c = .uncorrectable then 0x08 else 0, addr, false⟩

/-- A stopped instruction's exception, taken in a state (the whole line's in joined mode, whose earlier lanes would have popped
`past` entries of each queue). -/
def State.laneTrap (s : State) (c : Cause) (info : DWord) (keep : List (Nat × Option Nat)) (log : Option LogRec)
    (past : Nat → Nat := fun _ => 0) : State :=
  let s1 := (s.setMe (keepPops past s.me keep)).dropFaulting c info
  let s2 := match log with | some l => s1.logCore s1.core c l | none => s1
  { s2.takeTrap s2.core s2.stream s2.laneNo c info 0 0 0 with lane := .trapped c info keep log }

/-! ### Port 3 of a near store (R11) -/

/-- Puts a request of a class to the port 3 of core `q`: it comes there in cycle `since`, takes `lines` turns, and `lat` cycles pass
from the last of them to the arrival at its owner. -/
def State.askPort3 (s : State) (q cls : Nat) (o : PortOwner) (since lines lat : Nat) : State :=
  let c := s.cr q
  s.setCr q { c with port3Q := c.port3Q ++ [⟨cls, o, since, lines, lat⟩] }

/-- A request of an owner waits for its turns at some port 3. -/
def State.waitsPort3 (s : State) (o : PortOwner) : Bool := s.cores.any fun x => x.2.port3Q.any (·.owner = o)

/-- Forgets the requests of owners. -/
def State.dropPort3 (s : State) (f : PortOwner → Bool) : State :=
  { s with cores := s.cores.map fun x => (x.1, { x.2 with port3Q := x.2.port3Q.filter fun r => !f r.owner }) }

/-- The class of an access of core `p` to the near store of core `q`: its own linear accesses, what comes through the mesh, or
from a yardmaster's I/O die. -/
def portClass (p q : Nat) : Nat := if isYard p then 6 else if p = q then 0 else 5

/-- The cycle in which a load of core `p` returns, by its owner (R19, R108): `scalar` for a linear load, else a load of stream A
that enters its port in cycle `enter`; its read takes `turns` cycles. A request of a port 3 sets it when it has been served. -/
def State.loadDue (s : State) (scalar : Bool) (p pa : Nat) (o : PortOwner) (enter turns : Nat) : Nat × State :=
  match place pa with
  | .near q _ =>
    if q = p && !scalar then (enter + turns - 1 + 12, s)
    else if isYard p || (scalar && q ≠ p) then
      let (d, s) := s.delay
      (0, s.askPort3 q (portClass p q) o (enter + d) turns 0)
    else (0, s.askPort3 q (portClass p q) o enter turns (12 + 2 * meshDist p q))
  | _ =>
    let (d, s) := s.replyDue scalar p pa
    (d + (enter - s.now) + (turns - 1), s)

/-- The lines of a claim's save: a slot, or the plane pair with its side areas (R280). -/
def claimLines (what : Nat) : Nat := if what = 32 then 312 else 128

/-- The saved bit of a context for a slot or, at 32, for the plane pair (R281, R362). -/
def State.savedBit (s : State) (c : Context) (what : Nat) : Bool := bit (s.readNat c.savew 8) what

/-- The lines that a claim by a core's context saves: none where no live context owns what is claimed (R280, R362). -/
def State.claimSaves (s : State) (p what : Nat) : Nat :=
  if (s.ctx? (Sparse.get 0 (s.cr p).matrix.owner what)).isSome then claimLines what else 0

/-- The running context of a core has saved what is claimed. -/
def State.claimLoads (s : State) (p what : Nat) : Bool :=
  match s.ctx? (s.cr p).ctxId with
  | some x => s.savedBit x what
  | none => false

/-- Starts a claim by a stream of a core (R280), unless what it claims is being claimed (R282). -/
def State.startClaim (s : State) (p what : Nat) (st : Stream) : State :=
  let c := s.cr p
  if c.matrix.claims.any (·.what = what) then s
  else
    let saves := s.claimSaves p what
    let loads := if s.claimLoads p what then claimLines what else 0
    let (due, s) := match s.ctx? c.ctxId with
      | some k => if saves = 0 && loads ≠ 0 then s.replyDue false p k.savea else (s.now, s)
      | none => (s.now, s)
    let x : Claim := ⟨what, st, saves, loads, due⟩
    s.setCr p { c with matrix := { c.matrix with claims := c.matrix.claims ++ [x] } }

/-- Starts a lookup for the acting core: a hit in the shed TLB adds 16 cycles, a walk a free delay, a tile-table lookup 24
cycles (R20, R256, R379). -/
def State.begin (s : State) : Option Lookup → State
  | none => s
  | some (.walk acc asid root va) =>
    let c := s.me
    if c.lookups.walks.any fun r => r.acc = acc && r.asid = asid && r.va.toNat >>> 12 = va.toNat >>> 12 then s
    else
      let hit := (Sparse.get [] s.shedTlbs (shedOf s.core)).find? (·.covers asid va)
      let (d, s) := if hit.isSome then (16, s) else s.delay
      s.setMe { c with lookups := { c.lookups with
        walks := c.lookups.walks ++ [⟨acc, asid, root, va, s.now + d, hit⟩] } }
  | some (.tile port ea) =>
    let c := s.me
    if c.lookups.tileReqs.any fun r => r.1 = port && r.2.1 = ea then s
    else s.setMe { c with lookups := { c.lookups with
      tileReqs := c.lookups.tileReqs ++ [(port, ea, s.now + 24)] } }
  | some (.claim what) => s.startClaim s.core what s.stream
  | some (.poll va pa win) =>
    let mine := fun (g : GbPoll) => g.lane = s.laneNo && g.va = va
    if s.me.gbPolls.any fun g => mine g && g.reply.isNone then s
    else
      let (due, s) := s.replyDue true s.core pa
      -- After a reply the next read issues in the cycle after it.
      let due := if s.me.gbPolls.any mine then due + 1 else due
      s.setMe { s.me with gbPolls := s.me.gbPolls.filter (!mine ·) ++ [⟨s.laneNo, va, pa, due, none, win⟩] }
  | some (.freeze p) => s.setCr p { s.cr p with freezeAsk := true }

/-- The instructions that a yardmaster accepts (R81). -/
def yardAccepts : Instr → Bool
  | .nop | .add .. | .sub .. | .mul .. | .mulh .. | .mulhu .. | .div .. | .divu .. | .rem .. | .remu .. | .and_ ..
  | .or_ .. | .xor_ .. | .andn .. | .shl .. | .shr .. | .sar .. | .rol .. | .min_ .. | .max_ .. | .minu ..
  | .maxu .. | .slt .. | .sltu .. | .seq .. | .clz .. | .ctz .. | .popc .. | .bext .. | .addi .. | .andi ..
  | .ori .. | .xori .. | .shli .. | .shri .. | .sari .. | .slti .. | .sltiu .. | .li .. | .ldB ..
  | .ldBu .. | .ldH .. | .ldHu .. | .ldW .. | .ldWu .. | .ldD .. | .stB .. | .stH .. | .stW .. | .stD ..
  | .amoAdd .. | .amoAnd .. | .amoOr .. | .amoXor .. | .amoMin .. | .amoMax .. | .amoSwp .. | .amoCas ..
  | .fence .. | .fenceI .. | .beq .. | .bne .. | .blt .. | .bge .. | .bltu .. | .bgeu .. | .jmpr ..
  | .csrr .. | .csrw .. | .csrs .. | .csrc .. | .rtt .. | .wfi .. | .halt .. | .freeze .. | .thaw ..
  | .snapr .. | .snapw .. | .loop .. | .lstr .. | .jmp .. | .hint .. | .trap .. => true
  | _ => false

/-- The CSR numbers of a compute core and of a yardmaster (R109). -/
def csrOk (yard : Bool) (n : Nat) : Bool :=
  if yard then n ≤ 0x806 && 0x800 ≤ n || n = 0x810 || n = 0x811
  else n ≤ 6 || (8 ≤ n && n ≤ 13) || (0x10 ≤ n && n ≤ 0x14) || (0x20 ≤ n && n ≤ 0x33)

/-- The restrictions of an instruction to a stream, a kind of core and an issue mode (R59, R61, R68, R76-R81, R109, R132):
the exception where it may not run. -/
def restriction (st : Stream) (yard forked : Bool) (i : Instr) : Option Cause :=
  if !i.homes.contains st || (yard && !yardAccepts i) then some .illegalInstruction
  else match i with
    | .jmp .. | .bqz .. | .bqnz .. => if st ≠ .c && !forked then some .illegalLine else none
    | .join .. => if forked then none else if st = .c then some .illegalInstruction else some .illegalLine
    | .fork .. | .tend .. => if forked then some .illegalInstruction else none
    | .loop .. => if st ≠ .c && !forked then some .illegalInstruction else none
    | .rtt .. | .wfi .. | .halt .. | .freeze .. | .thaw .. | .snapr .. | .snapw .. =>
      if yard then none else some .illegalInstruction
    | .csrr _ _ n | .csrw _ _ _ n | .csrs _ _ _ n | .csrc _ _ _ n =>
      if csrOk yard n.toNat then none else some .illegalInstruction
    | _ => none

/-- The same for the acting stream. -/
def State.refusal (s : State) (i : Instr) : Option Cause := restriction s.stream (isYard s.core) s.me.forked i

/-- Runs the meaning `m` of an instruction for the acting stream: one that may not run here raises its exception (R68, R76),
one that IQ suppresses changes nothing (R69), one that waits changes nothing, one that raises takes its exception. -/
def run (i : Instr) (w : BitVec 2) (m : Act Unit) (s : State) : Host.Outcome State Fault Refusal :=
  match s.refusal i with
  | some c => .next (s.laneTrap c 0 [] none)
  | none =>
    if !s.issues w then .next { s with lane := .suppressed }
    else match m s with
      | .ok (_, t) => .next { t with lane := .done }
      | .error (.wait x l) => .next { s.begin l with lane := .waiting x l }
      | .error (.trap c i k l) => .next (s.laneTrap c i k l)

/-- The four streams. -/
def allStreams : List Stream := [.c, .a, .k, .d]

end Sys2Proof.Machine
end

