-- ==== Sys2Proof/Machine/Operands.lean ====
section
/-! DEFINITION. Operand forms: the registers of the four streams with their pending results (R62, R74, R108, R207), the
queues (R328-R330), and the counters of sequence numbers. -/

namespace Sys2Proof.Machine

/-! ### Registers -/

/-- An instruction that reads a register must wait: its value is pending (R108, R207), or a load or atomic has not
returned it; the value of a round is outstanding work, object 17 (DESIGN CHOICE, log 92). A value that an earlier lane of the same
joined line produces divides the line (R62). -/
def Core.regWait (c : Core) (r : Reg) : Option Wait :=
  let w := fun (issued : Nat) (x : Wait) =>
    some (if !c.forked && (if c.heldLine then c.heldClk else c.clk) ≤ issued then Wait.sameLine r else x)
  match c.pend.find? (·.reg = r) with
  | some e => w e.issued .fixed
  | none => match r with
    | .s n =>
      match c.loads.find? (·.dst = some n) with
      | some l => w l.issued .memory
      | none => match c.amos.find? (·.dst = some n) with
        | some a => w a.issued (if a.round.isSome then .object 0 17 else .memory)
        | none => none
    | .x n =>
      (c.aloads.find? fun l => match l.kind with | .bfx y .. => y = n | _ => false).bind fun l => w l.issued .memory
    | _ => none

/-- Waits for a register. -/
def await (r : Reg) : Act Unit := fun s =>
  match s.me.regWait r with
  | some w => .error (.wait w none)
  | none => .ok ((), s)

/-- A later instruction writes a register: earlier results still to come are dropped (R108). -/
def Core.kill (c : Core) (r : Reg) : Core :=
  let c := { c with pend := c.pend.filter (·.reg ≠ r) }
  match r with
  | .s n => { c with
      loads := c.loads.map fun l => if l.dst = some n then { l with dst := none } else l
      amos := c.amos.map fun a => if a.dst = some n then { a with dst := none } else a }
  | _ => c

/-- The value of s[n]; s0 reads zero (R74). -/
def Core.getS (c : Core) (n : BitVec 5) : DWord := if n = 0 then 0 else c.regs.s.getD n.toNat 0

/-- Writes s[n]; writes to s0 are discarded (R74). -/
def Core.putS (c : Core) (n : BitVec 5) (v : DWord) : Core :=
  if n = 0 then c else { c with regs := { c.regs with s := c.regs.s.setIfInBounds n.toNat v } }

/-- Reads s[n]. -/
def readS (n : BitVec 5) : Act DWord := do
  await (.s n)
  return (← core).getS n

/-- Writes s[n] with ready time 0. -/
def writeS (n : BitVec 5) (v : DWord) : Act Unit := modCore fun c => (c.kill (.s n)).putS n v

/-- The register's value comes `lat` cycles after cycle `start` of the result clock (R108, R207). -/
def Core.later (c : Core) (r : Reg) (v : Line) (start lat : Nat) : Core :=
  let c := c.kill r
  { c with pend := c.pend ++ [⟨r, v, start + lat, c.clk⟩] }

/-- Writes s[n] with a ready time above 0; a result for s0 is dropped. -/
def writeSLate (n : BitVec 5) (v : DWord) (lat : Nat) : Act Unit :=
  if n = 0 then pure () else modCore fun c => c.later (.s n) (v.setWidth 2048) c.rclk lat

/-- The index that lL reads in a stream: C's in joined mode (R133, R134). -/
def Core.loopIndex (c : Core) (st : Stream) (n : Nat) : DWord :=
  ((c.st (c.lead st)).loops.getD n {}).index.setWidth 64

/-- The read-only operands i0-i5, WID, l0-l5 of A, K and D by register code (R74). -/
def Core.special (c : Core) (st : Stream) (r : BitVec 5) : DWord :=
  if r.toNat < 22 then (c.regs.i.getD (r.toNat - 16) 0).setWidth 64
  else if r = 22 then c.regs.wid
  else c.loopIndex st (r.toNat - 24)

/-- A source of A or D by register code, as 64 raw bits (R157). -/
def Core.getAD (c : Core) (st : Stream) (r : BitVec 5) : DWord :=
  if r.toNat < 16 then (if st = .a then c.regs.a.getD r.toNat 0 else c.regs.d.getD r.toNat 0) else c.special st r

/-- Writes a coordinate register of A or D. -/
def Core.putAD (c : Core) (st : Stream) (r : BitVec 5) (v : DWord) : Core :=
  if st = .a then { c with regs := { c.regs with a := c.regs.a.setIfInBounds r.toNat v } }
  else { c with regs := { c.regs with d := c.regs.d.setIfInBounds r.toNat v } }

/-- A K scalar field's value: k0-k7, or the 64 bits of i0-i5, WID, l0-l5 (R74, R202). -/
def Core.getK (c : Core) (r : BitVec 5) : DWord :=
  if r.toNat < 8 then (c.regs.k.getD r.toNat 0).setWidth 64 else c.special .k r

/-- Reads a K scalar field. -/
def readK (r : BitVec 5) : Act DWord := do
  await (.k r)
  return (← core).getK r

/-- Reads v[n]. -/
def readV (n : BitVec 5) : Act Line := do
  await (.v n)
  return (← core).regs.v.getD n.toNat 0

/-- A coordinate element 0-3 of a register (R157). -/
def coordEl (c : DWord) (e : Nat) : BitVec 16 := c.extractLsb' (16 * e) 16

/-- Replaces element e of a coordinate register. -/
def setEl (c : DWord) (e : Nat) (v : BitVec 16) : DWord :=
  (c &&& ~~~((0xFFFF : DWord) <<< (16 * e))) ||| (v.setWidth 64 <<< (16 * e))

/-- Takes the next sequence number of the core. -/
def nextSeq : Act Nat := fun s =>
  let c := s.me
  .ok (c.seq, s.setMe { c with seq := c.seq + 1 })

/-- The position word of the acting instruction (R388). -/
def here : Act DWord := fun s => .ok (s.position s.core s.stream s.laneNo, s)

/-! ### Queues (R328, R329) -/

/-- The queue codes of R75, and 13 for iq (R343). -/
abbrev iqCode : Nat := 13

/-- The depth of a queue (R328). -/
def queueDepth (q : Nat) : Nat := if q ≤ 6 then 16 else if q ≤ 11 then 8 else if q = 12 then 32 else 64

/-- The producing and the consuming stream of a queue (R328). -/
def queueProducer (q : Nat) : Stream :=
  if q ≤ 3 then .a else if q ≤ 5 then .k else if q = 6 then .a else if q ≤ 9 then .c
  else if q = 10 then .k else if q = 11 then .a else if q = 12 then .c else .a
def queueConsumer (q : Nat) : Stream :=
  if q ≤ 3 then .k else if q ≤ 6 then .d else if q = 7 then .a else if q = 8 then .k else if q = 9 then .d
  else if q ≤ 11 then .c else if q = 12 then .k else .a

/-- A queue of a core. -/
def Core.q (c : Core) (q : Nat) : CoreQueue := c.queues.getD q {}

/-- Replaces a queue. -/
def Core.setQ (c : Core) (q : Nat) (x : CoreQueue) : Core := { c with queues := c.queues.setIfInBounds q x }

/-- Entries not FREE, those popped in this cycle among them (R329). -/
def CoreQueue.occupied (q : CoreQueue) : Nat := q.entries.length + q.pops

/-- The entries written and not yet popped at the start of the cycle (R146, R329). -/
def CoreQueue.written (q : CoreQueue) (now : Nat) : Nat :=
  (q.entries.filter fun e => e.val.isSome && e.ready < now).length + q.pops

/-- The entries that can be popped now, from the head (R329). -/
def CoreQueue.poppable (q : CoreQueue) (now : Nat) : List Line :=
  (q.entries.takeWhile fun e => e.val.isSome && e.ready < now && e.hold = 0).map fun e => e.val.getD 0

/-- Waits for the queue's head and pops it. -/
def popQ (q : Nat) : Act Line := fun s =>
  match (s.me.q q).poppable s.now with
  | [] => .error (.wait (.object 0 q) none)
  | v :: _ => .ok (v, s.setMe (s.me.setQ q (s.me.q q).pop))

/-- An access of C counts as the present task's: it has not left an earlier core of another (R110). -/
def Core.counts (c : Core) (seq : Nat) (gone : Option TaskId) : Bool := c.first ≤ seq || (gone.isSome && gone = c.task)

/-- The task that an atomic has left with its core. -/
def AmoReq.gone (r : AmoReq) : Option TaskId := match r.late with | .sent t => some t | _ => none

/-- An atomic of the present task: a restored one's request of a round, and one whose result is still awaited, among them. -/
def Core.ownAmo (c : Core) (r : AmoReq) : Bool :=
  match r.late with
  | .awaited _ => true
  | _ => r.round.isSome || c.counts r.seq r.gone

/-- Every access of a stream before `seq` is visible to the core's streams (R136, R138, R200, R245): for C its loads,
stores, atomics and barrier arrivals, for A its loads, for K its matrix commands and their rows, for D the lines of its
store commands. -/
def Core.settled (c : Core) (st : Stream) (seq : Nat) : Bool :=
  match st with
  | .c =>
    !(c.loads.any (fun l => l.bound.isNone && l.seq < seq) || c.stores.any (fun x => c.counts x.seq x.gone && x.seq < seq) ||
      c.amos.any (fun r => c.ownAmo r && r.seq < seq) || c.gbArrives.any (fun x => c.counts x.seq x.gone && x.seq < seq))
  | .a => !c.aloads.any fun l => !l.failed && l.seq < seq
  | .k => !(c.matrix.queue.any (·.seq < seq) || c.matrix.rows.any (·.seq < seq))
  | .d => !(c.drain.cmds.any (·.seq < seq) || c.drain.deliveries.any (·.seq < seq) || c.drain.buf.any (·.seq < seq))

/-- A matrix command reads or writes storage: a spill, or a BIND with images. -/
def MKind.stores : MKind → Bool
  | .spill .. => true
  | .bind _ _ srcs => srcs.any fun x => !x.2.isEmpty
  | _ => false

/-- What a push by a stream before `seq` releases has taken place (R308): C's earlier accesses, and of K's those to storage, which are
the spills and the BINDs of images in its command queue (DEDUCED, log 54). PUSHFMT releases nothing. -/
def Core.pushSettled (c : Core) (q seq : Nat) : Bool :=
  match queueProducer q with
  | .k => !c.matrix.queue.any fun m => m.seq < seq && m.kind.stores
  | .c => q = 12 || c.settled .c seq
  | _ => true

/-- The `hold` of an entry pushed now. -/
def Core.pushHold (c : Core) (q : Nat) : Nat := if c.pushSettled q c.seq then 0 else c.seq + 1

/-- Waits for room and pushes a READY entry, which its consumer can pop from the next cycle, or once what the push releases has taken
place. -/
def pushQ (q : Nat) (v : Line) : Act Unit := fun s =>
  let cq := s.me.q q
  if queueDepth q ≤ cq.occupied then .error (.wait (.object 0 q) none)
  else .ok ((), s.setMe (s.me.setQ q { cq with entries := cq.entries ++ [⟨some v, s.now, 0, s.me.pushHold q⟩] }))

/-- The entries of a queue whose pushes have released what they release can be popped from the next cycle. -/
def Core.unhold (c : Core) (now q : Nat) : Core :=
  let cq := c.q q
  c.setQ q { cq with entries := cq.entries.map fun e =>
      if e.hold ≠ 0 && c.pushSettled q (e.hold - 1) then { e with hold := 0, ready := now } else e }

/-- Waits for room and reserves `n` entries for a load (R21). -/
def reserveQ (q n id : Nat) : Act Unit := fun s =>
  let cq := s.me.q q
  if queueDepth q < cq.occupied + n then .error (.wait (.object 0 q) none)
  else .ok ((), s.setMe (s.me.setQ q { cq with entries := cq.entries ++ List.replicate n ⟨none, 0, id, 0⟩ }))

/-- Fills the first RESERVED entry of a load with its data (R329). -/
def CoreQueue.fill (q : CoreQueue) (id now : Nat) (v : Line) : CoreQueue :=
  let rec go : List QEntry → List QEntry
    | [] => []
    | e :: es => if e.val.isNone && e.id = id then ⟨some v, now, id, 0⟩ :: es else e :: go es
  { q with entries := go q.entries }

end Sys2Proof.Machine
end

