-- ==== Sys2Proof/Machine/Flags.lean ====
section
/-! DEFINITION. The synchronisation objects of a core (R136-R143, R337-R342): flags, tokens, completion counters, stage
barriers, rendezvous registers and markers, and when a release may take effect. -/

namespace Sys2Proof.Machine


/-- Adds to a completion counter (R139, R340): `COUNT` wraps modulo 2^31, `ERR` is sticky. -/
def bumpCounter (v : Word) (inc : Nat) (err : Bool) : Word :=
  let count := (v.toNat % 2 ^ 31 + inc) % 2 ^ 31
  BitVec.ofNat 32 (count + (if err || v.msb then 2 ^ 31 else 0))

/-- One arrival at a stage barrier (R140, R338). -/
def Bar.arrive (b : Bar) : Bar :=
  if b.arrivals + 1 = b.count then { b with arrivals := 0, phase := !b.phase }
  else { b with arrivals := b.arrivals + 1 }

/-- Sets or clears bit `n` of a flag register. -/
def setFlag (f : BitVec 8) (n : BitVec 3) (v : Bool) : BitVec 8 :=
  if v then f ||| (1#8 <<< n.toNat) else f &&& ~~~(1#8 <<< n.toNat)

/-- What an effect does to the core (R137-R143). -/
def Core.apply (c : Core) : SyncEff → Core
  | .flag n v => { c with flags := setFlag c.flags n v }
  | .flags v => { c with flags := v }
  | .give t id =>
    let q := c.tokens.getD t.toNat []
    { c with tokens := c.tokens.setIfInBounds t.toNat (q ++ [⟨id, false⟩]) }
  | .take t => { c with tokens := c.tokens.setIfInBounds t.toNat ((c.tokens.getD t.toNat []).drop 1) }
  | .countable t id =>
    let q := c.tokens.getD t.toNat []
    let q' := q.map fun k => if k.id = id then { k with countable := true } else k
    { c with tokens := c.tokens.setIfInBounds t.toNat q' }
  | .cntSet n v => { c with counters := c.counters.setIfInBounds n.toNat v }
  | .barInit n k ph => { c with bars := c.bars.setIfInBounds n.toNat ⟨k, 0, ph⟩ }
  | .barArv n => { c with bars := c.bars.setIfInBounds n.toNat (c.bars.getD n.toNat {}).arrive }
  | .rdvSet z m e => { c with rdvs := c.rdvs.setIfInBounds z.toNat (.armed m e) }
  | .rdvDisarm z => { c with rdvs := c.rdvs.setIfInBounds z.toNat .disarmed }

/-- The effect may take place: it releases nothing, or what it releases is visible and every release of its stream
before it has taken place (R136). -/
def Core.mayApply (c : Core) (before : List Deferred) (d : Deferred) : Bool :=
  !d.release || (!before.any (fun x => x.st = d.st && x.release) && c.settled d.st d.seq)

/-- The first effect of a stream that may take place now, and the effects that stay. -/
def Core.nextEffect (c : Core) (st : Stream) : List Deferred → List Deferred → Option (SyncEff × List Deferred)
  | _, [] => none
  | before, d :: ds =>
    if d.st = st && c.mayApply before d then some (d.eff, before ++ ds) else c.nextEffect st (before ++ [d]) ds

/-- The effects of a stream's lanes of this cycle that may take place at its end, in program order: an effect put off from an
earlier cycle counts only once it has taken place (R136). -/
def Core.ownEffects (c : Core) (st : Stream) (now : Nat) : List Deferred → List Deferred → List SyncEff
  | _, [] => []
  | before, d :: ds =>
    if d.st = st && d.time = now && c.mayApply before d then d.eff :: c.ownEffects st now before ds
    else c.ownEffects st now (before ++ [d]) ds

/-- The objects as a stream's waiting lane judges them: the state at the start of the cycle, as changed by its own earlier
lanes (R136). -/
def Core.view (c : Core) (st : Stream) (now : Nat) : Core := (c.ownEffects st now [] c.deferred).foldl Core.apply c

/-- Puts an effect of the acting stream off to the end of the cycle; a release carries the stream's place (R136). -/
def defer (release : Bool) (e : SyncEff) : Act Unit := fun s =>
  let c := s.me
  .ok ((), s.setMe { c with deferred := c.deferred ++ [⟨s.stream, s.now, c.seq, release, e⟩], seq := c.seq + 1 })

/-- Gives a token to a queue at once: an engine's completion (R138, R170). -/
def Core.giveToken (c : Core) (t : BitVec 3) : Core :=
  { c with tokens := c.tokens.setIfInBounds t.toNat (c.tokens.getD t.toNat [] ++ [⟨0, true⟩]) }

/-- The oldest token of a queue can be taken. -/
def Core.tokenReady (c : Core) (t : BitVec 3) : Bool :=
  match c.tokens.getD t.toNat [] with
  | k :: _ => k.countable
  | [] => false

/-- Takes the oldest token. -/
def Core.takeToken (c : Core) (t : BitVec 3) : Core :=
  { c with tokens := c.tokens.setIfInBounds t.toNat ((c.tokens.getD t.toNat []).drop 1) }

/-- The signaller and the waiter of a token queue (R138). -/
def tokenOwners (t : Nat) : Stream × Stream :=
  match t with
  | 0 => (.a, .k)
  | 1 => (.k, .a)
  | 2 => (.k, .d)
  | 3 => (.d, .k)
  | 4 => (.a, .d)
  | _ => (.d, .a)

/-- The index of an engine's retired mask. -/
def engineNo : Engine → Nat
  | .a => 0
  | .k => 1
  | .d => 2
  | .shunter => 3
  | .codec => 4

/-- A marker bit of an engine's retired mask. -/
def Core.setRetired (c : Core) (e : Engine) (n : BitVec 5) (v : Bool) : Core :=
  let m := c.retired.getD (engineNo e) 0
  let b := (1 : Word) <<< n.toNat
  { c with retired := c.retired.setIfInBounds (engineNo e) (if v then m ||| b else m &&& ~~~b) }

/-- Bit n is set in every engine that the mask names: bits A, K, D, shunter, codec (R143). -/
def Core.rdvReady (c : Core) (n eng : BitVec 5) : Bool :=
  (List.range 5).all fun i => !eng.getLsbD i || (c.retired.getD i 0).getLsbD n.toNat

end Sys2Proof.Machine
end

