-- ==== Sys2Proof/Machine/Registers.lean ====
section
/-! DEFINITION. The map of the control region (R409). -/

namespace Sys2Proof.Machine

/-- A register of the control region. Word 0 or 1 of a pair is named by `w`. -/
inductive CtlReg where
  | lqctl (q : Nat) | lqpush (q : Nat) | tlbinv | fmmig | service (n : Nat) | rtsreq | pwrcap | fwreq
  | vlctl (k : Nat) | vlstat (k : Nat) | window (j : Nat) (w : Nat) | elog (u : Nat) (w : Nat)
  deriving DecidableEq, Repr

/-- The register at an offset of the region; none where the table of R409 lists none. -/
def ctlAt (o : Nat) : Option CtlReg :=
  if o < 0x40000 then
    if o % 0x1000 = 0 then some (.lqctl (o / 0x1000)) else if o % 0x1000 = 8 then some (.lqpush (o / 0x1000)) else none
  else if o = 0x100000 then some .tlbinv
  else if o = 0x100008 then some .fmmig
  else if 0x200000 ≤ o && o < 0x210000 then
    if o % 0x1000 = 0 then some (.service ((o - 0x200000) / 0x1000)) else none
  else if o = 0x300000 then some .rtsreq
  else if o = 0x300008 then some .pwrcap
  else if o = 0x400000 then some .fwreq
  else if 0x500000 ≤ o && o < 0x501000 then
    if o % 0x100 = 0 then some (.vlctl ((o - 0x500000) / 0x100))
    else if o % 0x100 = 8 then some (.vlstat ((o - 0x500000) / 0x100)) else none
  else if 0x600000 ≤ o && o < 0x600400 then
    if o % 8 = 0 then some (.window ((o - 0x600000) / 0x10) (o % 0x10 / 8)) else none
  else if 0x700000 ≤ o && o < 0x710000 then
    if o % 8 = 0 then some (.elog ((o - 0x700000) / 0x10) (o % 0x10 / 8)) else none
  else none

/-- The register at a device physical address. -/
def ctlReg (pa : Nat) : Option CtlReg := if pa < Config.controlBase then none else ctlAt (pa - Config.controlBase)

end Sys2Proof.Machine
end

