-- ==== Sys2Proof/Machine/Translate.lean ====
section
/-! DEFINITION. Addresses: Sv57 page tables and the core TLB (R375, R376, R379), tile-table entries and the frames they
name (R253-R256), the cursor rule of an exchange (R258, R260, R261), peer windows (R405), and the checks of a linear
access in the order of R117. -/

namespace Sys2Proof.Machine

/-! ### Tile-table entries and frames -/

/-- Fields of a tile-table entry (R253): `V`, `STATE` (0 RESIDENT, 1 MOVING, 2 SWAPPING, 3 ABSENT), `CURSOR`, `RB`, `LEVEL`,
`FRAME`, the address of the partner's entry, `SHR`. -/
def tV (e : BitVec 128) : Bool := e.getLsbD 0
def tState (e : BitVec 128) : Nat := bits e.toNat 1 2
def tCursor (e : BitVec 128) : Nat := bits e.toNat 4 7
def tRb (e : BitVec 128) : Bool := e.getLsbD 11
def tLevel (e : BitVec 128) : Nat := bits e.toNat 12 2
def tFrame (e : BitVec 128) : Nat := bits e.toNat 16 48
def tPartner (e : BitVec 128) : Nat := bits e.toNat 64 52 * 16
def tShr (e : BitVec 128) : Nat := bits e.toNat 116 12

/-- Replaces the bits `lo + n - 1 .. lo` of an entry. -/
def tPut (e : BitVec 128) (lo n v : Nat) : BitVec 128 :=
  (e &&& ~~~(BitVec.ofNat 128 ((2 ^ n - 1) * 2 ^ lo))) ||| BitVec.ofNat 128 (v % 2 ^ n * 2 ^ lo)

/-- The device physical address of the first byte of a frame (R254). -/
def frameBase (level frame : Nat) : Nat :=
  if level = 0 then Config.nearBase + bits frame 0 9 * 2 ^ 22 + bits frame 9 7 * 2 ^ 15
  else if level = 1 then Config.yardBase + bits frame 0 3 * 2 ^ 29 + bits frame 3 14 * 2 ^ 15
  else bits frame 0 41 * 2 ^ 15

/-- The device physical address of an entry's frame. -/
def tBase (e : BitVec 128) : Nat := frameBase (tLevel e) (tFrame e)

/-- The entry gives a block: `V` = 1, not ABSENT, and `LEVEL` not 11 (R255). -/
def tileOk (e : BitVec 128) : Bool := tV e && tState e ≠ 3 && tLevel e ≠ 3

/-- The shunter that runs an exchange of an entry. -/
def State.exchangeOf (s : State) (ea : Nat) : Option Exchange :=
  s.shunters.findSome? fun x => match x.2.run with
    | some r => if r.e1 = ea || r.e2 = ea then some r else none
    | none => none

/-- The line that an exchange swaps in a cycle (R16, R259, R260): none before its entries have left RESIDENT, while accesses in flight
drain, or once the last line has moved. -/
def Exchange.swapping (r : Exchange) (now : Nat) : Option Nat :=
  let line := if r.rollback then r.cursor - 1 else r.cursor
  if r.marked && r.drained && !(r.rollback && r.cursor = 0) && line < 128 && r.due + 1 ≤ now + r.per then some line else none

/-- The line of an address is the one that a shunter swaps now (R16, R259). -/
def State.lineLocked (s : State) (pa : Nat) : Bool :=
  s.shunters.any fun x => match x.2.run with
    | some r => match r.swapping s.now with
      | some line => r.f1 + 256 * line = pa / 256 * 256 || r.f2 + 256 * line = pa / 256 * 256
      | none => false
    | none => false

/-- The place of byte `off` of a block by its entry, or none while the access must wait (R258-R261): below the cursor the
partner's frame, from it the block's own, and a wait at the locked line and at a SWAPPING block. -/
def State.spot (s : State) (ea : Nat) (e : BitVec 128) (off : Nat) : Option Nat :=
  let own := tBase e + off
  match tState e with
  | 0 => some own
  | 1 =>
    let line := off / 256
    -- The field holds no 128; between the last line and the commit the shunter's own cursor stands there.
    let cursor := match s.exchangeOf ea with | some r => r.cursor | none => tCursor e
    let locked := match s.exchangeOf ea with
      | some r => r.swapping s.now == some line
      | none => false
    let q := s.tileEntry (tPartner e)
    if locked then none
    else if line < cursor then some (tBase q + off)
    else some own
  | _ => none

/-! ### Links to peers -/

/-- The link that a request to a peer takes (R406): the link, or whether a link of the mask may still come up. -/
def State.peerLink (s : State) (e : DWord × DWord) (addr : Nat) : Option Nat ⊕ Bool :=
  let ls := (List.range 16).filter (bit (pwLinks e))
  let up := ls.filter fun k => match s.links[k]? with
    | some l => (l.st = .up || l.st = .degraded) && l.peer.toNat = pwPeer e
    | none => false
  if up.isEmpty then .inr (ls.any fun k => match s.links[k]? with
    | some l => l.st = .training || l.st = .retraining
    | none => false)
  else .inl up[bits addr 8 5 % up.length]?

/-! ### Page tables -/

/-- How a walk ends: at nothing that translates, at an entry whose read fails or must wait as an ordinary load there does (R379, R384,
R393, R399), or at a leaf of a level. -/
inductive Walked where
  | fault
  | fail (c : Cause) (pa : Nat)
  | wait
  | leaf (level : Nat) (pte : DWord)
  deriving DecidableEq, Repr

/-- An address that ordinary reads of the package can reach: not the control region, and in far memory a mapped granule. -/
def State.readable (s : State) (pa : Nat) : Bool :=
  match place pa with
  | .control => false
  | .far => s.farOk pa
  | _ => true

/-- What stands against the read of a table entry by a walk; none in the control region and in a peer window (DESIGN CHOICE, log 51). -/
def State.walkReads (s : State) (pa : Nat) : Option FarState :=
  match place pa with
  | .control => none
  | _ =>
    if (s.peer? pa).isSome then none
    else match s.farState pa with
      | .ok => some (if s.poisoned pa then .fail .uncorrectable else .ok)
      | r => some r

/-- Walks the tables from level `n - 1` (R375): a fault where an entry is absent, reserved or malformed. Level 0 maps 4 KiB. -/
def State.walkFrom (s : State) (va : Nat) : Nat → Nat → Walked
  | 0, _ => .fault
  | l + 1, ppn =>
    let a := ppn * 4096 + 8 * bits va (12 + 9 * l) 9
    match s.walkReads a with
    | none => .fault
    | some .wait => .wait
    | some (.fail c) => .fail c a
    | some .ok =>
      let x := s.readNat a 8
      let pte : DWord := BitVec.ofNat 64 x
      let leaf := bit x 1 || bit x 3
      if !bit x 0 || (bit x 2 && !bit x 1) || bits x 59 2 ≠ 0 || bits x 54 2 ≠ 0 then .fault
      else if leaf then
        if bits x 61 2 = 3 || (bit x 63 && (l ≠ 0 || bits x 10 4 ≠ 8 || bit x 56)) then .fault
        else if bit x 56 && l ≠ 0 then .fault
        else if !bit x 56 && bits x 10 (9 * l) ≠ 0 then .fault
        else .leaf l pte
      else if bit x 63 || bits x 61 2 ≠ 0 || bits x 56 3 ≠ 0 then .fault
      else State.walkFrom s va l (bits x 10 44)

/-- The five-level walk of a root. -/
def State.walk (s : State) (root : Nat) (va : DWord) : Walked := s.walkFrom va.toNat 5 root

/-- A leaf allows an access (R376). -/
def pteAllows (acc : Acc) (pte : DWord) : Bool :=
  pte.getLsbD 4 && pte.getLsbD 6 &&
  match acc with
  | .load => pte.getLsbD 1
  | .store | .amo => pte.getLsbD 2 && pte.getLsbD 7
  | .fetch => pte.getLsbD 3

/-- The physical address that a leaf gives; a NAPOT leaf takes address bits [15:12]. -/
def leafAddr (level : Nat) (pte va : DWord) : Nat :=
  let ppn := bits pte.toNat 10 44
  let base := if pte.msb then (ppn - ppn % 16) + bits va.toNat 12 4 else ppn
  (base - base % 2 ^ (9 * level)) * 4096 + bits va.toNat 0 (12 + 9 * level)

/-- The ordering kind and the tensor-window bit of a leaf (R375). -/
def pteKind (pte : DWord) : BitVec 2 := pte.extractLsb' 57 2
def pteWindow (pte : DWord) : Bool := pte.getLsbD 56

/-- ASID and root page of a context. -/
def Context.asid (c : Context) : Nat := bits c.satp 44 16
def Context.root (c : Context) : Nat := bits c.satp 0 44

/-- `EA`[63:57] all equal `EA`[56] (R117). -/
def canonical (va : DWord) : Bool := va = (va.setWidth 57).signExtend 64

/-- The translation of an access through the core TLB: PAGE_FAULT where the entry or the walk refuses it, the exception of a read of the
tables that fails (R384, R393, R399), a wait while it is looked up (R376, R379). -/
def tlbLookup (acc : Acc) (va : DWord) : Act TlbEntry := fun s =>
  let c := s.me
  let (asid, root) := match s.ctx? c.ctxId with | some x => (x.asid, x.root) | none => (0, 0)
  match c.lookups.tlb.find? (·.covers asid va) with
  | some e => if pteAllows acc e.pte then .ok (e, s) else raise .pageFault va [] s
  | none =>
    match c.lookups.walkFaults.find? fun f => f.1 = acc && f.2.1 = asid && f.2.2.1 = bits va.toNat 12 45 && f.2.2.2.1 = s.now with
    | some f => raise f.2.2.2.2 va [] s
    | none => .error (.wait .memory (some (.walk acc asid root va)))

/-! ### Tile lookups -/

/-- An entry becomes the most recently used of a port's 256 (R10, R256). -/
def Core.useTile (c : Core) (port ea : Nat) (e : BitVec 128) : Core :=
  let old := c.lookups.tiles.getD port []
  let new := ((ea, e) :: old.filter (·.1 ≠ ea)).take 256
  { c with lookups := { c.lookups with tiles := c.lookups.tiles.setIfInBounds port new } }

/-- A tile-table entry through a port's tile cache: a miss costs 24 cycles (R256); one that was found outside RESIDENT
serves this one request. -/
def tileLookup (port ea : Nat) : Act (BitVec 128) := fun s =>
  let c := s.me
  match (c.lookups.tiles.getD port []).find? (·.1 = ea) with
  | some r => .ok (r.2, s.setMe (c.useTile port ea r.2))
  | none =>
    if c.lookups.tileDone.contains (port, ea) then
      .ok (s.tileEntry ea, s.setMe { c with lookups := { c.lookups with
        tileDone := c.lookups.tileDone.filter (· ≠ (port, ea)) } })
    else .error (.wait .memory (some (.tile port ea)))

/-- The same outside an instruction, for a core's port that serves D or an engine: none while the lookup goes on. -/
def State.tileFor (s : State) (p port ea : Nat) : Option (BitVec 128 × State) :=
  let c := s.cr p
  match (c.lookups.tiles.getD port []).find? (·.1 = ea) with
  | some r => some (r.2, s.setCr p (c.useTile port ea r.2))
  | none =>
    if c.lookups.tileDone.contains (port, ea) then
      some (s.tileEntry ea, s.setCr p { c with lookups := { c.lookups with
        tileDone := c.lookups.tileDone.filter (· ≠ (port, ea)) } })
    else none

/-- A tile-table entry has been looked up for a port, and `tileFor` gives it. -/
def State.tileKnown (s : State) (p port ea : Nat) : Bool :=
  (((s.cr p).lookups.tiles.getD port []).any fun r => r.1 = ea) || (s.cr p).lookups.tileDone.contains (port, ea)

/-- A lookup of a core's port for D or an engine is in progress. -/
def State.tileAsked (s : State) (p port ea : Nat) : Bool := (s.cr p).lookups.tileReqs.any fun r => r.1 = port && r.2.1 = ea

/-- Starts that lookup: 24 cycles (R20); none where it is in progress. -/
def State.tileAsk (s : State) (p port ea : Nat) : Option State :=
  let c := s.cr p
  if s.tileAsked p port ea then none
  else some (s.setCr p { c with lookups := { c.lookups with tileReqs := c.lookups.tileReqs ++ [(port, ea, s.now + 24)] } })

/-- Word 3 of the record of a tensor access (R388): the address of the tile-table entry, marked by bit 62. -/
def tileInfo (ea : Nat) : DWord := BitVec.ofNat 64 (2 ^ 62 + ea)

/-- The address that a refusal logs, which is word 3 of the record too: the virtual one of a linear or window access, given by `info`,
the device physical one of a tensor access, whose `info` is `tileInfo` (R388, R392). -/
def loggedAddr (info : DWord) (pa : Nat) : DWord := if info.getLsbD 62 && !info.msb then BitVec.ofNat 64 pa else info

/-- The tile-table entry of a block for one access: UNCORRECTABLE where its line is poisoned (R393), TILE_FAULT with word 3 of `info`
where it is not valid. -/
def validTile (port ea : Nat) (info : DWord) : Act (BitVec 128) := do
  let e ← tileLookup port ea
  let s ← get
  let at_ := loggedAddr info ea
  if s.poisoned ea then refuse .uncorrectable at_ (s.unitOf ea) 0x08 at_ true
  require (tileOk e) .tileFault info
  return e

/-- The place of a block's byte by its entry, for one access; a wait where an exchange, a migration or a link makes it wait (R258,
R260, R386, R399). -/
def entrySpot (ea : Nat) (e : BitVec 128) (off : Nat) (info : DWord) : Act Nat := do
  let s ← get
  match s.spot ea e off with
  | some pa => match (if (s.peer? pa).isSome then .ok else s.farState pa) with
    | .ok => pure pa
    | .wait => wait .memory
    | .fail c =>
      let at_ := loggedAddr info pa
      refuse c at_ (s.unitOf pa) (if c = .accessViolation then 0x03 else 0) at_
  | none => wait .memory

/-- The entry of a block and the place of one byte. -/
def blockSpot (port ea off : Nat) (info : DWord) : Act Nat := do
  let e ← validTile port ea info
  entrySpot ea e off info

/-! ### Layout-table entries -/

/-- A layout-table entry (R249). -/
structure Lay where
  ttbase : Nat
  nblkm1 : Nat
  str : List Nat
  ext : List Nat
  browl : Nat
  bcoll : Nat
  permM : Nat
  permS : Nat
  home : Nat
  nextm1 : Nat
  fmt : Nat
  deriving DecidableEq, Repr

/-- The fields of an entry. -/
def Lay.of (x : Nat) : Lay :=
  { ttbase := bits x 216 40, nblkm1 := bits x 192 24,
    str := [bits x 96 24, bits x 120 24, bits x 144 24, bits x 168 24],
    ext := [bits x 32 16, bits x 48 16, bits x 64 16, bits x 80 16],
    browl := bits x 20 4, bcoll := bits x 16 4, permM := bits x 12 4, permS := bits x 8 4,
    home := bits x 6 2, nextm1 := bits x 4 2, fmt := bits x 0 4 }

/-- The row pitch in bits and in bytes (R250). -/
def Lay.pitchBits (l : Lay) : Nat := 2 ^ l.bcoll * fmtWidth l.fmt
def Lay.pitch (l : Lay) : Nat := l.pitchBits / 8

/-- The entry is a valid tensor (R250). -/
def Lay.ok (x : Nat) (l : Lay) : Bool :=
  l.fmt ≤ 13 && bits x 24 8 = 0 && l.ext.all (· < 2 ^ 15) &&
  (l.ext.take (l.nextm1 + 1)).all (· ≠ 0) && (l.ext.drop (l.nextm1 + 1)).all (· = 0) &&
  l.pitchBits % 8 = 0 && 2 ^ l.browl * l.pitch ≤ 32768

/-- The entry of a layout index in a context, as a number. -/
def State.layRaw (s : State) (c : Context) (i : Nat) : Nat := s.readNat (c.ltab + 32 * i) 32

/-- The tile-table entry of a block (R251). -/
def Lay.entry (l : Lay) (b : Nat) : Nat := l.ttbase * 2 ^ 16 + 16 * b

/-! ### Linear accesses -/

/-- Where a linear access goes, its ordering kind (R117), and the storage level (R299). -/
structure Target where
  pa : Nat
  kind : BitVec 2
  level : Nat
  /-- It is a byte of a block, through a tensor window. -/
  win : Bool
  deriving DecidableEq, Repr

/-- Bytes of a frame that a spill area pins (R276, R373). -/
def State.pinned (s : State) (pa : Nat) : Bool := (s.tag pa).pin

/-- The checks of the controller that holds the accessed bytes, made last (R117, R378): the control region, an unmapped
granule, a port that is down (R399), and for a write a table frame or a pinned one. A granule that is DRAINING makes the
access wait (R386). -/
def controller (acc : Acc) (va : DWord) (pa : Nat) : Act Unit := do
  let s ← get
  let yard := isYard s.core
  let u := s.unitOf pa
  match place pa with
  | .control => if yard then pure () else refuse .accessViolation va 2094 0x03
  | .far =>
    if (s.peer? pa).isSome then pure ()
    else match s.farState pa with
      | .ok => pure ()
      | .wait => wait .memory
      | .fail .accessViolation => refuse .accessViolation va u 0x03
      | .fail c => refuse c va u 0
  | _ => match s.farLink pa with
    | .fail c => refuse c va u 0
    | _ => pure ()
  if acc = .store || acc = .amo then
    if s.tableFrame pa && !yard then refuse .accessViolation va u 0x05
    if s.pinned pa then refuse .accessViolation va u 0x06

/-- The block byte that a tensor-window page names (R377): layout index, block, offset. -/
def windowPlace (pte va : DWord) : Nat × Nat × Nat :=
  let t := bits pte.toNat 22 32 * 4096 + bits va.toNat 0 12
  (bits pte.toNat 10 12, t / 32768, t % 32768)

/-- In determinism mode a store may go only to a declared output tensor (R36). -/
def State.outputOk (s : State) (lay : Nat) : Bool :=
  match s.me.task with
  | none => true
  | some t => match s.launch? t.launch with
    | none => true
    | some l => !l.hdr.getLsbD 36 || l.binds.any fun b => b.getLsbD 15 && bits b.toNat 0 12 = lay

/-- An access to a line of a near-store frame that a shunter has locked waits (R16), also where it names the frame by its address. -/
def lockedLine (pa : Nat) : Act Unit := do
  let s ← get
  ready (!s.lineLocked pa) .memory

/-- Resolves a linear access by the checks of R117 in their order. Yardmasters use device physical addresses (R376). -/
def resolve (acc : Acc) (va : DWord) (size : Nat) : Act Target := do
  require (va.toNat % size = 0) .alignment va
  let s ← get
  if isYard s.core then
    require (va.toNat < 2 ^ 56) .accessViolation va
    if place va.toNat = .control then
      if size ≠ 8 then refuse .accessViolation va 2094 0x0A
      if (ctlReg va.toNat).isNone then refuse .accessViolation va 2094 0x0B
    controller acc va va.toNat
    return ⟨va.toNat, if place va.toNat = .control then 1 else 0, s.level va.toNat, false⟩
  require (canonical va) .accessViolation va
  let e ← tlbLookup acc va
  let k := pteKind e.pte
  let u := 4 * s.core + 3
  if k = 3 then refuse .accessViolation va u 0x04
  if pteWindow e.pte then
    let (i, b, off) := windowPlace e.pte va
    let some c := s.ctx? s.me.ctxId | refuse .accessViolation va u 0x01
    let x := s.layRaw c i
    let l := Lay.of x
    let la := c.ltab + 32 * i
    if i < c.nlt && s.poisoned la then refuse .uncorrectable va u 0x08 va true
    if c.nlt ≤ i || 14 ≤ l.fmt || !l.ok x || l.nblkm1 < b then refuse .accessViolation va u 0x01
    let pa ← blockSpot 3 (l.entry b) off va
    if (acc = .store || acc = .amo) && !s.outputOk i then refuse .accessViolation va u 0x03
    controller acc va pa
    return ⟨pa, k, s.level pa, true⟩
  let pa := leafAddr e.level e.pte va
  lockedLine pa
  controller acc va pa
  return ⟨pa, k, s.level pa, false⟩

end Sys2Proof.Machine
end

