-- ==== Sys2Proof/Machine/Tensor.lean ====
section
/-! DEFINITION. Tensor operands: bindings, coordinates and their checks in the order of R158, the places of elements
(R251), the lines, columns and patterns that a load delivers (R162-R168), and requests to peers (R403-R406). -/

namespace Sys2Proof.Machine

/-! ### Requests to peers -/

/-- The transaction unit of a request: header, address, and for a write the data words (R403). -/
def requestUnit (op tag : Nat) (addr : Nat) (extra data : List DWord) : List DWord :=
  [BitVec.ofNat 64 (op * 2 ^ 60 + data.length * 2 ^ 54 + tag % 2 ^ 14 * 2 ^ 40), BitVec.ofNat 64 addr] ++ extra ++ data

/-- The bytes of words. -/
def wordsBytes (ws : List DWord) : List Byte := ws.flatMap fun w => valBytes 8 w.toNat

/-- The words of bytes, eight at a time. -/
def bytesWords : Nat → List Byte → List DWord
  | 0, _ => []
  | n + 1, bs => BitVec.ofNat 64 (bytesVal (bs.take 8)) :: bytesWords n (bs.drop 8)

/-- Queues a transaction unit for a link. -/
def State.sendUnit (s : State) (k : Nat) (u : List DWord) : State :=
  match s.links[k]? with
  | some l => { s with links := s.links.setIfInBounds k { l with backlog := l.backlog ++ [u] } }
  | none => s

/-- What has become of an owner's access to a peer. -/
inductive PeerState where
  | wait
  | done (data : List Byte)
  | failed (c : Cause)
  deriving DecidableEq, Repr

/-- The answer to an owner's request, if one has come. -/
def State.peerState (s : State) (o : PeerOwner) : PeerState :=
  match s.peerReqs.find? (·.owner = o) with
  | some r => match r.error, r.data with
    | some c, _ => .failed c
    | none, some d => .done d
    | none, none => .wait
  | none => .wait

/-- Forgets an owner's request. -/
def State.peerDrop (s : State) (o : PeerOwner) : State := { s with peerReqs := s.peerReqs.filter (·.owner ≠ o) }

/-- Whether a request of an owner stands. -/
def State.peerSent (s : State) (o : PeerOwner) : Bool := s.peerReqs.any (·.owner = o)

/-- Sends an owner's access to the peer of a window (R405, R406): `op` 0 read of `len` bytes, 1 write, 3 reducing write.
Where no link is usable it waits for one that trains, or fails with LINK_LOST. -/
def State.peerSend (s : State) (o : PeerOwner) (e : DWord × DWord) (op pa len : Nat) (extra : List DWord)
    (data : List Byte) : State :=
  match s.peerLink e pa with
  | .inl (some k) =>
    match s.links[k]? with
    | some l =>
      let addr := pwRemote e * 2 ^ 30 + pa % 2 ^ 30
      let n := if op = 0 then ceilDiv len 8 else ceilDiv data.length 8
      let u := requestUnit op l.nextTag addr extra (if op = 0 then [] else bytesWords n data)
      let r : PeerReq := ⟨k, l.nextTag, o, none, none⟩
      let l' := { l with nextTag := (l.nextTag + 1) % 2 ^ 14 }
      let s := { s with links := s.links.setIfInBounds k l', peerReqs := s.peerReqs ++ [r] }
      s.sendUnit k (if op = 0 then u.set 0 (u.getD 0 0 ||| BitVec.ofNat 64 (n * 2 ^ 54)) else u)
    | none => s
  | .inr true => s
  | _ =>
    let r : PeerReq := ⟨0, 0, o, none, some .linkLost⟩
    { s with peerReqs := s.peerReqs ++ [r] }

/-! ### Bindings and coordinates -/

/-- The launch of the acting core's task, and its context. -/
def State.myLaunch (s : State) : Option Launch := match s.me.task with | some t => s.launch? t.launch | none => none
def State.myCtx (s : State) : Option Context := s.ctx? s.me.ctxId

/-- A bound object: layout index, the entry as a number, and its fields. -/
structure Bound where
  idx : Nat
  raw : Nat
  lay : Lay
  deriving DecidableEq, Repr

/-- Check 1 of R158: the binding (R346), the kind of object, and a valid entry (R250). Port `port` logs a refusal. -/
def binding (port : Nat) (region : Bool) (t : BitVec 6) : Act Bound := do
  let s ← get
  let u := 4 * s.core + port
  let some l := s.myLaunch | refuse .accessViolation 0 u 0x09
  let some c := s.myCtx | refuse .accessViolation 0 u 0x09
  let some b := l.binds[t.toNat]? | refuse .accessViolation 0 u 0x09
  let i := bits b.toNat 0 12
  if b.getLsbD 14 || c.nlt ≤ i then refuse .accessViolation 0 u 0x09
  let x := s.layRaw c i
  let lay := Lay.of x
  let addr := BitVec.ofNat 64 (c.ltab + 32 * i)
  if s.poisoned (c.ltab + 32 * i) then refuse .uncorrectable addr u 0x08 addr true
  if (lay.fmt = 15) != region then refuse .accessViolation addr u (if lay.fmt = 14 then 0x01 else 0x09)
  if !region && !lay.ok x then refuse .accessViolation addr u 0x01
  return ⟨i, x, lay⟩

/-- The four coordinates, as unsigned 16-bit numbers: a negative one exceeds every extent. -/
def coords (c : DWord) : List Nat := (List.range 4).map fun i => (coordEl c i).toNat

/-- Every coordinate is within its extent, and zero above the extent count (R158 check 3). -/
def Lay.inside (l : Lay) (e : List Nat) : Bool :=
  (List.range 4).all fun i => if i ≤ l.nextm1 then e.getD i 0 < l.ext.getD i 0 else e.getD i 0 = 0

/-- The block, byte offset and bit within the byte of an element (R251). -/
def Lay.place (l : Lay) (e : List Nat) : Nat × Nat × Nat :=
  let e0 := e.getD 0 0
  let e1 := e.getD 1 0
  let b := e0 / 2 ^ l.bcoll * l.str.getD 0 0 + e1 / 2 ^ l.browl * l.str.getD 1 0 + e.getD 2 0 * l.str.getD 2 0 +
    e.getD 3 0 * l.str.getD 3 0
  let k := e0 % 2 ^ l.bcoll * fmtWidth l.fmt
  (b, e1 % 2 ^ l.browl * l.pitch + k / 8, k % 8)

/-- The element is the first of its line (R162): the element before it in the block begins in another line. -/
def Lay.lineStart (l : Lay) (e : List Nat) : Bool :=
  let c := e.getD 0 0 % 2 ^ l.bcoll
  let r := e.getD 1 0 % 2 ^ l.browl
  let at_ := fun (r c : Nat) => (r * l.pitch + c * fmtWidth l.fmt / 8) / 256
  if c = 0 then r = 0 || at_ (r - 1) (2 ^ l.bcoll - 1) ≠ at_ r c else at_ r (c - 1) ≠ at_ r c

/-- Check 3 of R158: the coordinates within the tensor, and the block within it (R251). What fails has no place in memory, and is
logged with address zero (DEDUCED, log 105). -/
def inTensor (port : Nat) (b : Bound) (c : DWord) : Act (Nat × Nat × Nat) := do
  let s ← get
  let u := 4 * s.core + port
  let (blk, off, bitOff) := b.lay.place (coords c)
  if !b.lay.inside (coords c) || b.lay.nblkm1 < blk then refuse .accessViolation 0 u 0x02
  return (blk, off, bitOff)

/-! ### What loads deliver -/

/-- A row lies within the extents: in a tensor of one extent only row 0 does (R157, R158). -/
def Lay.rowInside (l : Lay) (r : Nat) : Bool := if 1 ≤ l.nextm1 then r < l.ext.getD 1 0 else r = 0

/-- Zeroes the elements of a delivered line that lie outside the tensor's extents (R162); `e` is an element of the
block. -/
def Lay.mask (l : Lay) (e : List Nat) (line : Nat) (bs : List Byte) : List Byte :=
  let c0 := e.getD 0 0 / 2 ^ l.bcoll * 2 ^ l.bcoll
  let r0 := e.getD 1 0 / 2 ^ l.browl * 2 ^ l.browl
  let rowBits := 8 * l.pitch
  let out := fun (g : Nat) =>
    let r := g / rowBits
    r < 2 ^ l.browl &&
      (l.ext.getD 0 0 ≤ c0 + g % rowBits / fmtWidth l.fmt || !l.rowInside (r0 + r))
  (List.range 256).zipWith (fun i (b : Byte) => BitVec.ofNat 8 (b.toNat &&& pack 1 ((List.range 8).map fun j =>
    if out (2048 * line + 8 * i + j) then 0 else 1))) bs

/-- The place of a block's byte for a read that is in flight: as `spot`, but a SWAPPING block still reads at its own
frame, since the swap waits for this read (R260). -/
def State.spotLate (s : State) (ea off : Nat) : Option Nat :=
  let e := s.tileEntry ea
  if tState e = 1 then s.spot ea e off else some (tBase e + off)

/-- What a read has found. -/
inductive Got where
  | wait
  /-- The read needs a line of the peer that a window maps. -/
  | peer (e : DWord × DWord) (pa : Nat)
  | lost (c : Cause)
  | data (bs : List Byte) (poison : Bool)
  deriving DecidableEq, Repr

/-- Joins two results in order. -/
def Got.append : Got → Got → Got
  | .data a p, .data b q => .data (a ++ b) (p || q)
  | .data _ _, x => x
  | x, _ => x

/-- Reads bytes of one line by address; a line behind a peer window is what the peer has returned to `own` of its line
number. -/
def State.readAt (s : State) (own : Nat → PeerOwner) (pa n : Nat) : Got :=
  match s.peer? pa with
  | some e => match s.peerState (own (pa / 256)) with
    | .done d => .data ((d.drop (pa % 256)).take n) false
    | .failed c => .lost c
    | .wait => if s.peerSent (own (pa / 256)) then .wait else .peer e (pa / 256 * 256)
  | none => match s.farLink pa with
    | .ok => if place pa = .far && !s.farOk pa then .lost .accessViolation else .data (s.readBytes pa n) (s.poisoned pa)
    | .wait => .wait
    | .fail c => .lost c

/-- Reads `n` bytes of a block from `off`, split at lines. -/
def State.readBlock (s : State) (own : Nat → PeerOwner) (ea off n : Nat) : Got :=
  let part := fun (o k : Nat) => match s.spotLate ea o with
    | some pa => s.readAt own pa k
    | none => .wait
  let first := min n (256 - off % 256)
  if first = n then part off n else (part off first).append (part (off + first) (n - first))

/-- The elements of a column from an element, one per row, `w` bytes each: those past the extent are zero (R163). -/
def State.readColumn (s : State) (own : Nat → PeerOwner) (l : Lay) (c : DWord) (w : Nat) : Nat → Nat → Got
  | 0, _ => .data [] false
  | n + 1, j =>
    let e := coords c
    let e1 := e.getD 1 0 + j
    let x := [e.getD 0 0, e1, e.getD 2 0, e.getD 3 0]
    let here := if l.inside x then
        let (b, off, _) := l.place x
        s.readBlock own (l.entry b) off w
      else .data (List.replicate w 0) false
    here.append (State.readColumn s own l c w n (j + 1))

/-- The layout-table entry of an index in a context is a valid tensor's (R250). -/
def State.layOk (s : State) (ctx i : Nat) : Bool :=
  match s.ctx? ctx with
  | some c => let x := s.layRaw c i; (Lay.of x).ok x
  | none => false

/-- The layout entry of an index in a context, and in that of a core. -/
def State.layIn (s : State) (ctx i : Nat) : Lay :=
  match s.ctx? ctx with
  | some c => Lay.of (s.layRaw c i)
  | none => Lay.of 0
def State.layOf (s : State) (p i : Nat) : Lay := s.layIn (s.cr p).ctxId i

/-- The line `k` lines after an element's, as a load delivers it. -/
def State.fetchLine (s : State) (own : Nat → PeerOwner) (p i : Nat) (c : DWord) (k : Nat) : Got :=
  let l := s.layOf p i
  let (b, off, _) := l.place (coords c)
  let line := off / 256 + k
  match s.readBlock own (l.entry b) (256 * line) 256 with
  | .data bs q => .data (l.mask (coords c) line bs) q
  | x => x

/-- What a load of stream A of core `p` delivers now. -/
def State.fetchLoad (s : State) (own : Nat → PeerOwner) (p : Nat) : ALoadKind → Got
  | .tld _ i c k => s.fetchLine own p i c k
  | .plane _ _ i c _ => s.fetchLine own p i c 0
  | .word i c =>
    let l := s.layOf p i
    let (b, off, _) := l.place (coords c)
    match s.readBlock own (l.entry b) (off / 256 * 256) 256 with
    | .data bs q => .data (((l.mask (coords c) (off / 256) bs).drop (off % 256 / 8 * 8)).take 8) q
    | x => x
  | .column _ i c => let l := s.layOf p i; let w := fmtWidth l.fmt / 8; s.readColumn own l c w (256 / w) 0
  | .planeColumn _ i c _ => let l := s.layOf p i; s.readColumn own l c (fmtWidth l.fmt / 8) 64 0
  | .pattern _ i c _ n =>
    let l := s.layOf p i
    let (b, off, _) := l.place (coords c)
    s.readBlock own (l.entry b) off n
  | .index i c n =>
    let l := s.layOf p i
    let (b, off, _) := l.place (coords c)
    s.readBlock own (l.entry b) off (4 * n)
  | .bfx _ _ pa pa2 _ =>
    if pa2 = 0 then s.readAt own pa 72
    else (s.readAt own pa (256 - pa % 256)).append (s.readAt own pa2 (72 - (256 - pa % 256)))

/-! ### Bit-field patterns (R105, R106) -/

/-- Fields of a pattern header: period, number of fields, lane width in bits, sign extension. -/
def patPeriod (r : BitVec 576) : Nat := bits r.toNat 0 7 + 1
def patFields (r : BitVec 576) : Nat := bits r.toNat 7 5 + 1
def patLane (r : BitVec 576) : Nat := 8 * 2 ^ bits r.toNat 13 2
def patSigned (r : BitVec 576) : Bool := r.getLsbD 12

/-- Offset and width of field `j`. -/
def patOff (r : BitVec 576) (j : Nat) : Nat := bits r.toNat (64 + 16 * j) 7
def patWidth (r : BitVec 576) (j : Nat) : Nat := bits r.toNat (64 + 16 * j + 7) 4 + 1

/-- A record that BFXCFG accepts (R105). -/
def patOk (r : BitVec 576) : Bool :=
  bits r.toNat 15 49 = 0 && bits r.toNat 13 2 ≠ 3 &&
  (List.range 32).all fun j =>
    if j < patFields r then
      bits r.toNat (64 + 16 * j + 11) 5 = 0 && patOff r j + patWidth r j ≤ patPeriod r && patWidth r j ≤ patLane r
    else bits r.toNat (64 + 16 * j) 16 = 0

/-- Whole periods in one entry and source bytes read (R165). -/
def patPeriods (r : BitVec 576) : Nat := min (256 / (patLane r / 8 * patFields r)) (2048 / patPeriod r)
def patBytes (r : BitVec 576) : Nat := ceilDiv (patPeriods r * patPeriod r) 8

/-- The entry that a TLDB delivers from its source bytes (R106, R165). -/
def patExtract (r : BitVec 576) (bs : List Byte) : Line :=
  let x := bytesVal bs
  ofLanes (patLane r) ((List.range (patPeriods r)).flatMap fun p => (List.range (patFields r)).map fun j =>
    let v := bits x (p * patPeriod r + patOff r j) (patWidth r j)
    if patSigned r then ofSigned (patLane r) (toSigned (patWidth r j) v) else v)

end Sys2Proof.Machine
end

