-- ==== Sys2Proof/Machine/Control.lean ====
section
/-! DEFINITION. The scalar instructions of stream C: the register and immediate ALU (R111-R114), branches and jumps
(R126-R128), FORK and JOIN (R130, R131), loops (R132-R135), TEND, HINT and TRAP (R149-R151), and NOP (R70). -/

namespace Sys2Proof.Machine

/-! ### The ALU (R111-R114) -/

/-- Shift and rotate amounts are B[5:0]. -/
def amount (b : DWord) : Nat := b.toNat % 64

/-- The number of one bits. -/
def ones (a : DWord) : Nat := ((List.range 64).filter a.getLsbD).length

/-- Leading zeros, 0-64. -/
def leadingZeros (a : DWord) : Nat := if a = 0 then 64 else 63 - ilog2 a.toNat

/-- Trailing zeros, 0-64. -/
def trailingZeros (a : DWord) : Nat := ((List.range 64).takeWhile fun i => !a.getLsbD i).length

/-- BEXT: the field of `n` = B[12:6] bits at `p` = B[5:0]. -/
def bext (a b : DWord) : DWord := BitVec.ofNat 64 (bits a.toNat (bits b.toNat 0 6) (bits b.toNat 6 7))

/-- A register ALU operation with its ready time (R108, R111). -/
def alu (i : Instr) (w : BitVec 2) (d a b : BitVec 5) (lat : Nat) (f : DWord → DWord → DWord) (s : State) :
    Host.Outcome State Fault Refusal :=
  run i w (do
    let x ← readS a
    let y ← readS b
    if lat = 0 then writeS d (f x y) else writeSLate d (f x y) lat) s

/-- An ALU operation of one register (R111, R113). -/
def aluImm (i : Instr) (w : BitVec 2) (d a : BitVec 5) (f : DWord → DWord) (s : State) :
    Host.Outcome State Fault Refusal :=
  run i w (do
    let x ← readS a
    writeS d (f x)) s

/-- NOP (R70). -/
def execNop (s : State) : Host.Outcome State Fault Refusal := run .nop 0 (pure ()) s

/-- ADD (R111). -/
def execAdd (w : BitVec 2) (d a b : BitVec 5) (s : State) : Host.Outcome State Fault Refusal :=
  alu (.add w d a b) w d a b 0 (fun a b => a + b) s

/-- SUB (R111). -/
def execSub (w : BitVec 2) (d a b : BitVec 5) (s : State) : Host.Outcome State Fault Refusal :=
  alu (.sub w d a b) w d a b 0 (fun a b => a - b) s

/-- MUL (R111). -/
def execMul (w : BitVec 2) (d a b : BitVec 5) (s : State) : Host.Outcome State Fault Refusal :=
  alu (.mul w d a b) w d a b 3 (fun a b => a * b) s

/-- MULH (R111). -/
def execMulh (w : BitVec 2) (d a b : BitVec 5) (s : State) : Host.Outcome State Fault Refusal :=
  alu (.mulh w d a b) w d a b 3 (fun a b => ((a.signExtend 128 * b.signExtend 128).extractLsb' 64 64)) s

/-- MULHU (R111). -/
def execMulhu (w : BitVec 2) (d a b : BitVec 5) (s : State) : Host.Outcome State Fault Refusal :=
  alu (.mulhu w d a b) w d a b 3 (fun a b => ((a.setWidth 128 * b.setWidth 128).extractLsb' 64 64)) s

/-- DIV (R111, R112). -/
def execDiv (w : BitVec 2) (d a b : BitVec 5) (s : State) : Host.Outcome State Fault Refusal :=
  alu (.div w d a b) w d a b 20 (fun a b => if b = 0 then BitVec.allOnes 64 else a.sdiv b) s

/-- DIVU (R111, R112). -/
def execDivu (w : BitVec 2) (d a b : BitVec 5) (s : State) : Host.Outcome State Fault Refusal :=
  alu (.divu w d a b) w d a b 20 (fun a b => if b = 0 then BitVec.allOnes 64 else a / b) s

/-- REM (R111, R112). -/
def execRem (w : BitVec 2) (d a b : BitVec 5) (s : State) : Host.Outcome State Fault Refusal :=
  alu (.rem w d a b) w d a b 20 (fun a b => if b = 0 then a else a.srem b) s

/-- REMU (R111, R112). -/
def execRemu (w : BitVec 2) (d a b : BitVec 5) (s : State) : Host.Outcome State Fault Refusal :=
  alu (.remu w d a b) w d a b 20 (fun a b => if b = 0 then a else a % b) s

/-- AND (R111). -/
def execAnd (w : BitVec 2) (d a b : BitVec 5) (s : State) : Host.Outcome State Fault Refusal :=
  alu (.and_ w d a b) w d a b 0 (fun a b => a &&& b) s

/-- OR (R111). -/
def execOr (w : BitVec 2) (d a b : BitVec 5) (s : State) : Host.Outcome State Fault Refusal :=
  alu (.or_ w d a b) w d a b 0 (fun a b => a ||| b) s

/-- XOR (R111). -/
def execXor (w : BitVec 2) (d a b : BitVec 5) (s : State) : Host.Outcome State Fault Refusal :=
  alu (.xor_ w d a b) w d a b 0 (fun a b => a ^^^ b) s

/-- ANDN (R111). -/
def execAndn (w : BitVec 2) (d a b : BitVec 5) (s : State) : Host.Outcome State Fault Refusal :=
  alu (.andn w d a b) w d a b 0 (fun a b => a &&& ~~~b) s

/-- SHL (R111). -/
def execShl (w : BitVec 2) (d a b : BitVec 5) (s : State) : Host.Outcome State Fault Refusal :=
  alu (.shl w d a b) w d a b 0 (fun a b => a <<< amount b) s

/-- SHR (R111). -/
def execShr (w : BitVec 2) (d a b : BitVec 5) (s : State) : Host.Outcome State Fault Refusal :=
  alu (.shr w d a b) w d a b 0 (fun a b => a >>> amount b) s

/-- SAR (R111). -/
def execSar (w : BitVec 2) (d a b : BitVec 5) (s : State) : Host.Outcome State Fault Refusal :=
  alu (.sar w d a b) w d a b 0 (fun a b => a.sshiftRight (amount b)) s

/-- ROL (R111). -/
def execRol (w : BitVec 2) (d a b : BitVec 5) (s : State) : Host.Outcome State Fault Refusal :=
  alu (.rol w d a b) w d a b 0 (fun a b => a.rotateLeft (amount b)) s

/-- MIN (R111). -/
def execMin (w : BitVec 2) (d a b : BitVec 5) (s : State) : Host.Outcome State Fault Refusal :=
  alu (.min_ w d a b) w d a b 0 (fun a b => if a.slt b then a else b) s

/-- MAX (R111). -/
def execMax (w : BitVec 2) (d a b : BitVec 5) (s : State) : Host.Outcome State Fault Refusal :=
  alu (.max_ w d a b) w d a b 0 (fun a b => if a.slt b then b else a) s

/-- MINU (R111). -/
def execMinu (w : BitVec 2) (d a b : BitVec 5) (s : State) : Host.Outcome State Fault Refusal :=
  alu (.minu w d a b) w d a b 0 (fun a b => if a.ult b then a else b) s

/-- MAXU (R111). -/
def execMaxu (w : BitVec 2) (d a b : BitVec 5) (s : State) : Host.Outcome State Fault Refusal :=
  alu (.maxu w d a b) w d a b 0 (fun a b => if a.ult b then b else a) s

/-- SLT (R111). -/
def execSlt (w : BitVec 2) (d a b : BitVec 5) (s : State) : Host.Outcome State Fault Refusal :=
  alu (.slt w d a b) w d a b 0 (fun a b => if a.slt b then 1 else 0) s

/-- SLTU (R111). -/
def execSltu (w : BitVec 2) (d a b : BitVec 5) (s : State) : Host.Outcome State Fault Refusal :=
  alu (.sltu w d a b) w d a b 0 (fun a b => if a.ult b then 1 else 0) s

/-- SEQ (R111). -/
def execSeq (w : BitVec 2) (d a b : BitVec 5) (s : State) : Host.Outcome State Fault Refusal :=
  alu (.seq w d a b) w d a b 0 (fun a b => if a = b then 1 else 0) s

/-- BEXT (R111). -/
def execBext (w : BitVec 2) (d a b : BitVec 5) (s : State) : Host.Outcome State Fault Refusal :=
  alu (.bext w d a b) w d a b 0 (fun a b => bext a b) s

/-- CLZ (R111). -/
def execClz (w : BitVec 2) (d a : BitVec 5) (s : State) : Host.Outcome State Fault Refusal :=
  aluImm (.clz w d a) w d a (fun a => BitVec.ofNat 64 (leadingZeros a)) s

/-- CTZ (R111). -/
def execCtz (w : BitVec 2) (d a : BitVec 5) (s : State) : Host.Outcome State Fault Refusal :=
  aluImm (.ctz w d a) w d a (fun a => BitVec.ofNat 64 (trailingZeros a)) s

/-- POPC (R111). -/
def execPopc (w : BitVec 2) (d a : BitVec 5) (s : State) : Host.Outcome State Fault Refusal :=
  aluImm (.popc w d a) w d a (fun a => BitVec.ofNat 64 (ones a)) s

/-- ADDI (R113). -/
def execAddi (w : BitVec 2) (d a : BitVec 5) (imm : BitVec 13) (s : State) : Host.Outcome State Fault Refusal :=
  aluImm (.addi w d a imm) w d a (fun a => a + sx imm) s

/-- ANDI (R113). -/
def execAndi (w : BitVec 2) (d a : BitVec 5) (imm : BitVec 13) (s : State) : Host.Outcome State Fault Refusal :=
  aluImm (.andi w d a imm) w d a (fun a => a &&& sx imm) s

/-- ORI (R113). -/
def execOri (w : BitVec 2) (d a : BitVec 5) (imm : BitVec 13) (s : State) : Host.Outcome State Fault Refusal :=
  aluImm (.ori w d a imm) w d a (fun a => a ||| sx imm) s

/-- XORI (R113). -/
def execXori (w : BitVec 2) (d a : BitVec 5) (imm : BitVec 13) (s : State) : Host.Outcome State Fault Refusal :=
  aluImm (.xori w d a imm) w d a (fun a => a ^^^ sx imm) s

/-- SLTI (R113). -/
def execSlti (w : BitVec 2) (d a : BitVec 5) (imm : BitVec 13) (s : State) : Host.Outcome State Fault Refusal :=
  aluImm (.slti w d a imm) w d a (fun a => if a.slt (sx imm) then 1 else 0) s

/-- SLTIU (R113). -/
def execSltiu (w : BitVec 2) (d a : BitVec 5) (imm : BitVec 13) (s : State) : Host.Outcome State Fault Refusal :=
  aluImm (.sltiu w d a imm) w d a (fun a => if a.ult (sx imm) then 1 else 0) s

/-- SHLI (R113). -/
def execShli (w : BitVec 2) (d a : BitVec 5) (sh : BitVec 6) (s : State) : Host.Outcome State Fault Refusal :=
  aluImm (.shli w d a sh) w d a (fun a => a <<< sh.toNat) s

/-- SHRI (R113). -/
def execShri (w : BitVec 2) (d a : BitVec 5) (sh : BitVec 6) (s : State) : Host.Outcome State Fault Refusal :=
  aluImm (.shri w d a sh) w d a (fun a => a >>> sh.toNat) s

/-- SARI (R113). -/
def execSari (w : BitVec 2) (d a : BitVec 5) (sh : BitVec 6) (s : State) : Host.Outcome State Fault Refusal :=
  aluImm (.sari w d a sh) w d a (fun a => a.sshiftRight sh.toNat) s

/-- LI (R114): the immediate is `hi` above `imm`. -/
def execLi (w : BitVec 2) (d hi : BitVec 5) (imm : BitVec 13) (s : State) : Host.Outcome State Fault Refusal :=
  run (.li w d hi imm) w (writeS d (sx (hi ++ imm))) s

/-! ### Transfers (R64-R67) -/

/-- A line target, modulo the 57-bit virtual space (R126). -/
def lineTarget (line : DWord) (off : Int) : DWord :=
  ((line + BitVec.ofInt 64 (32 * off)).setWidth 57).signExtend 64

/-- Takes a transfer: it stands in the line with its target and acts at the line's end (R65). -/
def take (target : DWord) : Act Unit := fun s =>
  let c := s.me
  let st := c.lead s.stream
  let x := c.st st
  .ok ((), s.setMe (c.setSt st { x with bp := true, target := target }))

/-- The line that holds the acting instruction. -/
def ownLine : Act DWord := fun s => .ok ((s.me.st (s.me.lead s.stream)).line, s)

/-- A conditional branch of C (R126). -/
def branch (i : Instr) (w : BitVec 2) (a b : BitVec 5) (off : BitVec 13) (cond : DWord → DWord → Bool) (s : State) :
    Host.Outcome State Fault Refusal :=
  run i w (do
    let x ← readS a
    let y ← readS b
    let line ← ownLine
    if cond x y then take (lineTarget line off.toInt)) s

/-- BEQ (R126). -/
def execBeq (w : BitVec 2) (a b : BitVec 5) (off : BitVec 13) (s : State) : Host.Outcome State Fault Refusal :=
  branch (.beq w a b off) w a b off (fun a b => a = b) s

/-- BNE (R126). -/
def execBne (w : BitVec 2) (a b : BitVec 5) (off : BitVec 13) (s : State) : Host.Outcome State Fault Refusal :=
  branch (.bne w a b off) w a b off (fun a b => a ≠ b) s

/-- BLT (R126). -/
def execBlt (w : BitVec 2) (a b : BitVec 5) (off : BitVec 13) (s : State) : Host.Outcome State Fault Refusal :=
  branch (.blt w a b off) w a b off (fun a b => a.slt b) s

/-- BGE (R126). -/
def execBge (w : BitVec 2) (a b : BitVec 5) (off : BitVec 13) (s : State) : Host.Outcome State Fault Refusal :=
  branch (.bge w a b off) w a b off (fun a b => !a.slt b) s

/-- BLTU (R126). -/
def execBltu (w : BitVec 2) (a b : BitVec 5) (off : BitVec 13) (s : State) : Host.Outcome State Fault Refusal :=
  branch (.bltu w a b off) w a b off (fun a b => a.ult b) s

/-- BGEU (R126). -/
def execBgeu (w : BitVec 2) (a b : BitVec 5) (off : BitVec 13) (s : State) : Host.Outcome State Fault Refusal :=
  branch (.bgeu w a b off) w a b off (fun a b => !a.ult b) s

/-- JMPR (R127): ALIGNMENT at the JMPR if the address is not a line's. -/
def execJmpr (w : BitVec 2) (a : BitVec 5) (s : State) : Host.Outcome State Fault Refusal :=
  run (.jmpr w a) w (do
    let x ← readS a
    require (x.toNat % 32 = 0) .alignment x
    take x) s

/-- JMP (R128). -/
def execJmp (w : BitVec 2) (off : BitVec 23) (s : State) : Host.Outcome State Fault Refusal :=
  run (.jmp w off) w (do
    let line ← ownLine
    take (lineTarget line off.toInt)) s

/-- A queue as its producer or consumer sees it (R129): whether it is empty; QUEUE_MISUSE for any other stream. -/
def queueEmpty (q : BitVec 5) : Act Bool := do
  let s ← get
  let n := q.toNat
  if 16 ≤ n then
    let o := tokenOwners (n - 16)
    require (s.stream = o.1 || s.stream = o.2) .queueMisuse
    return (s.me.tokens.getD (n - 16) []).isEmpty
  require (s.stream = queueProducer n || s.stream = queueConsumer n) .queueMisuse
  if s.stream = queueConsumer n then return ((s.me.q n).poppable s.now).isEmpty
  return (s.me.q n).occupied = 0

/-- BQZ (R129). -/
def execBqz (w : BitVec 2) (q : BitVec 5) (off : BitVec 13) (s : State) : Host.Outcome State Fault Refusal :=
  run (.bqz w q off) w (do
    let e ← queueEmpty q
    let line ← ownLine
    if e then take (lineTarget line off.toInt)) s

/-- BQNZ (R129). -/
def execBqnz (w : BitVec 2) (q : BitVec 5) (off : BitVec 13) (s : State) : Host.Outcome State Fault Refusal :=
  run (.bqnz w q off) w (do
    let e ← queueEmpty q
    let line ← ownLine
    if !e then take (lineTarget line off.toInt)) s

/-! ### FORK and JOIN -/

/-- FORK (R130): takes effect at the end of its line, where C goes on at the next line. -/
def execFork (w : BitVec 2) (mask : BitVec 3) (offa offk offd : BitVec 16) (s : State) : Host.Outcome State Fault Refusal :=
  run (.fork w mask offa offk offd) w (do
    let line ← ownLine
    let t := fun (o : BitVec 16) => lineTarget line o.toInt
    modCore fun c => { c with c := { c.c with fork := some (mask, t offa, t offk, t offd) } }
    take (lineTarget line 1)) s

/-- JOIN (R131): records the arrival, and the stream stops issuing: it stands at its JOIN until the join completes. -/
def execJoin (w : BitVec 2) (f : BitVec 3) (s : State) : Host.Outcome State Fault Refusal :=
  run (.join w f) w (do
    let s ← get
    let c := s.me
    require (allStreams.all fun st => match (c.st st).jn with | some g => g = f | none => true) .illegalInstruction
    modCore fun c => c.setSt s.stream { c.st s.stream with jn := some f }) s

/-! ### Loops -/

/-- Replaces a level of a loop unit. -/
def StreamState.setLevel (x : StreamState) (n : Nat) (l : LoopLevel) : StreamState :=
  { x with loops := x.loops.setIfInBounds n l }

/-- A scalar source of the acting stream: an s, a, d or K scalar register. -/
def readOwn (r : BitVec 5) : Act DWord := do
  let s ← get
  match s.stream with
  | .c => readS r
  | .k => readK r
  | st => return s.me.getAD st r

/-- A level's strides are cleared in a stream's unit. -/
def StreamState.noStrides (x : StreamState) (n : Nat) : StreamState := x.setLevel n { x.loops.getD n {} with strides := [] }

/-- A LOOP of stream `st` clears the level's strides (R135): in joined mode those of every stream act with C's level. -/
def Core.noStrides (c : Core) (st : Stream) (n : Nat) : Core :=
  let f := fun (x : StreamState) => if st = .c && (!c.forked || x.out) then x.noStrides n else x
  { c with a := f c.a, k := f c.k, d := f c.d }

/-- LOOP (R132, R133): the level is active at once; a count of 0 moves past the end line at this line's end. -/
def execLoop (w : BitVec 2) (level : BitVec 3) (cr : BitVec 1) (creg : BitVec 5) (count endl : BitVec 16) (s : State) :
    Host.Outcome State Fault Refusal :=
  run (.loop w level cr creg count endl) w (do
    let n : Word ← if cr = 1 then (do let v ← readOwn creg; pure (v.setWidth 32)) else pure (count.setWidth 32)
    let line ← ownLine
    let stop := lineTarget line endl.toNat
    let s ← get
    let st := s.me.lead s.stream
    let x := s.me.st st
    let l : LoopLevel := ⟨n ≠ 0, n, 0, line, stop, []⟩
    let y := x.setLevel level.toNat l
    modCore fun c => (c.setSt st (if n = 0 then { y with skip := some (lineTarget stop 1) } else y)).noStrides st level.toNat) s

/-- LSTR (R135, R371): the stride waits in its slot of the level in the stream's own unit; in joined mode it acts with C's
level. -/
def execLstr (w : BitVec 2) (d : BitVec 5) (slot : BitVec 2) (level : BitVec 3) (pair : BitVec 1) (imm : BitVec 32)
    (s : State) : Host.Outcome State Fault Refusal :=
  run (.lstr w d slot level pair imm) w (do
    let s ← get
    let x := s.me.st s.stream
    let l := x.loops.getD level.toNat {}
    let e : Stride := ⟨true, imm, pair = 1, s.stream = .a || s.stream = .d, d⟩
    let full := l.strides ++ List.replicate (4 - l.strides.length) ({} : Stride)
    modCore fun c => c.setSt s.stream (x.setLevel level.toNat { l with strides := setAt full slot.toNat e })) s

/-! ### Task end, hints and traps -/

/-- TEND (R34, R149): the task ends with its line, and C's position stays at the TEND. -/
def execTend (w : BitVec 2) (s : State) : Host.Outcome State Fault Refusal :=
  run (.tend w) w (do
    let line ← ownLine
    let lane := (← get).laneNo
    modCore fun c => { c with c := { c.c with ended := true } }
    take (line ||| BitVec.ofNat 64 (lane % 8))) s

/-- HINT (R150): no architectural effect, and no fault; its register is read as every operand is. -/
def execHint (w : BitVec 2) (a : BitVec 5) (k : BitVec 4) (s : State) : Host.Outcome State Fault Refusal :=
  run (.hint w a k) w (do
    let _ ← readS a
    pure ()) s

/-- TRAP (R151): SOFTWARE with the code. The record names the next instruction, in joined mode the next lane of the line, so
the exception is taken (`takeTrap` with cause SOFTWARE) as soon as the position has advanced. -/
def execTrap (w : BitVec 2) (code : BitVec 8) (s : State) : Host.Outcome State Fault Refusal :=
  run (.trap w code) w (modCore fun c =>
    let s' := c.st s.stream
    c.setSt s.stream { s' with swTrap := some code }) s

end Sys2Proof.Machine
end

