-- ==== Sys2Proof/Machine/LinearMem.lean ====
section
/-! DEFINITION. Linear memory of stream C and of the yardmasters: loads and stores (R116-R118), the literals of LI64
(R115), fences (R124, R125), and what orders the accesses in flight (R299-R309). -/

namespace Sys2Proof.Machine

/-! ### The order of accesses in flight -/

/-- An access of C that has issued and not yet taken place: what it does, and the storage mask of an atomic. -/
structure Pending where
  seq : Nat
  pa : Nat
  size : Nat
  kind : BitVec 2
  load : Bool
  store : Bool
  stm : Option (BitVec 3)
  /-- The storage level (R299); the read of a commit bit acquires (R308). -/
  level : Nat
  acq : Bool
  deriving DecidableEq, Repr

/-- The agents of an ordering operation's scope (R298). -/
inductive AgentSet where
  /-- The four streams of the issuing core, and the engines while they execute its commands. -/
  | core
  /-- Those of every core of its shed, and the shed's own engines and controllers. -/
  | shed
  /-- Every stream, yardmaster, engine and controller of the package. -/
  | package
  /-- The application cores, PCIe requesters and peers as well. -/
  | system
  deriving DecidableEq, Repr

/-- The set that a scope field names. -/
def scopeSet (scope : BitVec 2) : AgentSet :=
  if scope = 0 then .core else if scope = 1 then .shed else if scope = 2 then .package else .system

/-- An agent of the set other than the issuing stream can acquire what a store releases, by an atomic or by a load that a fence makes an
acquire (R307, R308): the other streams and the engines of a core have neither, so at `core` scope none can. -/
def AgentSet.acquires : AgentSet → Bool
  | .core => false
  | .shed | .package | .system => true

/-- The access of each kind of record in flight. -/
def LinLoad.access (l : LinLoad) : Pending := ⟨l.seq, l.pa, l.size, l.kind, true, false, none, l.level, l.acq⟩
def LinStore.access (x : LinStore) : Pending := ⟨x.seq, x.pa, x.size, x.kind, false, true, none, x.level, false⟩
def AmoReq.access (x : AmoReq) : Pending :=
  ⟨x.seq, x.pa, x.width / 8, x.kind, true, true, some (if (scopeSet x.scope).acquires then x.stm else 0), x.level, false⟩
def GbArrive.access (x : GbArrive) : Pending := ⟨x.seq, x.pa, 8, 0, true, true, some 7, x.level, false⟩

/-- The accesses of a core in flight; a load whose value is bound has taken place. -/
def Core.pending (c : Core) : List Pending :=
  (c.loads.filter (·.bound.isNone)).map LinLoad.access ++ c.stores.map LinStore.access ++ c.amos.map AmoReq.access ++
    c.gbArrives.map GbArrive.access

/-- A storage mask covers an access (R299). -/
def masks (m : BitVec 3) (x : Pending) : Bool := m.getLsbD x.level

/-- A fence covers an access by its page: UO pages only with `UO`, for every agent of the system (R305). -/
def FenceRec.reaches (f : FenceRec) (x : Pending) : Bool := x.kind ≠ 2 || (f.uo && scopeSet f.scope = .system)

/-- A fence orders an earlier access before a later one (R124, R309). Its mask covers the earlier one, but for the load that it turns
into an acquire. A release or an acquire orders where an agent of its scope can take the other side (R307); what it then orders
for the agents of its scope it orders for all, as a FENCE full does at every scope: a write becomes visible to every other
agent in the same instant (R302; DEDUCED, log 11). -/
def FenceRec.orders (f : FenceRec) (e x : Pending) : Bool :=
  e.seq < f.seq && f.seq ≤ x.seq && f.reaches e && f.reaches x && (f.kind = 0 || (scopeSet f.scope).acquires) &&
  (masks f.mask e || (f.kind ≠ 1 && f.last = some e.seq)) &&
  (if f.kind = 0 then true else if f.kind = 1 then x.store else e.load)

/-- The earlier access `e` must take place before `x`: they touch a common byte, except that a load reads its own core's store early
(R118) and that two loads of a UO page take any order (R302, R305); both are strongly ordered (R303); an atomic's acquire or
release covers the other (R119); `e` reads a commit bit, which acquires (R308); or a fence orders them. -/
def orders (fs : List FenceRec) (e x : Pending) : Bool :=
  e.seq < x.seq && (
    (e.pa < x.pa + x.size && x.pa < e.pa + e.size && !(!e.load && !x.store) && (e.store || x.store || e.kind ≠ 2)) ||
    (e.kind = 1 && x.kind = 1) ||
    (match e.stm with | some m => x.kind ≠ 2 && masks m x | none => false) ||
    (match x.stm with | some m => e.kind ≠ 2 && masks m e | none => false) ||
    (e.acq && x.kind ≠ 2) ||
    fs.any fun f => f.orders e x)

/-- No earlier access holds an access back. -/
def Core.free (c : Core) (x : Pending) : Bool := !c.pending.any fun e => orders c.fences e x

/-- Fences behind which nothing is in flight order nothing more. -/
def Core.dropFences (c : Core) : Core :=
  { c with fences := c.fences.filter fun f => c.pending.any (·.seq < f.seq) }

/-- The bytes of a store. -/
def LinStore.bytes (x : LinStore) : List Byte := valBytes x.size x.val.toNat

/-- Bytes laid over those of a read of `n` bytes at `pa`. -/
def overlay (pa n : Nat) (bs : List Byte) (at_ : Nat) (new : List Byte) : List Byte :=
  (List.range n).map fun i =>
    if at_ ≤ pa + i && pa + i < at_ + new.length then new.getD (pa + i - at_) 0 else bs.getD i 0

/-- What memory gives a load of core `p`: on a UO page it may still be what stood there before another core's store, a free choice
until a fence of that core covers the store (R305; DESIGN CHOICE, log 4). -/
def State.memoryFor (s : State) (p : Nat) (kind : BitVec 2) (pa n : Nat) : List Byte :=
  let now := s.readBytes pa n
  let old := if kind = 2 then s.uoOld.filter fun o => o.core ≠ p && o.pa < pa + n && pa < o.pa + o.bytes.length else []
  match old[Config.delay s.choices % (old.length + 1)]? with
  | some o => overlay pa n now o.pa o.bytes
  | none => now

/-- An agent writes `n` bytes of a UO page: what the aligned 32-bit pieces were may still be read by others (R301, R305). -/
def State.uoWrite (s : State) (who pa n : Nat) : State :=
  let at_ := pa / 4 * 4
  { s with
    uoOld := s.uoOld ++ [⟨who, at_, s.readBytes at_ (ceilDiv (pa + n) 4 * 4 - at_)⟩], choices := s.choices + 1 }

/-- Older values of an agent's pieces are read no more: its fence with `UO` has made its write of them final (R305). -/
def State.uoFinal (s : State) (mine : UoOld → Bool) : State :=
  let old := fun (o : UoOld) => s.uoOld.any fun m => mine m && m.pa < o.pa + o.bytes.length && o.pa < m.pa + m.bytes.length
  { s with uoOld := s.uoOld.filter fun o => !old o }

/-- A store of core `p` to a UO page takes place: what it replaces may still be read by others, unless a fence with `UO` follows it,
which makes it final (R305). -/
def State.keepOld (s : State) (p : Nat) (x : LinStore) : State :=
  if x.kind ≠ 2 then s
  else if (s.cr p).uoFence ≤ x.seq then s.uoWrite p x.pa x.size
  else
    let at_ := x.pa / 4 * 4
    { s with uoOld := s.uoOld.filter fun o => !(at_ < o.pa + o.bytes.length && o.pa < x.pa + x.size) }

/-- The bytes that a load of core `p` finds: memory, overlaid by its own core's earlier stores in program order (R118). -/
def State.loadBytes (s : State) (p : Nat) (l : LinLoad) : List Byte :=
  (s.cr p).stores.foldl (fun bs x => if x.seq < l.seq then overlay l.pa l.size bs x.pa x.bytes else bs)
    (s.memoryFor p l.kind l.pa l.size)

/-- The register value of a load's bytes (R116). -/
def loadValue (size : Nat) (signed : Bool) (bs : List Byte) : DWord :=
  BitVec.ofNat 64 (if signed then ofSigned 64 (toSigned (8 * size) (bytesVal bs)) else bytesVal bs)

/-- Takes one access in flight of core `p` to its home at once, if nothing holds it back and it needs no other device: a
store becomes visible, a load binds its value. -/
def State.performNow (s : State) (p : Nat) (x : Pending) : State :=
  let c := s.cr p
  let plain := (s.peer? x.pa).isNone && place x.pa ≠ .control && !(x.load && s.poisoned x.pa) && s.farLink x.pa = .ok
  if !plain || !c.free x then s
  else match c.stores.find? (·.seq = x.seq), c.loads.find? (·.seq = x.seq) with
    | some st, _ =>
      let t := ((s.keepOld p st).setCr p { c with stores := c.stores.filter (·.seq ≠ x.seq) }).writeBytes st.pa st.bytes
      t.dropPort3 (· = .store p x.seq)
    | none, some l =>
      if l.failed then s
      else
        let v := loadValue l.size l.signed (s.loadBytes p l)
        (s.setCr p { c with loads := c.loads.map fun k => if k.seq = l.seq then { k with bound := some v } else k }).dropPort3
          (· = .load p x.seq)
    | none, none => s

/-- The accesses of a core in flight in program order. -/
def Core.inOrder (c : Core) : List Pending := sortBy (·.seq) c.pending

/-- The address holds commit bits of a context (R34, R362). -/
def State.commitBitAt (s : State) (pa : Nat) : Bool :=
  s.ctxs.any fun x => x.2.cbm ≤ pa && pa < x.2.cbm + 2 ^ 24

/-! ### Loads and stores -/

/-- A linear load (R116-R118): checks, then the access is in flight and its register pending. -/
def linearLoad (i : Instr) (w : BitVec 2) (d a : BitVec 5) (imm : BitVec 13) (size : Nat) (signed : Bool) (s : State) :
    Host.Outcome State Fault Refusal :=
  run i w (do
    let x ← readS a
    let va := x + sx imm
    let t ← resolve .load va size
    let seq ← nextSeq
    modify fun s =>
      let (due, s) := s.loadDue true s.core t.pa (.load s.core seq) s.now 1
      let c := s.me.kill (.s d)
      let l : LinLoad :=
        { dst := if d = 0 then none else some d, va := va, pa := t.pa, size := size, signed := signed, kind := t.kind,
          seq := seq, due := due, issued := c.clk, level := t.level, acq := isYard s.core && s.commitBitAt t.pa
          win := t.win }
      s.setMe { c with loads := c.loads ++ [l] }) s

/-- The digest record of a store: identity, offset, length, data (R37). -/
def digestRecord (ident off : Nat) (data : List Byte) : List Byte :=
  valBytes 8 ident ++ valBytes 2 off ++ valBytes 2 data.length ++ data

/-- An entry of an error record (R394): kind 0 a linear range, 1 tensor blocks, 2 a range of a peer window. -/
def wroteEntry (kind start len : Nat) : DWord × DWord :=
  (BitVec.ofNat 64 (kind * 2 ^ 62 + start % 2 ^ 56), BitVec.ofNat 64 len)

/-- A linear store's record folds into the C digest at issue (R118). -/
def Core.foldC (c : Core) (peer : Bool) (va : DWord) (data : List Byte) : Core :=
  let ident := va.toNat / 32768 * 32768
  { c with
    c := { c.c with digest := crcBytes c.c.digest (digestRecord ident (va.toNat % 32768) data) }
    wrote := c.wrote ++ [wroteEntry (if peer then 2 else 0) va.toNat data.length] }

/-- A linear store (R116-R118): checks, then the store is in flight. -/
def linearStore (i : Instr) (w : BitVec 2) (d a : BitVec 5) (imm : BitVec 13) (size : Nat) (s : State) :
    Host.Outcome State Fault Refusal :=
  run i w (do
    let x ← readS a
    let v ← readS d
    let va := x + sx imm
    let t ← resolve .store va size
    let seq ← nextSeq
    modify fun s =>
      let (n, s) := s.delay
      let c := s.me.foldC (s.peer? t.pa).isSome va (valBytes size v.toNat)
      let st : LinStore :=
        { va := va, pa := t.pa, size := size, val := v, kind := t.kind, seq := seq, due := s.now + n, level := t.level
          win := t.win }
      s.setMe { c with stores := c.stores ++ [st] }) s

/-- LdB (R116). -/
def execLdB (w : BitVec 2) (d a : BitVec 5) (imm : BitVec 13) (s : State) : Host.Outcome State Fault Refusal :=
  linearLoad (.ldB w d a imm) w d a imm 1 true s

/-- LdBu (R116). -/
def execLdBu (w : BitVec 2) (d a : BitVec 5) (imm : BitVec 13) (s : State) : Host.Outcome State Fault Refusal :=
  linearLoad (.ldBu w d a imm) w d a imm 1 false s

/-- LdH (R116). -/
def execLdH (w : BitVec 2) (d a : BitVec 5) (imm : BitVec 13) (s : State) : Host.Outcome State Fault Refusal :=
  linearLoad (.ldH w d a imm) w d a imm 2 true s

/-- LdHu (R116). -/
def execLdHu (w : BitVec 2) (d a : BitVec 5) (imm : BitVec 13) (s : State) : Host.Outcome State Fault Refusal :=
  linearLoad (.ldHu w d a imm) w d a imm 2 false s

/-- LdW (R116). -/
def execLdW (w : BitVec 2) (d a : BitVec 5) (imm : BitVec 13) (s : State) : Host.Outcome State Fault Refusal :=
  linearLoad (.ldW w d a imm) w d a imm 4 true s

/-- LdWu (R116). -/
def execLdWu (w : BitVec 2) (d a : BitVec 5) (imm : BitVec 13) (s : State) : Host.Outcome State Fault Refusal :=
  linearLoad (.ldWu w d a imm) w d a imm 4 false s

/-- LdD (R116). -/
def execLdD (w : BitVec 2) (d a : BitVec 5) (imm : BitVec 13) (s : State) : Host.Outcome State Fault Refusal :=
  linearLoad (.ldD w d a imm) w d a imm 8 false s

/-- StB (R116). -/
def execStB (w : BitVec 2) (d a : BitVec 5) (imm : BitVec 13) (s : State) : Host.Outcome State Fault Refusal :=
  linearStore (.stB w d a imm) w d a imm 1 s

/-- StH (R116). -/
def execStH (w : BitVec 2) (d a : BitVec 5) (imm : BitVec 13) (s : State) : Host.Outcome State Fault Refusal :=
  linearStore (.stH w d a imm) w d a imm 2 s

/-- StW (R116). -/
def execStW (w : BitVec 2) (d a : BitVec 5) (imm : BitVec 13) (s : State) : Host.Outcome State Fault Refusal :=
  linearStore (.stW w d a imm) w d a imm 4 s

/-- StD (R116). -/
def execStD (w : BitVec 2) (d a : BitVec 5) (imm : BitVec 13) (s : State) : Host.Outcome State Fault Refusal :=
  linearStore (.stD w d a imm) w d a imm 8 s

/-! ### Literals -/

/-- A 32-byte line through a core's instruction cache (R10): a line not held is read and kept, the oldest of 4,096 lines
leaving (DESIGN CHOICE, log 18). -/
def State.icacheRead (s : State) (p pa : Nat) : ILine × State :=
  let c := s.cr p
  match c.lookups.icache.find? (·.1 = pa) with
  | some r => (r.2, s)
  | none =>
    let v : ILine := BitVec.ofNat 256 (bytesVal (s.readBytes pa 32))
    (v, s.setCr p { c with lookups := { c.lookups with icache := ((pa, v) :: c.lookups.icache).take 4096 } })

/-- The constant section of the acting task's image (R115): address and length. -/
def State.constants (s : State) : DWord × Nat :=
  match s.myLaunch with
  | some l => match s.kernels.find? fun k => k.ctx = l.ctx && k.hdr = l.khdr with
    | some k => (k.base, k.len)
    | none => (0, 0)
  | none => (0, 0)

/-- LI64 (R115): ready after 2 cycles. -/
def execLi64 (w : BitVec 2) (d : BitVec 5) (imm : BitVec 32) (s : State) : Host.Outcome State Fault Refusal :=
  run (.li64 w d imm) w (do
    let k := (← get).constants
    let va := k.1 + imm.setWidth 64
    require (imm.toNat % 8 = 0) .alignment va
    require (imm.toNat + 8 ≤ k.2) .accessViolation va
    let t ← resolve .load va 8
    let s ← get
    if s.poisoned t.pa then refuse .uncorrectable va (s.unitOf t.pa) 0x08
    let (v, s) := s.icacheRead s.core (t.pa / 32 * 32)
    set s
    writeSLate d (v.extractLsb' (8 * (t.pa % 32)) 64) 2) s

/-! ### Fences -/

/-- The last load in flight, which an acquire fence makes an acquire (R309). -/
def Core.lastLoad (c : Core) : Option Nat := ((c.inOrder.filter (·.load)).getLast?).map (·.seq)

/-- FENCE (R124, R309): the fence stands in the order of C's accesses. With `UO` it makes the stores before it final (R305). -/
def execFence (w : BitVec 2) (kind : BitVec 2) (uo : BitVec 1) (mask : BitVec 3) (scope : BitVec 2) (s : State) :
    Host.Outcome State Fault Refusal :=
  run (.fence w kind uo mask scope) w (modify fun s =>
    let c := s.me
    let f : FenceRec := ⟨kind, uo = 1, mask, scope, c.seq, c.lastLoad⟩
    let t := if uo = 1 then s.uoFinal (·.core = s.core) else s
    t.setMe { c with
      fences := c.fences ++ [f], seq := c.seq + 1, uoFence := if uo = 1 then c.seq else c.uoFence }) s

/-- FENCE.I (R125): lines fetched from now on see every store that C has made, so a later fetch waits for those still in flight
(`Core.fetchHeld`). -/
def execFenceI (w : BitVec 2) (s : State) : Host.Outcome State Fault Refusal :=
  run (.fenceI w) w (modCore fun c =>
    { c with seq := c.seq + 1, fenceI := c.seq, lookups := { c.lookups with icache := [] } }) s

/-- A store from before the latest FENCE.I has still to take place (R125). -/
def Core.fetchHeld (c : Core) : Bool := c.pending.any fun x => x.store && x.seq < c.fenceI

end Sys2Proof.Machine
end

