-- ==== Sys2Proof/Machine/Sync.lean ====
section
/-! DEFINITION. The synchronisation instructions of the common block (R136-R143) and C's queue instructions
(R144-R147). -/

namespace Sys2Proof.Machine

/-- The objects as the acting stream judges them (R136). -/
def viewed : Act Core := fun s => .ok (s.me.view s.stream s.now, s)

/-- Waits until a condition holds. A lane of a joined line that takes effect in parts has been judged before the first part
took effect (R62, R136). -/
def judge (b : Bool) (w : Wait) : Act Unit := fun s =>
  if b || (!s.me.forked && s.me.heldLine) then .ok ((), s) else .error (.wait w none)

/-! ### Flags (R137) -/

/-- FSET: sets a flag at the end of the cycle, releasing. -/
def execFset (w : BitVec 2) (f : BitVec 3) (s : State) : Host.Outcome State Fault Refusal :=
  run (.fset w f) w (defer true (.flag f true)) s

/-- FCLR: clears a flag, releasing. -/
def execFclr (w : BitVec 2) (f : BitVec 3) (s : State) : Host.Outcome State Fault Refusal :=
  run (.fclr w f) w (defer true (.flag f false)) s

/-- FWAIT: waits until the flag is set, or clear if `c` is 1; the flag is not changed. -/
def execFwait (w : BitVec 2) (c : BitVec 1) (f : BitVec 3) (s : State) : Host.Outcome State Fault Refusal :=
  run (.fwait w c f) w (do
    let v ← viewed
    judge (v.flags.getLsbD f.toNat = (c = 0)) (.object 5 f.toNat)) s

/-! ### Tokens (R138) -/

/-- TKSIG: gives a token at the end of the cycle, countable once the stream's earlier accesses are visible; waits at a
count of 63. -/
def execTksig (w : BitVec 2) (t : BitVec 3) (s : State) : Host.Outcome State Fault Refusal :=
  run (.tksig w t) w (do
    let s ← get
    require (s.stream = (tokenOwners t.toNat).1) .queueMisuse
    let v ← viewed
    ready ((v.tokens.getD t.toNat []).length < 63) (.object 1 t.toNat)
    let id ← nextSeq
    defer false (.give t id)
    defer true (.countable t id)) s

/-- TKWAIT: waits until the oldest token is countable, and takes it at the end of the cycle. -/
def execTkwait (w : BitVec 2) (t : BitVec 3) (s : State) : Host.Outcome State Fault Refusal :=
  run (.tkwait w t) w (do
    let s ← get
    require (s.stream = (tokenOwners t.toNat).2) .queueMisuse
    let v ← viewed
    ready (v.tokenReady t) (.object 1 t.toNat)
    defer false (.take t)) s

/-! ### Completion counters (R139) -/

/-- CNTSET: `COUNT` and `ERR` become 0. -/
def execCntset (w : BitVec 2) (n : BitVec 4) (s : State) : Host.Outcome State Fault Refusal :=
  run (.cntset w n) w (defer false (.cntSet n 0)) s

/-- CNTWAIT: waits until `COUNT` ≥ threshold, unsigned; `ERR` is not tested. -/
def execCntwait (w : BitVec 2) (n : BitVec 4) (t : BitVec 16) (s : State) : Host.Outcome State Fault Refusal :=
  run (.cntwait w n t) w (do
    let v ← viewed
    judge (t.toNat ≤ (v.counters.getD n.toNat 0).toNat % 2 ^ 31) (.object 2 n.toNat)) s

/-! ### Stage barriers (R140) -/

/-- BAR INIT: the count and phase are set and the arrivals cleared. -/
def execBarInit (w : BitVec 2) (n : BitVec 4) (cnt : BitVec 6) (ph : BitVec 1) (s : State) :
    Host.Outcome State Fault Refusal :=
  run (.barInit w n cnt ph) w (defer false (.barInit n cnt.toNat (ph = 1))) s

/-- BAR ARV: one arrival, releasing. -/
def execBarArv (w : BitVec 2) (n : BitVec 4) (s : State) : Host.Outcome State Fault Refusal :=
  run (.barArv w n) w (defer true (.barArv n)) s

/-- BAR WAIT: waits until the phase bit differs from `PH`. -/
def execBarWait (w : BitVec 2) (n : BitVec 4) (ph : BitVec 1) (s : State) : Host.Outcome State Fault Refusal :=
  run (.barWait w n ph) w (do
    let v ← viewed
    judge ((v.bars.getD n.toNat {}).phase ≠ (ph = 1)) (.object 3 n.toNat)) s

/-! ### Markers and rendezvous (R142, R143) -/

/-- The engines behind which a stream's marker stands (R142). -/
def markerEngines : Stream → List Engine
  | .c => []
  | .a => [.a, .shunter, .codec]
  | .k => [.k]
  | .d => [.d]

/-- Places marker `n` behind an engine's commands: its bit clears until they have completed. -/
def Core.mark (c : Core) (e : Engine) (n : BitVec 5) (seq : Nat) : Core :=
  let c := c.setRetired e n false
  { c with markers := c.markers.filter (fun m => !(m.e = e && m.n = n)) ++ [⟨e, n, seq⟩] }

/-- MARK (R142). -/
def execMark (w : BitVec 2) (m : BitVec 5) (s : State) : Host.Outcome State Fault Refusal :=
  run (.mark w m) w (do
    let s ← get
    let seq ← nextSeq
    modCore fun c => (markerEngines s.stream).foldl (fun c e => c.mark e m seq) c) s

/-- RDVSET (R143): arms the register, whatever its state. -/
def execRdvset (w : BitVec 2) (z : BitVec 3) (eng m : BitVec 5) (s : State) : Host.Outcome State Fault Refusal :=
  run (.rdvset w z eng m) w (defer false (.rdvSet z m eng)) s

/-- RDVWAIT (R143): waits while ARMED; on FIRED it disarms; on DISARMED it proceeds at once. -/
def execRdvwait (w : BitVec 2) (z : BitVec 3) (s : State) : Host.Outcome State Fault Refusal :=
  run (.rdvwait w z) w (do
    let v ← viewed
    match v.rdvs.getD z.toNat .disarmed with
    | .armed _ _ => judge false (.object 6 z.toNat)
    | .fired => defer false (.rdvDisarm z)
    | .disarmed => pure ()) s

/-! ### C's queues (R144-R147) -/

/-- PUSHFMT (R144): the word goes to fq unchecked. -/
def execPushfmt (w : BitVec 2) (imm : BitVec 32) (s : State) : Host.Outcome State Fault Refusal :=
  run (.pushfmt w imm) w (pushQ 12 (imm.setWidth 2048)) s

/-- QPUSH (R145): sq0, sq1 or sq2; the push releases, so that the entry can be popped once C's earlier accesses have taken place. -/
def execQpush (w : BitVec 2) (q : BitVec 4) (n : BitVec 5) (s : State) : Host.Outcome State Fault Refusal :=
  run (.qpush w q n) w (do
    require (7 ≤ q.toNat && q.toNat ≤ 9) .queueMisuse
    let v ← readS n
    pushQ q.toNat (v.setWidth 2048)) s

/-- QPOP (R145): oq0 or oq1. -/
def execQpop (w : BitVec 2) (q : BitVec 4) (n : BitVec 5) (s : State) : Host.Outcome State Fault Refusal :=
  run (.qpop w q n) w (do
    require (10 ≤ q.toNat && q.toNat ≤ 11) .queueMisuse
    let v ← popQ q.toNat
    writeS n (v.setWidth 64)) s

/-- QSTAT (R146): entries written and not yet popped, as at the start of the cycle (R329), and the depth. -/
def execQstat (w : BitVec 2) (q : BitVec 4) (n : BitVec 5) (s : State) : Host.Outcome State Fault Refusal :=
  run (.qstat w q n) w (do
    let s ← get
    writeS n (BitVec.ofNat 64 ((s.me.q q.toNat).written s.now + queueDepth q.toNat * 2 ^ 32))) s

/-- CONT (R33, R147): a continuation record; the seventeenth of a task raises QUEUE_MISUSE. -/
def execCont (w : BitVec 2) (a b : BitVec 5) (s : State) : Host.Outcome State Fault Refusal :=
  run (.cont w a b) w (do
    let x ← readS a
    let p0 ← readS b
    let p1 ← readS (b + 1)
    let p2 ← readS (b + 2)
    let c ← core
    require (c.conts.length < 16) .queueMisuse
    modCore fun c => { c with conts := c.conts ++ [{ wid := x, p0 := p0, p1 := p1, p2 := p2 }] }) s

end Sys2Proof.Machine
end

