-- ==== Sys2Proof/Machine/Access.lean ====
section
/-! DEFINITION. The instructions of stream A but for its engine commands: coordinate arithmetic (R161), tensor loads
(R162-R166) and plane loads (R167, R168). -/

namespace Sys2Proof.Machine

/-! ### Coordinates (R161) -/

/-- Writes a coordinate register of A. -/
def putA (d : BitVec 5) (v : DWord) : Act Unit := modCore fun c => c.putAD .a d v

/-- Reads a source register of A. -/
def readA (r : BitVec 5) : Act DWord := do return (← core).getAD .a r

/-- Element-wise addition of the elements that `em` selects; every other element is `a`'s. -/
def addElements (a b : DWord) (em : BitVec 4) : DWord :=
  (List.range 4).foldl (fun v e => if em.getLsbD e then setEl v e (coordEl a e + coordEl b e) else v) a

/-- AADD. -/
def execAadd (w : BitVec 2) (d a b : BitVec 5) (em : BitVec 4) (s : State) : Host.Outcome State Fault Refusal :=
  run (.aadd w d a b em) w (do
    let x ← readA a
    let y ← readA b
    putA d (addElements x y em)) s

/-- AADDI. -/
def execAaddi (w : BitVec 2) (d a : BitVec 5) (e : BitVec 2) (imm : BitVec 11) (s : State) :
    Host.Outcome State Fault Refusal :=
  run (.aaddi w d a e imm) w (do
    let x ← readA a
    putA d (setEl x e.toNat (coordEl x e.toNat + imm.signExtend 16))) s

/-- The source of AMOV and ASET: a register, or a popped sq0 entry. -/
def sourceA (q : BitVec 1) (a : BitVec 5) : Act DWord := do
  if q = 1 then return (← popQ 7).setWidth 64
  readA a

/-- Element k of the result is the element of the source that selector k names. -/
def permute (x : DWord) (sel : BitVec 8) : DWord :=
  (List.range 4).foldl (fun v k => setEl v k (coordEl x (sel.extractLsb' (2 * k) 2).toNat)) 0

/-- AMOV. -/
def execAmov (w : BitVec 2) (d a : BitVec 5) (q : BitVec 1) (sel : BitVec 8) (s : State) :
    Host.Outcome State Fault Refusal :=
  run (.amov w d a q sel) w (do
    let x ← sourceA q a
    putA d (permute x sel)) s

/-- ASET. -/
def execAset (w : BitVec 2) (d a : BitVec 5) (e : BitVec 2) (rsh : BitVec 6) (q : BitVec 1) (lsh : BitVec 4) (s : State) :
    Host.Outcome State Fault Refusal :=
  run (.aset w d a e rsh q lsh) w (do
    let x ← sourceA q a
    let old ← readA d
    putA d (setEl old e.toNat ((x >>> rsh.toNat).setWidth 16 <<< lsh.toNat))) s

/-- ALI. -/
def execAli (w : BitVec 2) (d : BitVec 5) (pair : BitVec 1) (lo hi : BitVec 16) (s : State) :
    Host.Outcome State Fault Refusal :=
  run (.ali w d pair lo hi) w (do
    let old ← readA d
    putA d (setEl (setEl old (2 * pair.toNat) lo) (2 * pair.toNat + 1) hi)) s

/-! ### Line requests (R159) -/

/-- The port that the next line request of A takes: the requests of a bundle, or of a cycle in forked mode, take port 0, port 1, port 0
and so on in program order. -/
def Core.nextPort (c : Core) : Nat := c.aReqs % 2

/-- A request takes its port in cycle `enter` for `turns` cycles: requests beyond two take later cycles, and a port is busy while a
request of several turns takes them (R12, R159). The cycles beyond this one freeze a joined core or make A wait, but for a request
that has issued earlier (`late`). -/
def Core.takePort (c : Core) (port enter turns : Nat) (late : Bool) : Core :=
  let c := { c with ports := c.ports.setIfInBounds port (enter + turns) }
  if late then c else { c with aReqs := c.aReqs + 1, portHold := max c.portHold (enter + turns) }

/-- The address lies in the near store of a core. -/
def inNear (p pa : Nat) : Bool := match place pa with | .near q _ => q = p | _ => false

/-- A read request of load `id` of core `p` for its parts, one for each home (address and turns there): the cycles in which it enters
its port, and in which all of it has arrived. At another core's near store the turns are those of its port 3. -/
def State.request (s : State) (p id port : Nat) (late : Bool) (parts : List (Nat × Nat)) : Nat × Nat × State :=
  let c := s.cr p
  let enter := max s.now (c.ports.getD port 0)
  let own := ((parts.find? fun x => inNear p x.1).map (·.2)).getD 1
  let s := s.setCr p (c.takePort port enter own late)
  let (due, s) := parts.foldl (fun (r : Nat × State) x =>
    let (d, s) := r.2.loadDue false p x.1 (.aload p id) enter x.2
    (max r.1 d, s)) (0, s)
  (enter, due, s)

/-- The elements of a column within the extent: block and offset of each (R163). -/
def columnPlaces (l : Lay) (v : DWord) (n : Nat) : List (Nat × Nat) :=
  ((List.range n).map fun j =>
    let e := coords v
    [e.getD 0 0, e.getD 1 0 + j, e.getD 2 0, e.getD 3 0]).filterMap fun e =>
      if l.inside e then let (b, o, _) := l.place e; some (b, o) else none

/-- The distinct members of a list, in order of first place. -/
def distinct {α : Type} [DecidableEq α] (xs : List α) : List α :=
  xs.foldl (fun ys x => if ys.contains x then ys else ys ++ [x]) []

/-- The cycles of a read from one home: in a near store the most distinct chunks in any one bank, elsewhere one for each distinct line
(R12, R163); one for a single line. -/
def placeTurns (l : Lay) (near : Bool) (places : List (Nat × Nat)) : Nat :=
  if near then
    let chunks := distinct (places.map fun (b, o) => (b, o / 16))
    let bank := fun (x : Nat × Nat) => (x.2 % 16) ^^^ ((x.2 / 16 >>> l.permS) &&& l.permM)
    ((List.range 16).map fun k => (chunks.filter (bank · = k)).length).foldl max 1
  else (distinct (places.map fun (b, o) => (b, o / 256))).length

/-- Where blocks lie, as far as it sets the time of a read: the near store of a core, the yard of a shed, or far memory. -/
def homeOf (pa : Nat) : Nat × Nat :=
  match place pa with
  | .near q _ => (0, q)
  | .yard n => (1, n)
  | _ => (2, 0)

/-- The parts of a request by its places (block and offset) and their addresses. A column whose blocks lie at several homes asks each
for its part, in the order of their first rows; its request takes the port for the cycles of the own near store's part, and it has
arrived when the last part has (DEDUCED, log 89). -/
def Lay.parts (l : Lay) (found : List ((Nat × Nat) × Nat)) : List (Nat × Nat) :=
  (distinct (found.map fun x => homeOf x.2)).map fun h =>
    let here := found.filter fun x => homeOf x.2 = h
    ((here.map (·.2)).getD 0 0, placeTurns l (h.1 = 0) (here.map (·.1)))

/-- The read requests of a load of a tensor (R159, R162, R163, R165): the places of each. A pattern that spans two lines makes two. -/
def ALoadKind.requests (k : ALoadKind) (l : Lay) : List (List (Nat × Nat)) :=
  let line := fun (c : DWord) (n : Nat) => let (b, off, _) := l.place (coords c); [(b, off / 256 * 256 + 256 * n)]
  match k with
  | .tld _ _ c n => [line c n]
  | .word _ c => [line c 0]
  | .plane _ _ _ c _ => [line c 0]
  | .index _ c _ => let (b, off, _) := l.place (coords c); [[(b, off)]]
  | .pattern _ _ c _ n =>
    let (b, off, _) := l.place (coords c)
    [(b, off)] :: (if 256 < off % 256 + n then [line c 1] else [])
  | .column _ _ c => [columnPlaces l c (256 / (fmtWidth l.fmt / 8))]
  | .planeColumn _ _ c _ => [columnPlaces l c 64]
  | .bfx .. => []

/-- What a load finds of its part `j`: the bytes of one of the two lines of a pattern, else all of it. -/
def State.fetchPart (s : State) (own : Nat → PeerOwner) (p : Nat) (k : ALoadKind) (j : Nat) : Got :=
  match k with
  | .pattern _ i c _ n =>
    let l := s.layOf p i
    let (b, off, _) := l.place (coords c)
    let first := min n (256 - off % 256)
    if j = 0 then s.readBlock own (l.entry b) off first else s.readBlock own (l.entry b) (off + first) (n - first)
  | _ => s.fetchLoad own p k

/-- A load takes what the ports of its core's own near store read of it up to this cycle (R13). -/
def State.readParts (s : State) (p : Nat) (l : ALoad) : ALoad :=
  (l.reads.drop l.got.length).foldl (fun l t =>
    if t ≤ s.now then match s.fetchPart (fun k => .aload p l.id k) p l.kind l.got.length with
      | .data bs bad => { l with got := l.got ++ [(bs, bad)] }
      | _ => l
    else l) l

/-- The loads of a core whose ports read in this cycle take their data: what its earlier cycles have written, and nothing of its own
writes (R13). -/
def State.portReads (s : State) (p : Nat) : State :=
  let c := s.cr p
  s.setCr p { c with aloads := c.aloads.map fun l => if l.failed then l else s.readParts p l }

/-- The requests of load `id` of core `p`, the first through port `port`: the cycles in which ports of the own near store read it, none
where not all of it lies there, and the cycle of its arrival. -/
def State.requests (s : State) (p id port : Nat) (late : Bool) (l : Lay) (found : List (List ((Nat × Nat) × Nat))) :
    List Nat × Nat × State :=
  let own := found.all fun r => r.all fun x => inNear p x.2
  ((List.range found.length).zip found).foldl (fun (r : List Nat × Nat × State) x =>
    let (enter, due, s) := r.2.2.request p id ((port + x.1) % 2) late (l.parts x.2)
    (if own then r.1 ++ [enter] else [], max r.2.1 due, s)) ([], 0, s)

/-- Puts a load of the acting core in flight. -/
def putLoad (l : ALoad) : Act Unit := modify fun s =>
  let c := s.me
  s.setMe { c with aloads := c.aloads ++ [s.readParts s.core l] }

/-- Looks up the blocks of a request's places through its port (check 5 of R158): the address of each place. -/
def lookPlaces (b : Bound) (port : Nat) (places : List (Nat × Nat)) : Act (List ((Nat × Nat) × Nat)) := do
  let es ← (distinct (places.map (·.1))).mapM fun k => do
    return (k, ← validTile port (b.lay.entry k) (tileInfo (b.lay.entry k)))
  places.mapM fun x => do
    let ea := b.lay.entry x.1
    let e := ((es.find? (·.1 = x.1)).map (·.2)).getD 0
    return (x, ← entrySpot ea e x.2 (tileInfo ea))

/-- An entry that a core's port holds. -/
def Core.heldTile (c : Core) (port ea : Nat) : Option (BitVec 128) :=
  ((c.lookups.tiles.getD port []).find? (·.1 = ea)).map (·.2)

/-- How a place of a block stands by its tile-table entry as it is now: an exception, a wait, or the address (R258, R260, R386, R399). -/
inductive Stand where
  | bad (c : Cause) (info : DWord) (log : Option LogRec)
  | wait
  | at (pa : Nat)
  deriving DecidableEq, Repr

/-- The standing of byte `off` of a block, for an access outside an instruction. -/
def State.stand (s : State) (ea off : Nat) : Stand :=
  let e := s.tileEntry ea
  let pos := BitVec.ofNat 64 ea
  if s.poisoned ea then .bad .uncorrectable pos (some ⟨s.unitOf ea, 0x08, pos, true⟩)
  else if !tileOk e then .bad .tileFault (tileInfo ea) none
  else match s.spot ea e off with
    | none => .wait
    | some pa => match (if (s.peer? pa).isSome then .ok else s.farState pa) with
      | .ok => .at pa
      | .wait => .wait
      | .fail c => .bad c (BitVec.ofNat 64 pa) (some ⟨s.unitOf pa, if c = .accessViolation then 0x03 else 0, BitVec.ofNat 64 pa, false⟩)

/-- A forked load issues before its blocks are known, and only what needs its data waits (R20): a port does not hold an entry, or a block
makes it wait. An exception that stands already is taken at issue, after the lookup (R178; DESIGN CHOICE, log 108). -/
def State.looksFor (s : State) (l : Lay) (reqs : List (List (Nat × Nat))) : Bool :=
  let c := s.me
  let all := ((List.range reqs.length).zip reqs).flatMap fun r => r.2.map fun x => ((c.nextPort + r.1) % 2, l.entry x.1, x.2)
  c.forked &&
    all.all (fun x => match s.stand x.2.1 x.2.2 with | .bad .. => false | _ => true) &&
    !all.all fun x => (c.heldTile x.1 x.2.1).isSome && s.stand x.2.1 x.2.2 ≠ .wait

/-- Starts a load: its lookups, its requests, and the load in flight. A forked load that misses a tile cache issues at once, and its
lookup goes on for 24 cycles (R20, R256); one whose block makes it wait asks again until it may go on. -/
def startLoad (b : Bound) (kind : ALoadKind) : Act Unit := do
  let pos ← here
  let s ← get
  let c := s.me
  let reqs := kind.requests b.lay
  let load : ALoad := { kind := kind, id := c.seq, seq := c.seq, due := 0, reads := [], got := [], pos := pos, issued := c.clk }
  if s.looksFor b.lay reqs then
    let ports := (List.range reqs.length).map fun j => (c.nextPort + j) % 2
    let known := (ports.zip reqs).all fun r => r.2.all fun x => (c.heldTile r.1 (b.lay.entry x.1)).isSome
    let _ ← nextSeq
    modCore fun c => { c with aReqs := c.aReqs + reqs.length }
    putLoad { load with look := some (if known then s.now else s.now + 24, c.nextPort) }
  else
    let found ← ((List.range reqs.length).zip reqs).mapM fun r => lookPlaces b ((c.nextPort + r.1) % 2) r.2
    let id ← nextSeq
    let s ← get
    let (reads, due, s) := s.requests s.core id c.nextPort false b.lay found
    set s
    putLoad { load with due := due, reads := reads }

/-- Checks 1 and 3 of R158 for a load's operand, with the instruction's format rule between them: the tensor, its
coordinates, and the element's block, offset and bit. -/
def loadOperand (t : BitVec 6) (c : BitVec 4) (fmtOk : Nat → Bool) : Act (Bound × DWord × Nat × Nat × Nat) := do
  let k ← core
  let port := k.nextPort
  let b ← binding port false t
  require (fmtOk b.lay.fmt) .formatInvalid
  let v ← readA (c.setWidth 5)
  let (blk, off, bitOff) ← inTensor port b v
  return (b, v, blk, off, bitOff)

/-- The data queues that a tensor load may fill (R162, R163, R165). -/
def loadQueue (q : BitVec 4) : Bool := q.toNat ≤ 3 || q = 6

/-- The id that the next load takes: the sequence number that `startLoad` draws. -/
def nextId : Act Nat := do return (← core).seq

/-! ### Tensor loads -/

/-- TLD (R162). QUEUE_MISUSE for the queue comes before the checks of R158, and the wait for a free entry lies between checks 4 and 5
(DESIGN CHOICE, log 106). -/
def execTld (w : BitVec 2) (q : BitVec 4) (t : BitVec 6) (c : BitVec 4) (n : BitVec 1) (s : State) :
    Host.Outcome State Fault Refusal :=
  run (.tld w q t c n) w (do
    require (loadQueue q || q = 11) .queueMisuse
    let (b, v, _, off, _) ← loadOperand t c fun _ => true
    if q = 11 then
      reserveQ 11 1 (← nextId)
      startLoad b (.word b.idx v)
    else
      require (b.lay.lineStart (coords v) && !(n = 1 && off / 256 = 127)) .alignment
      reserveQ q.toNat 1 (← nextId)
      startLoad b (.tld q.toNat b.idx v 0)
      if n = 1 then
        reserveQ q.toNat 1 (← nextId)
        startLoad b (.tld q.toNat b.idx v 1)) s

/-- A column load (R163): the blocks that it touches lie within the tensor, then the load. -/
def loadColumn (b : Bound) (v : DWord) (n : Nat) (kind : ALoadKind) : Act Unit := do
  let u := 4 * (← get).core + (← core).nextPort
  if (columnPlaces b.lay v n).any fun (k, _) => b.lay.nblkm1 < k then refuse .accessViolation 0 u 0x02
  startLoad b kind

/-- Formats whose elements are whole bytes. -/
def wholeBytes (fmt : Nat) : Bool := fmtWidth fmt % 8 = 0

/-- TLD.T (R163). -/
def execTldT (w : BitVec 2) (q : BitVec 4) (t : BitVec 6) (c : BitVec 4) (s : State) :
    Host.Outcome State Fault Refusal :=
  run (.tldT w q t c) w (do
    require (loadQueue q) .queueMisuse
    let (b, v, _, _, _) ← loadOperand t c wholeBytes
    reserveQ q.toNat 1 (← nextId)
    loadColumn b v (256 / (fmtWidth b.lay.fmt / 8)) (.column q.toNat b.idx v)) s

/-- The pattern a TLDB names: it waits for a BFXCFG in flight (R164), in its own joined line too. -/
def patternOf (x : BitVec 2) : Act Pattern := do
  await (.x x)
  return (← core).regs.x.getD x.toNat {}

/-- TLDB (R165): a read that spans two lines makes two requests. -/
def execTldb (w : BitVec 2) (q : BitVec 4) (t : BitVec 6) (c : BitVec 4) (x : BitVec 2) (s : State) :
    Host.Outcome State Fault Refusal :=
  run (.tldb w q t c x) w (do
    require (loadQueue q) .queueMisuse
    let p ← patternOf x
    let (b, v, _, off, bitOff) ← loadOperand t c fun _ => p.loaded
    let n := patBytes p.record
    require (bitOff = 0 && off + n ≤ 32768) .alignment
    reserveQ q.toNat 1 (← nextId)
    startLoad b (.pattern q.toNat b.idx v p.record n)) s

/-- ILD (R166): `n` + 1 words into iq. -/
def execIld (w : BitVec 2) (t : BitVec 6) (c : BitVec 4) (n : BitVec 6) (s : State) : Host.Outcome State Fault Refusal :=
  run (.ild w t c n) w (do
    let k := n.toNat + 1
    let (b, v, _, off, _) ← loadOperand t c fun _ => true
    require (off % 4 = 0 && off % 256 + 4 * k ≤ 256) .alignment
    reserveQ iqCode k (← nextId)
    startLoad b (.index b.idx v k)) s

/-- One line read of BFXCFG in A's linear path: a request of port 3's linear class, or of its level (R164). A record behind a peer
window is asked for at once, ahead of every later store to it (R310). -/
def linearRequest (pa : Nat) : Act Nat := fun s =>
  if (s.peer? pa).isSome then .ok (s.now, s) else .ok (s.loadDue true s.core pa (.aload s.core s.me.seq) s.now 1)

/-- A record that can be read now and breaks R105 raises FORMAT_INVALID at issue, which is precise (R164, R178). -/
def patternReads (kind : ALoadKind) : Act Unit := do
  let s ← get
  match s.fetchLoad (fun k => .aload s.core 0 k) s.core kind with
  | .data bs false => require (patOk (BitVec.ofNat 576 (bytesVal bs))) .formatInvalid
  | _ => pure ()

/-- Puts a BFXCFG in flight: its record is read now (R164). -/
def startRecord (kind : ALoadKind) (due : Nat) : Act Unit := do
  let pos ← here
  let id ← nextSeq
  let s ← get
  putLoad { kind := kind, id := id, seq := id, due := due, reads := [s.now], got := [], pos := pos, issued := s.me.clk }

/-- BFXCFG (R164): the record is read now, and loaded when its last line returns. -/
def execBfxcfg (w : BitVec 2) (x : BitVec 2) (a : BitVec 5) (imm : BitVec 13) (s : State) :
    Host.Outcome State Fault Refusal :=
  run (.bfxcfg w x a imm) w (do
    let base ← readA a
    let va := base + sx imm
    let t ← resolve .load va 8
    let due ← linearRequest t.pa
    let first := 256 - va.toNat % 256
    if first < 72 then
      let t2 ← resolve .load (va + BitVec.ofNat 64 first) 8
      let due2 ← linearRequest t2.pa
      patternReads (.bfx x va t.pa t2.pa t.win)
      startRecord (.bfx x va t.pa t2.pa t.win) (max due due2)
    else
      patternReads (.bfx x va t.pa 0 t.win)
      startRecord (.bfx x va t.pa 0 t.win) due) s

/-! ### Plane loads (R167, R168) -/

/-- The plane pair belongs to the running context, or is claimed first; a claim that moves no line is done at once (R280). -/
def claimPlanes : Act Unit := do
  let s ← get
  let c := s.me
  if c.matrix.claims.any (·.what = 32) then wait .memory (some (.claim 32))
  if Sparse.get 0 c.matrix.owner 32 ≠ c.ctxId then
    if s.claimSaves s.core 32 ≠ 0 || s.claimLoads s.core 32 then wait .memory (some (.claim 32))
    modCore fun c => { c with matrix := { c.matrix with
      plane0 := {}, plane1 := {}, active1 := false, owner := Sparse.set 0 c.matrix.owner 32 c.ctxId } }

/-- MLDW (R167). -/
def execMldw (w : BitVec 2) (t : BitVec 6) (c : BitVec 4) (spa : BitVec 1) (m : BitVec 7) (s : State) :
    Host.Outcome State Fault Refusal :=
  run (.mldw w t c spa m) w (do
    let (b, v, _, _, _) ← loadOperand t c fun _ => true
    require (b.lay.lineStart (coords v)) .alignment
    claimPlanes
    startLoad b (.plane 0 m.toNat b.idx v (some (BitVec.ofNat 4 b.lay.fmt, spa = 1)))) s

/-- The dense pass depth of a format (R95). -/
def passDepth (fmt : Nat) : Nat := if fmtWidth fmt = 8 then 128 else if fmtWidth fmt < 8 then 256 else 64

/-- MLDW.T (R167). -/
def execMldwT (w : BitVec 2) (t : BitVec 6) (c : BitVec 4) (k : BitVec 7) (s : State) :
    Host.Outcome State Fault Refusal :=
  run (.mldwT w t c k) w (do
    let (b, v, _, _, _) ← loadOperand t c fun f => wholeBytes f && k.toNat < passDepth f
    claimPlanes
    loadColumn b v 64 (.planeColumn k.toNat b.idx v (BitVec.ofNat 4 b.lay.fmt))) s

/-- The tensor formats of a side area: FP16 scales, INT8 or UINT8 zero points, UINT8 metadata (R167). -/
def sideFormat (kind fmt : Nat) : Bool :=
  if kind = 0 then fmt = 4 else if kind = 1 then fmt = 10 || fmt = 11 else fmt = 11

/-- MLDS (R167). -/
def execMlds (w : BitVec 2) (t : BitVec 6) (c : BitVec 4) (kind : BitVec 2) (m : BitVec 7) (s : State) :
    Host.Outcome State Fault Refusal :=
  run (.mlds w t c kind m) w (do
    let (b, v, _, _, _) ← loadOperand t c (sideFormat kind.toNat)
    require (b.lay.lineStart (coords v)) .alignment
    claimPlanes
    startLoad b (.plane (kind.toNat + 1) m.toNat b.idx v none)) s

end Sys2Proof.Machine
end

