-- ==== Sys2Proof/Machine/Commands.lean ====
section
/-! DEFINITION. The issue of the engine commands of A and D: their checks (R158, R169-R176, R241-R243) and their entry
into the engine command queues (R170, R228). What the engines do is in `Engines`. -/

namespace Sys2Proof.Machine

/-- Runs a meaning whose earlier pops stay in effect when it raises (R232). -/
def keeping {α : Type} (keep : List (Nat × Option Nat)) (m : Act α) : Act α := fun s =>
  match m s with
  | .error (.trap c i k l) => .error (.trap c i (keep ++ k) l)
  | r => r

/-- A pop of sq2 into a coordinate register of D, if the bit is set (R232). -/
def popCoord (qc : BitVec 1) (c : BitVec 4) : Act Unit := do
  if qc = 1 then
    let v ← popQ 9
    modCore fun k => k.putAD .d (c.setWidth 5) (v.setWidth 64)

/-- The pops that the bit makes, for `keeping`. -/
def coordPop (qc : BitVec 1) (c : BitVec 4) : List (Nat × Option Nat) := if qc = 1 then [(9, some c.toNat)] else []

/-- The tokens that a stream's engine commands may name: `WAITT` and `SIGT` (R169, R231); 7 is none. -/
def commandTokens (st : Stream) (waitt sigt : BitVec 3) : Bool :=
  if st = .a then (waitt = 1 || waitt = 5 || waitt = 7) && (sigt = 0 || sigt = 4 || sigt = 7)
  else (waitt = 2 || waitt = 4 || waitt = 7) && (sigt = 3 || sigt = 5 || sigt = 7)

/-- What an instruction gives its engine command; the rest is filled at the push. -/
structure CmdSpec where
  kind : EngKind
  lay1 : Nat := 0
  c1 : DWord := 0
  lay2 : Nat := 0
  c2 : DWord := 0
  n : Nat := 0
  rb : Nat := 0
  idx : List Nat := []
  data : Line := 0
  queue : Nat := 0
  number : Nat := 0
  deriving DecidableEq, Repr

/-- The engine command queue of a stream has room: 16 entries of A, 8 of D (R170, R228). -/
def Core.commandRoom (c : Core) (st : Stream) : Bool := if st = .a then c.aq.length < 16 else c.dq.length < 8

/-- Queues a command with its tokens, counter and increment, and reserves its place in the stream's digest (R170, R180). A full command
queue is an object of kind 0, numbered 18 for A and 19 for D (DESIGN CHOICE, log 92). -/
def pushCommand (x : CmdSpec) (waitt sigt : BitVec 3) (cnt : BitVec 4) (inc : BitVec 8) : Act Unit := do
  let s ← get
  ready (s.me.commandRoom s.stream) (.object 0 (if s.stream = .a then 18 else 19))
  let pos ← here
  let seq ← nextSeq
  modify fun s =>
    let c := s.me
    let lq := match s.myLaunch with | some l => l.queue | none => 0
    let e : EngCmd :=
      { id := s.nextCmd, core := s.core, st := s.stream, kind := x.kind, lay1 := x.lay1, c1 := x.c1, lay2 := x.lay2,
        c2 := x.c2, n := x.n, rb := x.rb, idx := x.idx, data := x.data, waitt := waitt, sigt := sigt, cnt := cnt,
        inc := inc, task := c.task.getD {}, pos := pos, seq := seq, queue := x.queue, number := x.number, lq := lq }
    let r : DigestRec := { seq := seq, st := s.stream, ready := false, bytes := [] }
    let c := { c with digests := c.digests ++ [r] }
    let c := if s.stream = .a then { c with aq := c.aq ++ [e] } else { c with dq := c.dq ++ [e] }
    { s.setMe c with nextCmd := s.nextCmd + 1 }

/-- The operand's coordinates: the stream's coordinate register. -/
def commandCoord (c : BitVec 4) : Act DWord := do
  let s ← get
  return s.me.getAD s.stream (c.setWidth 5)

/-- A destination tensor that determinism mode lets the task write (R36): tested after the checks of R158 of every operand
(DESIGN CHOICE, log 91). -/
def mustBeOutput (b : Bound) : Act Unit := do
  let s ← get
  if !s.outputOk b.idx then refuse .accessViolation 0 (4 * s.core + 3) 0x03

/-- A block that an operand touches has a valid tile-table entry (R158 check 5); a block changing state is no fault. -/
def tileValid (port : Nat) (b : Bound) (blk : Nat) : Act Unit := do
  let _ ← validTile port (b.lay.entry blk) (tileInfo (b.lay.entry blk))

/-- An operand of an engine command with the elements that it names: none where a row lies beyond every extent. -/
structure Operand where
  port : Nat
  b : Bound
  places : List (Option DWord)

/-- Check 3 of R158 of an operand: blocks and byte offsets of its elements. -/
def Operand.extents (o : Operand) : Act (List (Nat × Nat)) := do
  let u := 4 * (← get).core + o.port
  o.places.mapM fun p => match p with
    | some v => do let (blk, off, _) ← inTensor o.port o.b v; pure (blk, off)
    | none => refuse .accessViolation 0 u 0x02

/-- Checks 3 to 5 of R158 for two operands (R158, R172, R174, R241): in the table's order, in each check the first operand first
(DEDUCED, log 90). `aligned` is the instruction's alignment rule of one element: operand, block offset. -/
def operandChecks (a b : Operand) (aligned : Operand → DWord → Nat → Bool) : Act Unit := do
  let xs ← a.extents
  let ys ← b.extents
  let fits := fun (o : Operand) (found : List (Nat × Nat)) =>
    (List.zip o.places found).all fun x => aligned o (x.1.getD 0) x.2.2
  require (fits a xs && fits b ys) .alignment
  (distinct (xs.map (·.1))).forM fun k => tileValid a.port a.b k
  (distinct (ys.map (·.1))).forM fun k => tileValid b.port b.b k

/-- Coordinates with their signed element 1 advanced by `n` (R157, R172); none outside 16 bits, which no extent reaches. -/
def advance (c : DWord) (n : Nat) : Option DWord :=
  let e := (coordEl c 1).toInt + n
  if 0 ≤ e && e < 2 ^ 16 then some (setEl c 1 (BitVec.ofInt 16 e)) else none

/-- Pops `n` entries of iq, waiting while fewer are ready (R172). -/
def popIndices (n : Nat) : Act (List Nat) := fun s =>
  let q := s.me.q iqCode
  let got := q.poppable s.now
  if got.length < n then .error (.wait (.object 0 iqCode) none)
  else
    let q' : CoreQueue := ⟨q.entries.drop n, q.pops + n, q.rpos + n⟩
    .ok ((got.take n).map fun v => v.toNat % 2 ^ 32, s.setMe (s.me.setQ iqCode q'))

/-- GATHER (R172). -/
def execGather (w : BitVec 2) (n : BitVec 6) (rb : BitVec 3) (t : BitVec 6) (c : BitVec 4) (t2 : BitVec 6)
    (c2 : BitVec 4) (waitt sigt : BitVec 3) (cnt : BitVec 4) (inc : BitVec 8) (s : State) :
    Host.Outcome State Fault Refusal :=
  run (.gather w n rb t c t2 c2 waitt sigt cnt inc) w (do
    require (commandTokens .a waitt sigt) .queueMisuse
    let k := n.toNat + 1
    let bytes := 16 * 2 ^ rb.toNat
    let idx ← popIndices k
    let a ← binding 0 false t
    let b ← binding 3 false t2
    require (fmtWidth a.lay.fmt = fmtWidth b.lay.fmt) .formatInvalid
    let v ← commandCoord c
    let v2 ← commandCoord c2
    operandChecks ⟨0, a, idx.map (advance v)⟩ ⟨3, b, (List.range k).map (advance v2)⟩ fun _ _ o => o % 256 + bytes ≤ 256
    mustBeOutput b
    pushCommand { kind := .gather, lay1 := a.idx, c1 := v, lay2 := b.idx, c2 := v2, n := k, rb := bytes, idx := idx }
      waitt sigt cnt inc) s

/-- An exchange command (R173): its two operands and its kind. R36 speaks of stores: an exchange that names a tensor outside the declared
outputs is not refused in determinism mode (DESIGN CHOICE, log 91). -/
def exchangeCommand (kind : EngKind) (t : BitVec 6) (c : BitVec 4) (t2 : BitVec 6) (c2 : BitVec 4) (waitt sigt : BitVec 3)
    (cnt : BitVec 4) (inc : BitVec 8) : Act Unit := do
  require (commandTokens .a waitt sigt) .queueMisuse
  let a ← binding 3 false t
  let b ← binding 3 false t2
  let v ← commandCoord c
  let v2 ← commandCoord c2
  operandChecks ⟨3, a, [some v]⟩ ⟨3, b, [some v2]⟩ fun _ _ _ => true
  pushCommand { kind := kind, lay1 := a.idx, c1 := v, lay2 := b.idx, c2 := v2 } waitt sigt cnt inc

/-- XCHG.P (R173). -/
def execXchgP (w : BitVec 2) (t : BitVec 6) (c : BitVec 4) (t2 : BitVec 6) (c2 : BitVec 4) (waitt sigt : BitVec 3)
    (cnt : BitVec 4) (inc : BitVec 8) (s : State) : Host.Outcome State Fault Refusal :=
  run (.xchgP w t c t2 c2 waitt sigt cnt inc) w (exchangeCommand .xchgP t c t2 c2 waitt sigt cnt inc) s

/-- XCHG.D (R173). -/
def execXchgD (w : BitVec 2) (t : BitVec 6) (c : BitVec 4) (t2 : BitVec 6) (c2 : BitVec 4) (waitt sigt : BitVec 3)
    (cnt : BitVec 4) (inc : BitVec 8) (s : State) : Host.Outcome State Fault Refusal :=
  run (.xchgD w t c t2 c2 waitt sigt cnt inc) w (exchangeCommand .xchgD t c t2 c2 waitt sigt cnt inc) s

/-- XFER (R174): `n` + 1 lines. -/
def execXfer (w : BitVec 2) (n : BitVec 7) (t : BitVec 6) (c : BitVec 4) (t2 : BitVec 6) (c2 : BitVec 4)
    (waitt sigt : BitVec 3) (cnt : BitVec 4) (inc : BitVec 8) (s : State) : Host.Outcome State Fault Refusal :=
  run (.xfer w n t c t2 c2 waitt sigt cnt inc) w (do
    require (commandTokens .a waitt sigt) .queueMisuse
    let k := n.toNat + 1
    let a ← binding 3 false t
    let b ← binding 3 false t2
    let v ← commandCoord c
    let v2 ← commandCoord c2
    operandChecks ⟨3, a, [some v]⟩ ⟨3, b, [some v2]⟩ fun x c o => x.b.lay.lineStart (coords c) && o / 256 + k ≤ 128
    mustBeOutput b
    pushCommand { kind := .xfer, lay1 := a.idx, c1 := v, lay2 := b.idx, c2 := v2, n := k } waitt sigt cnt inc) s

/-! ### Stash regions (R175, R284-R286) -/

/-- A region descriptor (R284). -/
structure Region where
  stw : Nat
  frame : Nat
  nslotm1 : Nat
  mode : Nat
  level : Nat
  ok : Bool
  deriving DecidableEq, Repr

/-- The fields of a descriptor; `ok` as R284 requires. -/
def Region.of (x : Nat) : Region :=
  { stw := bits x 203 53 * 8, frame := bits x 112 48, nslotm1 := bits x 96 16, mode := bits x 6 2, level := bits x 4 2,
    ok := bits x 160 43 = 0 && bits x 8 88 = 0 && (bits x 4 2 = 1 || bits x 4 2 = 2) }

/-- Code bits, group bytes, groups and slot bytes of a mode (R286). -/
def codeBits (mode : Nat) : Nat := if mode = 0 then 7 else if mode = 1 then 5 else if mode = 2 then 3 else 15
def groupBytes (mode : Nat) : Nat := 1 + 8 * codeBits mode
def groupCount (mode : Nat) : Nat := if mode = 3 then 128 else 256
def slotBytes (mode : Nat) : Nat := groupCount mode * groupBytes mode

/-- The block formats of a mode: FP32 for D15, BF16 or FP16 for the others (R175). -/
def stashFormat (mode fmt : Nat) : Bool := if mode = 3 then fmt = 1 else fmt = 3 || fmt = 4

/-- STASH and RESTORE: their operands and checks. -/
def stashCommand (kind : EngKind) (mode : BitVec 2) (t : BitVec 6) (c : BitVec 4) (t2 : BitVec 6) (c2 : BitVec 4)
    (waitt sigt : BitVec 3) (cnt : BitVec 4) (inc : BitVec 8) : Act Unit := do
  require (commandTokens .a waitt sigt) .queueMisuse
  let s ← get
  let u := 4 * s.core + 3
  let a ← binding 3 false t
  let b ← binding 3 true t2
  let r := Region.of b.raw
  if !r.ok then refuse .accessViolation 0 u 0x01
  require (stashFormat mode.toNat a.lay.fmt) .formatInvalid
  let v ← commandCoord c
  let v2 ← commandCoord c2
  let (blk, _, _) ← inTensor 3 a v
  if r.mode ≠ mode.toNat || r.nslotm1 < (coordEl v2 0).toNat then refuse .accessViolation 0 u 0x02
  tileValid 3 a blk
  if kind = .restore then mustBeOutput a
  pushCommand { kind := kind, lay1 := a.idx, c1 := v, lay2 := b.idx, c2 := v2, rb := mode.toNat } waitt sigt cnt inc

/-- STASH (R175). -/
def execStash (w : BitVec 2) (mode : BitVec 2) (t : BitVec 6) (c : BitVec 4) (t2 : BitVec 6) (c2 : BitVec 4)
    (waitt sigt : BitVec 3) (cnt : BitVec 4) (inc : BitVec 8) (s : State) : Host.Outcome State Fault Refusal :=
  run (.stash w mode t c t2 c2 waitt sigt cnt inc) w (stashCommand .stash mode t c t2 c2 waitt sigt cnt inc) s

/-- RESTORE (R175). -/
def execRestore (w : BitVec 2) (mode : BitVec 2) (t : BitVec 6) (c : BitVec 4) (t2 : BitVec 6) (c2 : BitVec 4)
    (waitt sigt : BitVec 3) (cnt : BitVec 4) (inc : BitVec 8) (s : State) : Host.Outcome State Fault Refusal :=
  run (.restore w mode t c t2 c2 waitt sigt cnt inc) w (stashCommand .restore mode t c t2 c2 waitt sigt cnt inc) s

/-! ### D's engine commands -/

/-- A queue that D's stores, scatters and reducing writes consume (R228). -/
def drainQueue (q : BitVec 4) : Bool := 4 ≤ q.toNat && q.toNat ≤ 6

/-- SCATTER (R241). -/
def execScatter (w : BitVec 2) (q : BitVec 4) (n : BitVec 6) (rb : BitVec 3) (t : BitVec 6) (c : BitVec 4)
    (t2 : BitVec 6) (c2 : BitVec 4) (waitt sigt : BitVec 3) (cnt : BitVec 4) (inc : BitVec 8) (qc qc2 : BitVec 1)
    (s : State) : Host.Outcome State Fault Refusal :=
  run (.scatter w q n rb t c t2 c2 waitt sigt cnt inc qc qc2) w (do
    popCoord qc c
    popCoord qc2 c2
    keeping (coordPop qc c ++ coordPop qc2 c2) (do
      require (drainQueue q && commandTokens .d waitt sigt) .queueMisuse
      let k := n.toNat + 1
      let bytes := 16 * 2 ^ rb.toNat
      let e ← popQ q.toNat
      let idx := (List.range k).map fun j => lane 32 e j
      let a ← binding 0 false t
      let b ← binding 3 false t2
      require (fmtWidth a.lay.fmt = fmtWidth b.lay.fmt) .formatInvalid
      let v ← commandCoord c
      let v2 ← commandCoord c2
      operandChecks ⟨0, a, (List.range k).map (advance v)⟩ ⟨3, b, idx.map (advance v2)⟩ fun _ _ o => o % 256 + bytes ≤ 256
      mustBeOutput b
      pushCommand
        { kind := .scatter, lay1 := a.idx, c1 := v, lay2 := b.idx, c2 := v2, n := k, rb := bytes, idx := idx }
        waitt sigt cnt inc)) s

/-- A reducing write (R242): element width `bits`; it takes the next number of its queue (R243). -/
def reducingWrite (kind : EngKind) (bits : Nat) (q : BitVec 4) (m : BitVec 7) (t : BitVec 6) (c : BitVec 4)
    (waitt sigt : BitVec 3) (cnt : BitVec 4) (inc : BitVec 8) (qc : BitVec 1) : Act Unit := do
  popCoord qc c
  keeping (coordPop qc c) (do
    require (drainQueue q && commandTokens .d waitt sigt) .queueMisuse
    let k := m.toNat + 1
    let e ← popQ q.toNat
    let b ← binding 3 false t
    require (fmtWidth b.lay.fmt = bits) .formatInvalid
    let v ← commandCoord c
    let (blk, o, _) ← inTensor 3 b v
    require (o % (bits / 8) = 0 && o % 256 + k * (bits / 8) ≤ 256) .alignment
    tileValid 3 b blk
    mustBeOutput b
    let num := (← core).drain.rwr.getD (q.toNat - 4) 0
    pushCommand { kind := kind, lay1 := b.idx, c1 := v, n := k, rb := bits, data := e, queue := q.toNat, number := num }
      waitt sigt cnt inc
    modCore fun k =>
      let r := k.drain.rwr.setIfInBounds (q.toNat - 4) (num + 1)
      { k with drain := { k.drain with rwr := r } })

/-- RWR.ADD.F32 (R242). -/
def execRwrAddF32 (w : BitVec 2) (q : BitVec 4) (m : BitVec 7) (t : BitVec 6) (c : BitVec 4) (waitt sigt : BitVec 3)
    (cnt : BitVec 4) (inc : BitVec 8) (qc : BitVec 1) (s : State) : Host.Outcome State Fault Refusal :=
  run (.rwrAddF32 w q m t c waitt sigt cnt inc qc) w (reducingWrite .rwrAddF32 32 q m t c waitt sigt cnt inc qc) s

/-- RWR.ADD.BF16 (R242). -/
def execRwrAddBf16 (w : BitVec 2) (q : BitVec 4) (m : BitVec 7) (t : BitVec 6) (c : BitVec 4) (waitt sigt : BitVec 3)
    (cnt : BitVec 4) (inc : BitVec 8) (qc : BitVec 1) (s : State) : Host.Outcome State Fault Refusal :=
  run (.rwrAddBf16 w q m t c waitt sigt cnt inc qc) w (reducingWrite .rwrAddBf16 16 q m t c waitt sigt cnt inc qc) s

/-- RWR.MAX.F32 (R242). -/
def execRwrMaxF32 (w : BitVec 2) (q : BitVec 4) (m : BitVec 7) (t : BitVec 6) (c : BitVec 4) (waitt sigt : BitVec 3)
    (cnt : BitVec 4) (inc : BitVec 8) (qc : BitVec 1) (s : State) : Host.Outcome State Fault Refusal :=
  run (.rwrMaxF32 w q m t c waitt sigt cnt inc qc) w (reducingWrite .rwrMaxF32 32 q m t c waitt sigt cnt inc qc) s

/-- RWR.ADD.I32 (R242). -/
def execRwrAddI32 (w : BitVec 2) (q : BitVec 4) (m : BitVec 7) (t : BitVec 6) (c : BitVec 4) (waitt sigt : BitVec 3)
    (cnt : BitVec 4) (inc : BitVec 8) (qc : BitVec 1) (s : State) : Host.Outcome State Fault Refusal :=
  run (.rwrAddI32 w q m t c waitt sigt cnt inc qc) w (reducingWrite .rwrAddI32 32 q m t c waitt sigt cnt inc qc) s

end Sys2Proof.Machine
end

