-- ==== Sys2Proof/Machine/Matrix.lean ====
section
/-! DEFINITION. The matrix engine (08, 12): the issue of K's matrix and slot instructions (R183-R199), and the steps of
the array, the planes, the slots, the spills, BIND, the power ramp and the claims (R185-R201, R280). -/

namespace Sys2Proof.Machine

/-! ### Format words (R93-R95) -/

def fwA (x : Word) : Nat := bits x.toNat 0 4
def fwB (x : Word) : Nat := bits x.toNat 4 4
def fwGrp (x : Word) : Nat := bits x.toNat 8 2
def fwSck (x : Word) : Nat := bits x.toNat 10 2
def fwSpa (x : Word) : Bool := x.getLsbD 12
def fwNeg (x : Word) : Bool := x.getLsbD 13
def fwSop (x : Word) : Nat := bits x.toNat 14 2
def fwLabel (x : Word) : BitVec 6 := x.extractLsb' 16 6
def fwAcck (x : Word) : Nat := bits x.toNat 22 2

/-- MX scales on the streamed operand; asymmetric scales on the stationary one. -/
def fwMx (x : Word) : Bool := fwSck x = 1 || fwSck x = 3
def fwAsym (x : Word) : Bool := fwSck x = 2 || fwSck x = 3

/-- The bits of the wider format, which name the format class (R95). -/
def passBits (x : Word) : Nat := max (fmtBits (fwA x)) (fmtBits (fwB x))

/-- The pass depth and the cycles of a row (R95). -/
def streamDepth (x : Word) : Nat :=
  (if 16 ≤ passBits x then 64 else if passBits x = 8 then 128 else 256) * (if fwSpa x then 2 else 1)
def rowCycles (x : Word) : Nat :=
  if passBits x = 64 then 8 else if passBits x = 32 then 4 else if passBits x = 19 then 2 else 1

/-- The elements of a group: the whole pass where `GRP` is 00 (R96). -/
def groupSize (x : Word) : Nat := if fwGrp x = 0 then streamDepth x else 16 * 2 ^ fwGrp x

/-- The bytes of a streamed row (R184). -/
def rowBytes (x : Word) : Nat := streamDepth x * fmtWidth (fwA x) / 8

/-- A format word that R94 accepts, against the format and `SPA` recorded with its plane. -/
def formatOk (x : Word) (fmt : BitVec 4) (spa : Bool) : Bool :=
  let a := fwA x
  let b := fwB x
  a ≤ 13 && b ≤ 13 && fwSop x ≤ 1 && fwAcck x ≠ 3 && bits x.toNat 24 8 = 0 &&
  (a = 0 && b = 0 || a ≠ 0 && b ≠ 0) && (a = 1 && b = 1 || a ≠ 1 && b ≠ 1) &&
  (1 < a || fwGrp x = 0 && fwSck x = 0 && !fwSpa x) &&
  (!fwMx x || fwGrp x = 1 && 5 ≤ a && a ≤ 10) &&
  (!fwAsym x || fwGrp x ≠ 0 && 10 ≤ b) &&
  streamDepth x % groupSize x = 0 &&
  (fwAcck x ≠ 1 || fmtIsInt a && fmtIsInt b && fwSck x = 0) &&
  !(fwAcck x = 2 && a = 0) && b = fmt.toNat && fwSpa x = spa

/-! ### Planes -/

/-- The active and the shadow plane (R181). -/
def Matrix.active (m : Matrix) : Plane := if m.active1 then m.plane1 else m.plane0
def Matrix.shadow (m : Matrix) : Plane := if m.active1 then m.plane0 else m.plane1
def Matrix.setShadow (m : Matrix) (p : Plane) : Matrix := if m.active1 then { m with plane0 := p } else { m with plane1 := p }

/-- The first byte of the areas within a plane: the plane, scales, zero points, metadata. -/
def planeArea (a : Nat) : Nat := if a = 0 then 0 else if a = 1 then 32768 else if a = 2 then 34816 else 35840

/-- Bytes of a plane, as a number. -/
def Plane.nat (p : Plane) (off n : Nat) : Nat := bytesVal ((List.range n).map fun i => Sparse.get 0 p.bytes (off + i))

/-- Writes bytes to a plane; a line written whole loses its poison. -/
def Plane.write (p : Plane) (off : Nat) (bs : List Byte) : Plane :=
  { p with
    bytes := (bs.foldl (fun (x : Sparse Byte × Nat) b => (Sparse.set 0 x.1 x.2 b, x.2 + 1)) (p.bytes, off)).1
    bad := p.bad.filter fun k => !(off ≤ 256 * k && 256 * k + 256 ≤ off + bs.length) }

/-- Element `i` of width `w` of the plane's dense rows (R88, R182). -/
def Plane.elem (p : Plane) (w i : Nat) : Nat := bits (p.nat (i * w / 8) (w / 8 + 2)) (i * w % 8) w

/-- Stationary elements at (k, n) (R182): one, or under `SPA` the kept values whose position is k, +0 where there is
none. -/
def stationary (p : Plane) (x : Word) (k n : Nat) : List Num :=
  let b := fwB x
  let w := fmtWidth b
  if fwSpa x then
    let g := k / 4
    let nib := bits (p.nat (planeArea 3 + 32 * g + n / 2) 1) (4 * (n % 2)) 4
    let kept := (List.range 2).filterMap fun i =>
      if bits nib (2 * i) 2 = k % 4 then some (fmtDecode b (p.elem w (64 * (2 * g + i) + n))) else none
    if kept.isEmpty then [.zero false] else kept
  else [fmtDecode b (p.elem w (64 * k + n))]

/-- An E8M0 scale (R91). -/
def e8m0 (c : Nat) : Num := if c = 255 then .nan else .fin 1 ((c : Int) - 127)

/-- Scale and zero point of group g and column n (R92, R182). -/
def asymScale (p : Plane) (g n : Nat) : Num := fmtDecode 4 (p.nat (planeArea 1 + 2 * (64 * g + n)) 2)
def asymZero (p : Plane) (x : Word) (g n : Nat) : Num :=
  let z := p.nat (planeArea 2 + 64 * g + n) 1
  .ofInt (if fmtSigned (fwB x) then toSigned 8 z else (z : Int))

/-- The products P(k, n) of a row (R96): `row` is the row's bits, `scale` the E8M0 byte of each group. Under asymmetric scales two kept
values of one position are summed first, and their zero point is taken once (DESIGN CHOICE, log 109). -/
def products (p : Plane) (x : Word) (row : Nat) (scale : Nat → Nat) (k n : Nat) : List Num :=
  let a := fmtDecode (fwA x) (elem row (fmtWidth (fwA x)) k)
  let a := if fwNeg x then a.negate else a
  let a := if fwMx x then a.mul (e8m0 (scale (k / 32))) else a
  let g := k / groupSize x
  if fwAsym x then
    let q := (stationary p x k n).foldl Num.add (.zero false)
    [(a.mul (asymScale p g n)).mul (q.add (asymZero p x g n).negate)]
  else (stationary p x k n).map a.mul

/-- What a row adds to column n: its exact group sums, or for FP64 its factors (R96-R98). -/
def columnSums (p : Plane) (x : Word) (row : Nat) (scale : Nat → Nat) (n : Nat) : List Num :=
  if fwA x = 0 then (List.range 64).flatMap fun k =>
    let a := fmtDecode 0 (elem row 64 k)
    (if fwNeg x then a.negate else a) :: stationary p x k n
  else (List.range (streamDepth x / groupSize x)).map fun g =>
    groupSum ((List.range (groupSize x)).flatMap fun i => products p x row scale (g * groupSize x + i) n)

/-! ### Slots -/

/-- Rounds once to FP64 or FP32 by RNE, with IEEE 754's infinities. -/
def round64 (x : Num) : DWord := BitVec.ofNat 64 (fpRound (fpFmt 0) 0 true x)
def num64 (x : DWord) : Num := fpDecode (fpFmt 0) x.toNat
def round32 (x : Num) : Num := fpDecode (fpFmt 1) (fpRound (fpFmt 1) 0 true x)

/-- The integer of an exact value. -/
def Num.toInt : Num → Int
  | .fin m e => if 0 ≤ e then m * 2 ^ e.toNat else m / 2 ^ (-e).toNat
  | _ => 0

/-- The fused multiply-adds of an FP64 row (R98). -/
def fmaChain (acc : DWord) : List Num → DWord
  | a :: b :: rest => fmaChain (round64 ((a.mul b).add (num64 acc))) rest
  | _ => acc

/-- A contribution of a column's sums to an element (R98). -/
def contribute (x : Word) (acc : DWord) (sums : List Num) : DWord :=
  if fwA x = 0 then fmaChain acc sums
  else sums.foldl (fun acc g =>
    if fwAcck x = 1 then acc + BitVec.ofInt 64 g.toInt
    else
      let t := (num64 acc).add (num64 (round64 g))
      if fwAcck x = 2 then round64 (round32 t) else round64 t) acc

/-- The key of a slot element. -/
def slotKey (slot r n : Nat) : Nat := slot * 4096 + r * 64 + n

/-- A slot row, and the writing of one; a row written whole loses its poison. -/
def Matrix.row (m : Matrix) (slot r : Nat) : List DWord := (List.range 64).map fun n => Sparse.get 0 m.slots (slotKey slot r n)
def Matrix.setRow (m : Matrix) (slot r : Nat) (xs : List DWord) : Matrix :=
  { m with
    slots := (xs.foldl (fun (x : Sparse DWord × Nat) v => (Sparse.set 0 x.1 (slotKey slot r x.2) v, x.2 + 1)) (m.slots, 0)).1
    poison := m.poison.filter (· ≠ slot * 64 + r) }

/-- Every element of a slot becomes zero bits. -/
def Matrix.zeroSlot (m : Matrix) (slot : Nat) : Matrix :=
  { m with slots := m.slots.filter fun e => e.1 / 4096 ≠ slot, poison := m.poison.filter fun r => r / 64 ≠ slot }

/-- Element n of row r of a spill image or of a save-area slot stands at this byte of its frame (R276). -/
def imageByte (r n : Nat) : Nat := 512 * r + 8 * n

/-- The device physical address of a frame of a core's near store (R254). -/
def nearFrame (p frame : Nat) : Nat := Config.nearBase + p * 2 ^ 22 + frame * 2 ^ 15

/-- The frame of spill image `i` of the area as it is configured now (R276). -/
def Matrix.imageFrame (m : Matrix) (i : Nat) : Nat := (match m.area with | some (f, _) => f | none => 0) + i

/-- The bytes of a slot row in the layout of R276. -/
def rowImage (xs : List DWord) : List Byte := xs.flatMap fun v => valBytes 8 v.toNat

/-- Writes line `k` of the 128 lines of a slot at an address, through port 3 where it is a near store's; a poisoned row poisons its
lines. -/
def State.writeSlotLine (s : State) (m : Matrix) (slot base k : Nat) : State :=
  s.portWrite 3 (base + 256 * k) ((rowImage (m.row slot (k / 2))).drop (256 * (k % 2)) |>.take 256)
    (m.poison.contains (slot * 64 + k / 2))

/-- Writes a slot to the 128 lines at an address. -/
def State.writeSlot (s : State) (m : Matrix) (slot base : Nat) : State :=
  (List.range 128).foldl (fun s k => s.writeSlotLine m slot base k) s

/-- Reads a slot row back from the lines at an address, with their poison. -/
def State.slotRow (s : State) (base r : Nat) : List DWord × Bool :=
  let a := base + imageByte r 0
  (bytesWords 64 (s.readBytes a 256 ++ s.readBytes (a + 256) 256), s.poisoned a || s.poisoned (a + 256))

/-! ### The slot map (R193) -/

def Matrix.slotOf (m : Matrix) (l : BitVec 6) : Option Nat := (m.map.find? (·.1 = l.toNat)).map (·.2)
def Matrix.imagesOf (m : Matrix) (l : BitVec 6) : List Nat := (m.images.filter (·.label = l)).map (·.idx)
def Matrix.release (m : Matrix) (l : BitVec 6) : Matrix := { m with images := m.images.filter (·.label ≠ l) }
def Matrix.unmap (m : Matrix) (l : BitVec 6) : Matrix := { m with map := m.map.filter (·.1 ≠ l.toNat) }
def Matrix.touch (m : Matrix) (slot seq : Nat) : Matrix := { m with use := Sparse.put m.use slot seq }

/-- The lowest-numbered free image of the spill area (R277). -/
def Matrix.freeImage (m : Matrix) : Option Nat :=
  match m.area with
  | some (_, n) => (List.range n).find? fun i => !m.images.any (·.idx = i)
  | none => none

/-- The lowest-numbered unmapped slot. -/
def Matrix.freeSlot (m : Matrix) : Option Nat := (List.range 32).find? fun i => !m.map.any (·.2 = i)

/-- The slot with the oldest last use; ties to the lowest number. -/
def Matrix.victim (m : Matrix) : Nat :=
  (List.range 32).foldl (fun v i => if Sparse.get 0 m.use i < Sparse.get 0 m.use v then i else v) 0

/-- A command for the matrix queue, with the acting instruction's place. -/
def matrixCmd (kind : MKind) : Act Unit := do
  let pos ← here
  modCore fun c =>
    let m : MCmd := { kind := kind, seq := c.seq, issued := c.clk, pos := pos }
    { c with seq := c.seq + 1, matrix := { c.matrix with queue := c.matrix.queue ++ [m] } }

/-- Changes the matrix engine of the acting core. -/
def modMatrix (f : Matrix → Matrix) : Act Unit := modCore fun c => { c with matrix := f c.matrix }

/-- Spills the slot of a label: it loses its slot at once, and the image is written in command order to the frame that is the
image's now (R192, R194); `own` for an MSPILL's. -/
def spillLabel (l : BitVec 6) (slot image : Nat) (own : Bool) : Act Unit := do
  modMatrix fun m => { m.unmap l with images := m.images ++ [⟨image, l⟩] }
  matrixCmd (.spill slot ((← core).matrix.imageFrame image) own)

/-- Maps a label to a slot, with a zeroing queued (R193). -/
def mapLabel (l : BitVec 6) (slot : Nat) : Act Unit := do
  modMatrix fun m => { m with map := m.map ++ [(l.toNat, slot)] }
  matrixCmd (.zeroSlot slot)

/-- resolve(L) of R193; SLOT_EXHAUSTED where no slot or image can be had. -/
def resolveLabel (l : BitVec 6) : Act Nat := do
  let m := (← core).matrix
  let slot ← match m.slotOf l with
    | some x => pure x
    | none =>
      match m.freeSlot with
      | some x => do mapLabel l x; pure x
      | none => do
        require (!m.polFault) .slotExhausted
        match m.freeImage with
        | none => raise .slotExhausted
        | some i => do
          let v := m.victim
          let old := ((m.map.find? (·.2 = v)).map (·.1)).getD 0
          spillLabel (BitVec.ofNat 6 old) v i false
          mapLabel l v
          pure v
  modCore fun c => { c with matrix := c.matrix.touch slot c.seq }
  return slot

/-- The matrix command queue holds 8 commands of instructions (R183); the zeroings and spills that resolution adds take no place. -/
def MKind.counted : MKind → Bool
  | .zeroSlot _ => false
  | .spill _ _ own => own
  | _ => true

/-- A full queue blocks K, as object 21 of kind 0 (DESIGN CHOICE, log 92). A command's place is free once it has taken effect, a stream
command's with its last row entry, a spill's and a BIND's with the last line or row written (`Matrix.next`; DESIGN CHOICE, log 110). -/
def matrixRoom : Act Unit := do
  let c ← core
  ready ((c.matrix.queue.filter (·.kind.counted)).length < 8) (.object 0 21)

/-! ### Instructions -/

/-- MHINT (R197). -/
def execMhint (w : BitVec 2) (n : BitVec 12) (s : State) : Host.Outcome State Fault Refusal :=
  run (.mhint w n) w (modCore fun c =>
    let m := c.matrix
    let t := c.clk + n.toNat
    let running : Bool := match m.rampEnd with | some e => decide (e ≤ c.clk + 16) | none => false
    let ramp := if m.warm then none else if running then m.rampEnd else some (max c.clk (t - 16) + 16)
    { c with matrix := { m with hint := some t, rampEnd := ramp } }) s

/-- MFLIP (R188). -/
def execMflip (w : BitVec 2) (s : State) : Host.Outcome State Fault Refusal :=
  run (.mflip w) w (do
    matrixRoom
    matrixCmd .flip) s

/-- The plane that will be active when the next command's first row enters. -/
def Matrix.nextPlane (m : Matrix) : Plane :=
  let flips := (m.queue.filter fun c => c.kind = .flip).length
  if flips % 2 = 0 then m.active else m.shadow

/-- The bytes of a plane of the save area (DESIGN CHOICE, log 12): the plane and its side areas, 156 lines. -/
def planeBytes : Nat := 156 * 256

/-- Reads the plane pair back from a save area, with the poison of its lines (R393). -/
def State.loadPlanes (s : State) (m : Matrix) (base : Nat) : Matrix :=
  let get := fun (a : Nat) =>
    { ({} : Plane).write 0 ((List.range 156).flatMap fun k => s.readBytes (a + 256 * k) 256) with
      bad := (List.range 156).filter fun k => s.poisoned (a + 256 * k) }
  let w := s.readNat (base + 2 * planeBytes) 8
  { m with
    plane0 := { get base with fmt := BitVec.ofNat 4 w, spa := bit w 4 }
    plane1 := { get (base + planeBytes) with fmt := BitVec.ofNat 4 (w / 256), spa := bit w 12 }
    active1 := bit w 16 }

/-- The creation state of a slot or of the plane pair. -/
def Matrix.create (m : Matrix) (what : Nat) : Matrix :=
  if what = 32 then { m with plane0 := {}, plane1 := {}, active1 := false } else m.zeroSlot what

/-- The place of slot or plane pair `what` in a context's save area (R281). -/
def Context.savePlace (x : Context) (what : Nat) : Nat := x.savea + what * 32768

/-- The matrix engine of a core as its running context's commands find the planes: its own pair, saved or created, where another
context's stands in the core and is claimed first (R189, R280). -/
def State.ownPlanes (s : State) (p : Nat) : Matrix :=
  let c := s.cr p
  if Sparse.get 0 c.matrix.owner 32 = c.ctxId then c.matrix
  else match s.ctx? c.ctxId with
    | some x => if s.savedBit x 32 then s.loadPlanes c.matrix (x.savePlace 32) else c.matrix.create 32
    | none => c.matrix.create 32

/-- The steps that MSTREAM and MSTREAM.IDX make at issue (R189, R190); `iq` is the index queue of the latter. A full command queue is
waited for before the exceptions of R189 are judged, and the checks of `SQ` and `IQS` stand between the format check and the label's
resolution (DESIGN CHOICE, log 111). -/
def streamCommand (q sq row0 nr : Nat) (iq : Option Nat) : Act Unit := do
  require (q ≤ 3) .queueMisuse
  matrixRoom
  let s ← get
  let some head := ((s.me.q 12).poppable s.now).head? | raise .formatUnderflow
  let x : Word := head.setWidth 32
  let p := (s.ownPlanes s.core).nextPlane
  if !formatOk x p.fmt p.spa then raise .formatInvalid 0 [(12, none)]
  require (!(fwMx x && sq = q)) .queueMisuse
  require (match iq with | some i => i ≠ q && !(fwMx x && i = sq) | none => true) .queueMisuse
  let slot ← resolveLabel (fwLabel x)
  let _ ← popQ 12
  matrixCmd (.stream slot x q sq row0 (nr + 1) iq)

/-- MSTREAM (R189). -/
def execMstream (w : BitVec 2) (q : BitVec 4) (row0 : BitVec 6) (sq : BitVec 4) (nr : BitVec 6) (s : State) :
    Host.Outcome State Fault Refusal :=
  run (.mstream w q row0 sq nr) w (streamCommand q.toNat sq.toNat row0.toNat nr.toNat none) s

/-- MSTREAM.IDX (R190). -/
def execMstreamIdx (w : BitVec 2) (q sq : BitVec 4) (iq : BitVec 2) (nr : BitVec 6) (s : State) :
    Host.Outcome State Fault Refusal :=
  run (.mstreamIdx w q sq iq nr) w (streamCommand q.toNat sq.toNat 0 nr.toNat (some iq.toNat)) s

/-- MZERO (R191): the label's images are released, and its slot becomes zero in command order. -/
def execMzero (w : BitVec 2) (l : BitVec 6) (s : State) : Host.Outcome State Fault Refusal :=
  run (.mzero w l) w (do
    matrixRoom
    let m := (← core).matrix
    modMatrix fun m => m.release l
    matrixCmd (.zero (m.slotOf l))) s

/-- BIND (R198). -/
def execBind (w : BitVec 2) (q : BitVec 4) (l : BitVec 6) (s : State) : Host.Outcome State Fault Refusal :=
  run (.bind w q l) w (do
    require (q.toNat ≤ 3) .queueMisuse
    matrixRoom
    let s ← get
    let some head := ((s.me.q 8).poppable s.now).head? | wait (.object 0 8)
    let slot ← resolveLabel l
    let _ ← popQ 8
    let m := (← core).matrix
    let srcs := ((List.range 64).filter head.getLsbD).map fun k =>
      (m.slotOf (BitVec.ofNat 6 k), (m.imagesOf (BitVec.ofNat 6 k)).map m.imageFrame)
    modMatrix fun m => m.release l
    matrixCmd (.bind slot q.toNat srcs)) s

/-- Sets or clears the pin bits of a spill area's frames on a core (R373). -/
def State.pinArea (s : State) (p : Nat) (area : Option (Nat × Nat)) (v : Bool) : State :=
  match area with
  | none => s
  | some (first, n) => (List.range n).foldl (fun s i =>
      let a := nearFrame p (first + i)
      let t := s.tag a
      s.setTag a { t with pin := v }) s

/-- SLOTCFG with `POL` = 0 (R195, R276). -/
def execSlotcfg (w : BitVec 2) (nim : BitVec 6) (first : BitVec 7) (s : State) : Host.Outcome State Fault Refusal :=
  run (.slotcfg w nim first) w (do
    let s ← get
    let m := s.me.matrix
    let n := nim.toNat + 1
    let foreign := (List.range n).any fun i =>
      let o := (s.tag (nearFrame s.core (first.toNat + i))).owner
      o ≠ 0 && o ≠ s.me.ctxId
    if !m.images.isEmpty then refuse .accessViolation 0 (4 * s.core + 3) 0x06
    if foreign then refuse .accessViolation 0 (4 * s.core + 3) 0x07
    modify fun s => (s.pinArea s.core m.area false).pinArea s.core (some (first.toNat, n)) true
    modMatrix fun m => { m with area := some (first.toNat, n), polFault := false }) s

/-- SLOTCFG with `POL` = 1 (R195). -/
def execSlotcfgFault (w : BitVec 2) (s : State) : Host.Outcome State Fault Refusal :=
  run (.slotcfgFault w) w (do
    let s ← get
    if !s.me.matrix.images.isEmpty then refuse .accessViolation 0 (4 * s.core + 3) 0x06
    modify fun s => s.pinArea s.core s.me.matrix.area false
    modMatrix fun m => { m with area := none, polFault := true }) s

/-- SLOTFREE of a label (R195). -/
def execSlotfree (w : BitVec 2) (l : BitVec 6) (s : State) : Host.Outcome State Fault Refusal :=
  run (.slotfree w l) w (do
    matrixRoom
    modMatrix fun m => (m.unmap l).release l
    matrixCmd .free) s

/-- SLOTFREE all (R195). -/
def execSlotfreeAll (w : BitVec 2) (s : State) : Host.Outcome State Fault Refusal :=
  run (.slotfreeAll w) w (do
    matrixRoom
    modMatrix fun m => { m with map := [], images := [] }
    matrixCmd .free) s

/-- Writes a K scalar with ready time 0; i0-i5, WID and l0-l5 are never destinations. -/
def putK (c : Core) (d : BitVec 5) (v : Word) : Core :=
  let c := c.kill (.k d)
  { c with regs := { c.regs with k := c.regs.k.setIfInBounds d.toNat v } }

/-- The status word of a label (R195). -/
def Matrix.status (m : Matrix) (l : BitVec 6) : Word :=
  let r := m.slotOf l
  BitVec.ofNat 32 ((m.imagesOf l).length * 64 + (if r.isSome then 32 else 0) + r.getD 0)

/-- SLOTMAP op 00 (R195). -/
def execSlotmapRead (w : BitVec 2) (d : BitVec 5) (l : BitVec 6) (s : State) : Host.Outcome State Fault Refusal :=
  run (.slotmapRead w d l) w (modCore fun c => putK c d (c.matrix.status l)) s

/-- SLOTMAP op 01 (R195). -/
def execSlotmapMap (w : BitVec 2) (slot : BitVec 5) (l : BitVec 6) (s : State) : Host.Outcome State Fault Refusal :=
  run (.slotmapMap w slot l) w (do
    let m := (← core).matrix
    require ((m.slotOf l).isNone && !m.map.any (·.2 = slot.toNat)) .illegalInstruction
    modCore fun c => { c with matrix := c.matrix.touch slot.toNat c.seq }
    mapLabel l slot.toNat) s

/-- MSPILL (R192). -/
def execMspill (w : BitVec 2) (l : BitVec 6) (s : State) : Host.Outcome State Fault Refusal :=
  run (.mspill w l) w (do
    matrixRoom
    let m := (← core).matrix
    match m.slotOf l with
    | none => matrixCmd .free
    | some slot =>
      require (!m.polFault) .slotExhausted
      match m.freeImage with
      | none => raise .slotExhausted
      | some i => spillLabel l slot i true) s

end Sys2Proof.Machine
end

