-- ==== Sys2Proof/Machine/Array.lean ====
section
/-! DEFINITION. The steps of the matrix engine (R185-R201, R280): rows entering the array and landing in slots, the planes'
exchange, zeroings, spills, BIND, the power ramp and the claims. Times are cycles of the core's clock, which a freeze
stops. -/

namespace Sys2Proof.Machine

/-- FREEZE holds the core in this cycle, to whose end a THAW within it leaves it held (R367). -/
def Core.frozen (c : Core) : Bool := c.freezeHeld || c.thawed

/-- The core's clock runs in this cycle: it is not held by FREEZE, by a fault stop of joined mode or by its own stall
(R20, R178, R367). -/
def Core.clocked (c : Core) : Bool := !c.frozen && c.stalled.isNone && (c.forked || c.stops.isEmpty)

/-- An event as its effect on the state, where it may take place. -/
def event (e : Option State) (s : State) : Host.Outcome State Fault Refusal := .next (e.getD s)

/-- Replaces the matrix engine of a core. -/
def State.setMatrix (s : State) (p : Nat) (m : Matrix) : State := s.setCr p { s.cr p with matrix := m }

/-! ### The power ramp (R196, R197) -/

/-- The effect of RAMP_UP_END. -/
def rampEff (s : State) (p : Nat) : Option State :=
  let c := s.cr p
  let m := c.matrix
  match m.rampEnd with
  | some e => if c.clocked && e ≤ c.clk then some (s.setMatrix p { m with warm := true, rampEnd := none, idle := 0 }) else none
  | none => none

/-- The effect of HINT_TARGET_REACHED. -/
def hintEff (s : State) (p : Nat) : Option State :=
  let c := s.cr p
  let m := c.matrix
  match m.hint with
  | some t => if c.clocked && t ≤ c.clk then some (s.setMatrix p { m with hint := none, idle := 0 }) else none
  | none => none

/-- The effect of ARRAY_COLD. -/
def coldEff (s : State) (p : Nat) : Option State :=
  let c := s.cr p
  let m := c.matrix
  if c.clocked && m.warm && 64 ≤ m.idle && m.hint.isNone && m.rampEnd.isNone then
    some (s.setMatrix p { m with warm := false })
  else none

/-! ### Claims (R280) -/

/-- What a command must claim before it takes effect: a foreign slot (0-31) or plane pair (32). -/
def Core.mustClaim (c : Core) (what : Option Nat) : Option Nat :=
  match what with
  | some x => if Sparse.get 0 c.matrix.owner x ≠ c.ctxId then some x else none
  | none => none

/-- The slots and planes that a command uses when it takes effect. -/
def MKind.uses : MKind → List Nat
  | .flip => [32]
  | .zeroSlot x => [x]
  | .zero x => x.toList
  | .free => []
  | .spill x _ _ => [x]
  | .stream x .. => [x, 32]
  | .bind x _ srcs => x :: srcs.filterMap (·.1)

/-- The first claim that the command at the head of the queue needs. -/
def Core.headClaim (c : Core) (k : MKind) : Option Nat := k.uses.findSome? fun x => c.mustClaim (some x)


/-- Writes the plane pair to frames 32-34 of a save area: the planes in turn, then a word with their formats. -/
def State.savePlanes (s : State) (m : Matrix) (base : Nat) : State :=
  let put := fun (s : State) (p : Plane) (a : Nat) =>
    (List.range 156).foldl (fun s k =>
      s.portWrite 3 (a + 256 * k) ((List.range 256).map fun i => Sparse.get 0 p.bytes (256 * k + i)) (p.bad.contains k)) s
  let s := put (put s m.plane0 base) m.plane1 (base + planeBytes)
  let w := m.plane0.fmt.toNat + (if m.plane0.spa then 16 else 0) + m.plane1.fmt.toNat * 256 +
    (if m.plane1.spa then 4096 else 0) + (if m.active1 then 65536 else 0)
  s.writeBytes (base + 2 * planeBytes) (valBytes 256 w)


/-- Sets or clears the saved bit of a context for a slot or the plane pair (R362). -/
def State.setSaved (s : State) (x : Context) (what : Nat) (v : Bool) : State :=
  let w := s.readNat x.savew 8
  let b := 2 ^ what
  s.writeBytes x.savew (valBytes 8 (if v then w ||| b else w - (if bit w what then b else 0)))

/-- Saves a slot or the plane pair to the save area of its owner (R280). -/
def State.saveOut (s : State) (p what : Nat) : State :=
  let m := (s.cr p).matrix
  match s.ctx? (Sparse.get 0 m.owner what) with
  | some x =>
    let s := if what = 32 then s.savePlanes m (x.savePlace 32) else s.writeSlot m what (x.savePlace what)
    s.setSaved x what true
  | none => s


/-- Restores a slot or the plane pair of a context from its save area, where its saved bit is set; else creation state. -/
def State.loadIn (s : State) (p what ctx : Nat) : State :=
  let m := (s.cr p).matrix
  let m := { m with owner := Sparse.set 0 m.owner what ctx }
  match s.ctx? ctx with
  | some x =>
    if s.savedBit x what then
      let m' := if what = 32 then s.loadPlanes m (x.savePlace 32)
        else (List.range 64).foldl (fun m r =>
          let (xs, bad) := s.slotRow (x.savePlace what) r
          let m := m.setRow what r xs
          if bad then { m with poison := (what * 64 + r) :: m.poison } else m) m
      (s.setMatrix p m').setSaved x what false
    else s.setMatrix p (m.create what)
  | none => s.setMatrix p (m.create what)

/-- A claim has had a turn of port 3 for one line: a save line leaves, or a restored line comes. The first restored line comes
after the latency of the save area's level (R280). -/
def State.claimLine (s : State) (p : Nat) (x : Claim) : State :=
  let first := x.saves = 1 && x.loads ≠ 0
  let (d, s) := match s.ctx? (s.cr p).ctxId with
    | some k => if first then s.replyDue false p k.savea else (s.now, s)
    | none => (s.now, s)
  let saves := x.saves - 1
  let loads := if x.saves = 0 then x.loads - 1 else x.loads
  let x := { x with saves := saves, loads := loads, due := if saves = 0 && loads = 0 || first then d else s.now + 1 }
  let m := (s.cr p).matrix
  s.setMatrix p { m with claims := m.claims.filter (·.what ≠ x.what) ++ [x] }

/-- The save areas of a claim: the owner's where it saves, the running context's where that has saved what is claimed. -/
def State.claimAreas (s : State) (p what : Nat) : List Nat :=
  let area := fun (id : Nat) => ((s.ctx? id).map (·.savea)).toList
  area (Sparse.get 0 (s.cr p).matrix.owner what) ++ (if s.claimLoads p what then area (s.cr p).ctxId else [])

/-- The claim that asks for a turn of port 3; the lines that it reads back wait while the link to them retrains (R399). -/
def State.claimAsks (s : State) (p : Nat) : Option Claim :=
  let trains := match s.ctx? (s.cr p).ctxId with | some k => s.farLink k.savea = .wait | none => false
  (s.cr p).matrix.claims.find? fun x => (x.saves ≠ 0 || x.loads ≠ 0) && x.due ≤ s.now && !(x.saves = 0 && trains)

/-- What fails a claim, and where: a lost link to a save area (R399), or a poisoned word of saved bits (R393). -/
def State.claimFault (s : State) (p what : Nat) : Option (Cause × Nat) :=
  let lost := (s.claimAreas p what).findSome? fun a => match s.farLink a with
    | .fail c => some (c, a)
    | _ => none
  match s.ctx? (s.cr p).ctxId with
  | some k => if s.poisoned k.savew then some (.uncorrectable, k.savew) else lost
  | none => lost

/-- The effect of CLAIM_COMPLETE: a claim whose lines have all passed is done. One that fails raises its exception for the stream of the
use, leaves what it claims with its owner, and is made again once the stream goes on (DEDUCED, log 115). -/
def claimEff (s : State) (p : Nat) : Option State :=
  let m := (s.cr p).matrix
  (m.claims.find? fun x => x.saves = 0 && x.loads = 0 && x.due ≤ s.now).map fun x =>
    let drop := fun (s : State) =>
      let m := (s.cr p).matrix
      s.setMatrix p { m with claims := m.claims.filter (·.what ≠ x.what) }
    match s.claimFault p x.what with
    | some (c, a) =>
      let k := s.cr p
      ((drop s).logFail p c a (BitVec.ofNat 64 a)).takeTrap p x.stream (k.st (k.lead x.stream)).lane c (BitVec.ofNat 64 a) 0 0 0
    | none => drop ((s.saveOut p x.what).loadIn p x.what (s.cr p).ctxId)

/-- What must be claimed is asked for, unless a claim of it goes on, or has failed and its stream has not gone on. -/
def State.claimFor (s : State) (p what : Nat) (st : Stream) : Option State :=
  let c := s.cr p
  if c.matrix.claims.any (·.what = what) || ((c.st st).hlt && (s.claimFault p what).isSome) then none
  else some (s.startClaim p what st)

/-! ### The head of the command queue -/

/-- What the command at the head of the matrix queue can do now. -/
inductive HeadState where
  /-- Nothing: no command, or it waits for time that passes by itself. -/
  | idle
  | claim (what : Nat)
  /-- It lacks an entry of a queue (R186, R198). -/
  | starved (q : Nat)
  | go
  deriving DecidableEq, Repr

/-- The bytes of an index entry. -/
def indexBytes (l : Line) : List Nat := (lineBytes l).map (·.toNat)

/-- The queue entries that row `j` of a stream command takes (R184): entries needed at the head of the data queue, entries
popped, whether the row is the second of its entry. -/
def rowEntries (x : Word) (j n : Nat) : Nat × Nat × Bool :=
  let r := rowBytes x
  if r ≤ 128 then (1, if j % 2 = 1 || j + 1 = n then 1 else 0, j % 2 = 1)
  else (ceilDiv r 256, ceilDiv r 256, false)

/-- The first queue that lacks an entry for row `j` of a stream command. -/
def rowLacks (c : Core) (now : Nat) (x : Word) (q sq j n : Nat) (iq : Option Nat) : Option Nat :=
  let have_ := fun (q k : Nat) => k ≤ ((c.q q).poppable now).length
  if !have_ q (rowEntries x j n).1 then some q
  else if fwMx x && !have_ sq 1 then some sq
  else match iq with
    | some i => if j = 0 && !have_ i 1 then some i else none
    | none => none

/-- Judges the head of the matrix queue. -/
def Core.headState (c : Core) (now : Nat) : HeadState :=
  let m := c.matrix
  match m.queue with
  | [] => .idle
  | h :: _ =>
    if c.clk < m.freeAt || m.claims.any (·.stream = .k) then .idle
    else match c.headClaim h.kind with
      | some w => .claim w
      | none => match h.kind with
        | .stream _ x q sq _ n iq =>
          if m.rampEnd.any fun e => e ≤ c.clk + 16 then .idle
          else match rowLacks c now x q sq h.rows n iq with
            | some l => .starved l
            | none => .go
        | .spill slot _ _ => if m.rows.any (·.slot = slot) || m.landed.contains slot then .idle else .go
        | .bind _ q srcs =>
          if h.start.isSome then .go
          else if !m.rows.isEmpty || !m.landed.isEmpty then .idle
          else if h.coefs.length + ((c.q q).poppable now).length < srcs.length then .starved q
          else .go
        | _ => .go

/-- A command that takes no cycle of its own, so that the next takes effect in the same cycle. -/
def MKind.instant : MKind → Bool
  | .flip | .zeroSlot _ | .free => true
  | _ => false

/-- The queue that starves a core (R186, R198): the first command that takes cycles lacks an entry. A joined core freezes, in forked
mode K waits. -/
def Core.starved (c : Core) (now : Nat) : Option Nat :=
  let m := c.matrix
  if (m.queue.takeWhile (·.kind.instant)).any fun h => (c.headClaim h.kind).isSome then none
  else match ({ c with matrix := { m with queue := m.queue.dropWhile (·.kind.instant) } } : Core).headState now with
    | .starved q => some q
    | _ => none

/-- The command at the head is done, and its place in the queue is free (log 110). -/
def Matrix.next (m : Matrix) : Matrix := { m with queue := m.queue.drop 1 }

/-- Changes the command at the head. -/
def Matrix.setHead (m : Matrix) (h : MCmd) : Matrix := { m with queue := h :: m.queue.drop 1 }

/-- Pops `n` entries of a queue. -/
def Core.popN (c : Core) (q n : Nat) : Core :=
  let x := c.q q
  c.setQ q { entries := x.entries.drop n, pops := x.pops + n, rpos := x.rpos + n }

/-- The bits of row `j` from the head entries of the data queue (R184). -/
def rowBits (ls : List Line) (x : Word) (j n : Nat) : Nat :=
  let (need, _, second) := rowEntries x j n
  let v := bytesVal ((ls.take need).flatMap lineBytes)
  if second then v / 2 ^ 1024 else v

/-- A command that streams against a poisoned plane raises UNCORRECTABLE once, at its position, and its rows go on with the plane's
bytes as they stand (R393; DESIGN CHOICE, log 93). -/
def MCmd.fail (h : MCmd) (bad : Bool) : MCmd := { h with failed := h.failed || bad }

/-- Row `j` of the stream command at the head enters the array in this cycle. -/
def Core.enterRow (c : Core) (now : Nat) (h : MCmd) (slot : Nat) (x : Word) (q sq row0 n : Nat) (iq : Option Nat) : Core :=
  let m := c.matrix
  let j := h.rows
  let (idx, c) := match iq, j with
    | some i, 0 => (((c.q i).poppable now).head?, c.popN i 1)
    | _, _ => (h.index, c)
  let dest := match iq with
    | some _ => (indexBytes (idx.getD 0)).getD j 64
    | none => row0 + j
  let again := iq.isSome && ((indexBytes (idx.getD 0)).take j).contains dest
  let row := rowBits ((c.q q).poppable now) x j n
  let sc := match ((c.q sq).poppable now).head? with | some l => lineBytes l | none => []
  let scale := fun (g : Nat) => (sc.getD (16 * (j % 16) + g) 0).toNat
  let last := j + 1 = n
  let land : Landing := .sums dest x ((List.range 64).map (columnSums m.active x row scale)) (fwSop x = 1 && !again)
  let r : ArrayRow := ⟨slot, land, c.clk + rowCycles x - 1 + 20, h.seq⟩
  let c := c.popN q (rowEntries x j n).2.1
  let c := if fwMx x && (j % 16 = 15 || last) then c.popN sq 1 else c
  let m := if last then m.next else m.setHead { h with rows := j + 1, index := idx }
  { c with matrix := { m with
      rows := if dest < 64 then m.rows ++ [r] else m.rows, freeAt := c.clk + rowCycles x, busyTo := c.clk + rowCycles x } }

/-- The effect of MATRIX_ROW_ENTRY: the next row of the stream command at the head, the row-entry cycle of an MZERO, or a
command without cycles that has come to the head; a cold array starts its ramp-up (R196), a foreign slot its claim. A row behind an
MZERO enters from the cycle after the MZERO's row-entry cycle (DEDUCED, log 112). -/
def rowEntryEff (s : State) (p : Nat) : Option State :=
  let c := s.cr p
  let m := c.matrix
  if !c.clocked then none
  else match m.queue with
    | [] => none
    | h :: _ => match c.headState s.now with
      | .claim w => s.claimFor p w .k
      | .go => match h.kind with
        | .stream slot x q sq row0 n iq =>
          if m.warm then
            let bad := !m.active.bad.isEmpty
            let t := s.setCr p (c.enterRow s.now (h.fail bad) slot x q sq row0 n iq)
            some (if bad && !h.failed then t.asyncTrap p 2 (c.task.getD {}) h.pos .uncorrectable 0 else t)
          else some (s.setMatrix p { m with rampEnd := some (c.clk + 16) })
        | .zero slot =>
          let rows := match slot with
            | some x => [(⟨x, .zeros, c.clk + 20, h.seq⟩ : ArrayRow)]
            | none => []
          some (s.setMatrix p { m.next with rows := m.rows ++ rows, freeAt := c.clk + 1 })
        | .zeroSlot slot =>
          match (m.rows.filter (·.slot = slot)).getLast? with
          | some r => some (s.setMatrix p { m.next with rows := m.rows ++ [⟨slot, .zeros, r.addAt, h.seq⟩] })
          | none => some (s.setMatrix p (m.next.zeroSlot slot))
        | .free => some (s.setMatrix p m.next)
        | _ => none
      | _ => none

/-- The effect of MFLIP_EFFECT, in the first cycle in which the array is free behind the last earlier row (DESIGN CHOICE, log 113). -/
def flipEff (s : State) (p : Nat) : Option State :=
  let c := s.cr p
  let m := c.matrix
  match m.queue with
  | h :: _ =>
    if c.clocked && h.kind = .flip && c.headState s.now = .go then
      some (s.setMatrix p { m.next with active1 := !m.active1 })
    else none
  | [] => none

/-! ### Landings (R185, R191) -/

/-- The sums of a row are added to its slot row (R98). -/
def Matrix.addRow (m : Matrix) (slot row : Nat) (x : Word) (cols : List (List Num)) (zero : Bool) : Matrix :=
  let old := if zero then List.replicate 64 0 else m.row slot row
  let bad := !zero && m.poison.contains (slot * 64 + row)
  let m := m.setRow slot row (List.zipWith (contribute x) old cols)
  if bad then { m with poison := (slot * 64 + row) :: m.poison } else m

/-- The row in the array that lands at the end of this cycle; in a restored record its slot may be foreign, and is claimed first
(R280). -/
def Core.landing (c : Core) : Option (ArrayRow × List ArrayRow) :=
  match c.matrix.rows with
  | r :: rest => if c.clocked && r.addAt ≤ c.clk then some (r, rest) else none
  | [] => none

/-- The effect of SLOT_ROW_ADD. -/
def rowAddEff (s : State) (p : Nat) : Option State :=
  let c := s.cr p
  let m := c.matrix
  match c.landing with
  | some (r, rest) => match r.land, c.mustClaim (some r.slot) with
    | .sums .., some w => s.claimFor p w .k
    | .sums row x cols zero, none =>
      some (s.setMatrix p ({ m with rows := rest, landed := r.slot :: m.landed }.addRow r.slot row x cols zero))
    | .zeros, _ => none
  | none => none

/-- The effect of MZERO_EFFECT. -/
def zeroEff (s : State) (p : Nat) : Option State :=
  let c := s.cr p
  let m := c.matrix
  match c.landing with
  | some (r, rest) => match r.land, c.mustClaim (some r.slot) with
    | .zeros, some w => s.claimFor p w .k
    | .zeros, none => some (s.setMatrix p ({ m with rows := rest, landed := r.slot :: m.landed }.zeroSlot r.slot))
    | .sums .., _ => none
  | none => none

/-! ### Spills (R194) -/

/-- The effect of SLOT_SPILL: a spill whose 128 lines have been written has taken effect. -/
def spillEff (s : State) (p : Nat) : Option State :=
  let c := s.cr p
  let m := c.matrix
  match m.queue with
  | h :: _ => match h.kind with
    | .spill .. =>
      if c.clocked && c.headState s.now = .go && h.lines = 128 then
        some (s.setMatrix p { m.next with freeAt := c.clk + 1 })
      else none
    | _ => none
  | [] => none

/-! ### BIND (R198, R199) -/

/-- The reads of a BIND go on past the labels whose images have all been read, each with the 64 cycles of its slot (R199); `srcs` are
the labels from the present one on. -/
def MCmd.pastLabels (h : MCmd) : List (Option Nat × List Nat) → MCmd
  | [] => h
  | x :: rest =>
    if h.lines < 128 * x.2.length then h
    else { h with label := h.label + 1, lines := 0, cursor := h.cursor + 64 }.pastLabels rest

/-- The effect of BIND_START: it pops coefficient entries, in forked mode as they come; with the last of them BIND starts, and its reads
begin. -/
def bindStartEff (s : State) (p : Nat) : Option State :=
  let c := s.cr p
  match c.matrix.queue with
  | h :: _ => match h.kind with
    | .bind _ q srcs =>
      let lacks := c.headState s.now = .starved q
      let got := ((c.q q).poppable s.now).take (srcs.length - h.coefs.length)
      if !c.clocked || h.start.isSome || !(c.headState s.now = .go || c.forked && lacks && !got.isEmpty) then none
      else
        let c := c.popN q got.length
        let coefs := h.coefs ++ got
        if coefs.length < srcs.length then
          some (s.setCr p { c with matrix := c.matrix.setHead { h with coefs := coefs } })
        else
          let h := { h with coefs := coefs, start := some c.clk, cursor := c.clk }
          some (s.setCr p { c with matrix := c.matrix.setHead (h.pastLabels srcs) })
    | _ => none
  | [] => none

/-- The sum of two partial values, with one rounding (R198). -/
def addPart (x y : DWord) : DWord := round64 ((num64 x).add (num64 y))

/-- The frame of the image that holds the line which a BIND reads next, and the line within it. -/
def MCmd.imageLine (h : MCmd) (srcs : List (Option Nat × List Nat)) : Nat × Nat :=
  (((srcs.map (·.2)).getD h.label []).getD (h.lines / 128) 0, h.lines % 128)

/-- A BIND reads its next line of an image: 32 elements of a row are added to the present label's sums. -/
def MCmd.readImage (h : MCmd) (s : State) (p clk : Nat) (srcs : List (Option Nat × List Nat)) : MCmd :=
  let (frame, k) := h.imageLine srcs
  let pa := nearFrame p frame + 256 * k
  let base := h.label * 4096 + k * 32
  let sums := (bytesWords 32 (s.readBytes pa 256)).foldl (fun (x : Sparse DWord × Nat) v =>
    (Sparse.set 0 x.1 (base + x.2) (addPart (Sparse.get 0 x.1 (base + x.2)) v), x.2 + 1)) (h.parts, 0)
  { h with
    parts := sums.1
    bads := if s.poisoned pa then (h.label * 64 + k / 2) :: h.bads else h.bads
    lines := h.lines + 1, cursor := clk + 1 }.pastLabels (srcs.drop h.label)

/-- Row `r` of the destination of a BIND, with its poison (R198). -/
def MCmd.bindRow (h : MCmd) (m : Matrix) (r : Nat) (srcs : List (Option Nat × List Nat)) : List DWord × Bool :=
  let labels := List.zip (List.range srcs.length) (List.zip h.coefs (srcs.map (·.1)))
  let slotRow := fun (slot : Option Nat) => match slot with | some x => m.row x r | none => List.replicate 64 0
  let row := (List.range 64).map fun n =>
    labels.foldl (fun acc (l, coef, slot) =>
      let part := addPart (Sparse.get 0 h.parts (l * 4096 + r * 64 + n)) ((slotRow slot).getD n 0)
      round64 (((fmtDecode 1 (elem coef.toNat 32 r)).mul (num64 part)).add (num64 acc))) (0 : DWord)
  (row, labels.any fun (l, _, slot) => h.bads.contains (l * 64 + r) || slot.any fun x => m.poison.contains (x * 64 + r))

/-- The clock at whose end row `r` of a BIND of `m` labels is written, once every image has been read: 16 cycles into the reads of
the last label's slot (R199). -/
def MCmd.bindRowAt (h : MCmd) (m r : Nat) : Option Nat :=
  if h.label < m then none else if m = 0 then h.start.map (· + 15) else some (h.cursor - 48 + r)

/-- The effect of BIND_ROW_WRITE. -/
def bindRowEff (s : State) (p : Nat) : Option State :=
  let c := s.cr p
  let m := c.matrix
  match m.queue with
  | h :: _ => match h.kind with
    | .bind slot _ srcs =>
      if c.clocked && c.headState s.now = .go && h.start.isSome && (h.bindRowAt srcs.length h.rows).any (· ≤ c.clk) then
        let (row, bad) := h.bindRow m h.rows srcs
        let m1 := m.setRow slot h.rows row
        let m2 := if bad then { m1 with poison := (slot * 64 + h.rows) :: m1.poison } else m1
        some (s.setMatrix p (if h.rows = 63 then { m2.next with freeAt := c.clk + 1 }
          else m2.setHead { h with rows := h.rows + 1 }))
      else none
    | _ => none
  | [] => none

/-! ### Turns of port 3 (R11, R194, R199, R280) -/

/-- A line that the matrix engine moves through port 3 now: of a claim, of the spill or of an image of the BIND at the head of the
queue, the claim first (DESIGN CHOICE, log 17). -/
inductive MatrixTurn where
  | claim (x : Claim)
  | spill (h : MCmd) (slot frame : Nat)
  | image (h : MCmd) (srcs : List (Option Nat × List Nat))

/-- The line of the head command. -/
def State.headTurn (s : State) (p : Nat) : Option MatrixTurn :=
  let c := s.cr p
  match c.matrix.queue with
  | h :: _ =>
    if !c.clocked || c.headState s.now ≠ .go || c.clk < h.cursor then none
    else match h.kind with
      | .spill slot frame _ => if h.lines < 128 then some (.spill h slot frame) else none
      | .bind _ _ srcs => if h.start.isSome && h.label < srcs.length then some (.image h srcs) else none
      | _ => none
  | [] => none

/-- The matrix engine's request of port 3. -/
def State.matrixTurn (s : State) (p : Nat) : Option MatrixTurn :=
  match s.claimAsks p with
  | some x => some (.claim x)
  | none => s.headTurn p

/-- The line moves. -/
def State.matrixServe (s : State) (p : Nat) (t : MatrixTurn) : State :=
  let c := s.cr p
  match t with
  | .claim x => s.claimLine p x
  | .spill h slot frame =>
    (s.writeSlotLine c.matrix slot (nearFrame p frame) h.lines).setMatrix p
      (c.matrix.setHead { h with lines := h.lines + 1, cursor := c.clk + 1 })
  | .image h srcs => s.setMatrix p (c.matrix.setHead (h.readImage s p c.clk srcs))

/-! ### The steps -/

/-- MATRIX_ROW_ENTRY (R185). -/
def execMatrixRowEntry (p : Nat) (s : State) : Host.Outcome State Fault Refusal := event (rowEntryEff s p) s

/-- RAMP_UP_END (R197). -/
def execRampUpEnd (p : Nat) (s : State) : Host.Outcome State Fault Refusal := event (rampEff s p) s

/-- SLOT_ROW_ADD (R185). -/
def execSlotRowAdd (p : Nat) (s : State) : Host.Outcome State Fault Refusal := event (rowAddEff s p) s

/-- MFLIP_EFFECT (R188). -/
def execMflipEffect (p : Nat) (s : State) : Host.Outcome State Fault Refusal := event (flipEff s p) s

/-- MZERO_EFFECT (R191). -/
def execMzeroEffect (p : Nat) (s : State) : Host.Outcome State Fault Refusal := event (zeroEff s p) s

/-- SLOT_SPILL (R194). -/
def execSlotSpill (p : Nat) (s : State) : Host.Outcome State Fault Refusal := event (spillEff s p) s

/-- BIND_START (R198). -/
def execBindStart (p : Nat) (s : State) : Host.Outcome State Fault Refusal := event (bindStartEff s p) s

/-- BIND_ROW_WRITE (R199). -/
def execBindRowWrite (p : Nat) (s : State) : Host.Outcome State Fault Refusal := event (bindRowEff s p) s

/-- ARRAY_COLD (R196). -/
def execArrayCold (p : Nat) (s : State) : Host.Outcome State Fault Refusal := event (coldEff s p) s

/-- HINT_TARGET_REACHED (R197). -/
def execHintTargetReached (p : Nat) (s : State) : Host.Outcome State Fault Refusal := event (hintEff s p) s

/-- CLAIM_COMPLETE (R280). -/
def execClaimComplete (p : Nat) (s : State) : Host.Outcome State Fault Refusal := event (claimEff s p) s

end Sys2Proof.Machine
end

