-- ==== Sys2Proof/Machine/Vector.lean ====
section
/-! DEFINITION. The vector unit (09): lanes and predicates, the lane-wise instructions, conversion and quantisation, lane
operations and predicates, with the ready times of R207. -/

namespace Sys2Proof.Machine

/-! ### Lane types (R203) -/

/-- The lane width of a TY. -/
def tyWidth (ty : BitVec 3) : Nat :=
  match ty.toNat with
  | 0 | 3 => 32
  | 1 | 2 | 4 => 16
  | _ => 8

/-- The lanes of a register. -/
def tyLanes (ty : BitVec 3) : Nat := 2048 / tyWidth ty

/-- The integer types. -/
def tyInt (ty : BitVec 3) : Bool := 3 ≤ ty.toNat && ty.toNat ≤ 5

/-- The format code of a float type. -/
def tyFmt (ty : BitVec 3) : Nat :=
  match ty.toNat with
  | 0 => 1
  | 1 => 3
  | 2 => 4
  | 6 => 5
  | _ => 6

/-- The value of a lane. -/
def tyNum (ty : BitVec 3) (x : Nat) : Num :=
  if tyInt ty then .ofInt (toSigned (tyWidth ty) x) else fpDecode (fpFmt (tyFmt ty)) x

/-- A value rounded once by RNE to a float type (R212). -/
def tyRound (ty : BitVec 3) (x : Num) : Nat := fpRound (fpFmt (tyFmt ty)) 0 true x

/-! ### Starting and finishing (R207) -/

/-- The start cycle of a vector or predicate instruction: one per cycle; the further ones of a joined line freeze the core
(R207). -/
def vstart : Act Nat := fun s =>
  let c := s.me
  let t := max c.rclk c.vnext
  .ok (t, s.setMe { c with vnext := t + 1, vhold := if c.forked then c.vhold else max c.vhold (t + 1) })

/-- Writes a vector register, ready `lat` cycles after the start. -/
def finishV (d : BitVec 5) (v : Line) (lat : Nat) : Act Unit := do
  let t ← vstart
  modCore fun c =>
    if lat = 0 then
      let c := c.kill (.v d)
      { c with regs := { c.regs with v := c.regs.v.setIfInBounds d.toNat v } }
    else c.later (.v d) v t lat

/-- Writes a K scalar, ready `lat` cycles after the start. -/
def finishK (d : BitVec 5) (v : Word) (lat : Nat) : Act Unit := do
  let t ← vstart
  modCore fun c => if lat = 0 then putK c d v else c.later (.k d) (v.setWidth 2048) t lat

/-- Writes a predicate. -/
def finishP (d : BitVec 5) (v : BitVec 256) : Act Unit := do
  let _ ← vstart
  modCore fun c => { c with regs := { c.regs with p := c.regs.p.setIfInBounds d.toNat v } }

/-- A predicate register. -/
def readP (n : BitVec 5) : Act (BitVec 256) := do return (← core).regs.p.getD n.toNat 0

/-- A K scalar field's low 32 bits (R202). -/
def readK32 (r : BitVec 5) : Act Word := do return (← readK r).setWidth 32

/-- The active lanes of a governing field `P` (R204). -/
def activeLanes (p : BitVec 3) : Act (Nat → Bool) := do
  let v ← readP (p.setWidth 5)
  return fun i => p = 0 || v.getLsbD i

/-- The old destination, awaited where an instruction reads it: as a source, or to keep inactive lanes (R204). -/
def oldV (d : BitVec 5) (needed : Bool) : Act Line := do
  if needed then readV d else return (← core).regs.v.getD d.toNat 0

/-- A lane-wise instruction (R204, R205): sources `xs`, ready time, and the new value of an active lane from the sources,
the old destination and the lane number. -/
def laneWise (i : Instr) (w : BitVec 2) (d : BitVec 5) (xs : List (BitVec 5)) (z : BitVec 1) (p ty : BitVec 3)
    (lat : Nat) (useD : Bool) (f : List Line → Line → Nat → Nat) (s : State) : Host.Outcome State Fault Refusal :=
  run i w (do
    let vs ← xs.mapM readV
    let old ← oldV d (useD || (z = 0 && p ≠ 0))
    let act ← activeLanes p
    let k := tyWidth ty
    finishV d (ofLanes k ((List.range (tyLanes ty)).map fun j =>
      if act j then f vs old j else if z = 1 then 0 else lane k old j)) lat) s

/-- Source `n` of a lane-wise instruction at lane `j`. -/
def src (ty : BitVec 3) (vs : List Line) (n j : Nat) : Nat := lane (tyWidth ty) (vs.getD n 0) j

/-- A float instruction of one source (R212, R213). -/
def float1 (i : Instr) (w : BitVec 2) (d a : BitVec 5) (z : BitVec 1) (p ty : BitVec 3) (lat : Nat) (f : Num → Num)
    (s : State) : Host.Outcome State Fault Refusal :=
  laneWise i w d [a] z p ty lat false (fun vs _ j => tyRound ty (f (tyNum ty (src ty vs 0 j)))) s

/-- A float instruction of two sources (R212). -/
def float2 (i : Instr) (w : BitVec 2) (d a b : BitVec 5) (z : BitVec 1) (p ty : BitVec 3) (f : Num → Num → Num)
    (s : State) : Host.Outcome State Fault Refusal :=
  laneWise i w d [a, b] z p ty 4 false
    (fun vs _ j => tyRound ty (f (tyNum ty (src ty vs 0 j)) (tyNum ty (src ty vs 1 j)))) s

/-- A fused instruction (R212): the old destination lane is a source. -/
def float3 (i : Instr) (w : BitVec 2) (d a b : BitVec 5) (z : BitVec 1) (p ty : BitVec 3) (f : Num → Num → Num → Num)
    (s : State) : Host.Outcome State Fault Refusal :=
  laneWise i w d [a, b] z p ty 4 true
    (fun vs old j => tyRound ty (f (tyNum ty (src ty vs 0 j)) (tyNum ty (src ty vs 1 j))
      (tyNum ty (lane (tyWidth ty) old j)))) s

/-- A bitwise or integer instruction of two sources on raw lanes (R218). -/
def int2 (i : Instr) (w : BitVec 2) (d a b : BitVec 5) (z : BitVec 1) (p ty : BitVec 3) (lat : Nat)
    (f : Nat → Nat → Nat) (s : State) : Host.Outcome State Fault Refusal :=
  laneWise i w d [a, b] z p ty lat false (fun vs _ j => f (src ty vs 0 j) (src ty vs 1 j)) s

/-- A signed result that wraps or, with `x` = 1, saturates to its lane (R218). -/
def intResult (ty : BitVec 3) (x : BitVec 1) (v : Int) : Nat :=
  let w := tyWidth ty
  if x = 1 then ofSigned w (max (-(2 ^ (w - 1))) (min (2 ^ (w - 1) - 1) v)) else ofSigned w v

/-- A signed operation on lanes. -/
def signedOp (ty : BitVec 3) (x : BitVec 1) (f : Int → Int → Int) (a b : Nat) : Nat :=
  intResult ty x (f (toSigned (tyWidth ty) a) (toSigned (tyWidth ty) b))

/-- The shift count of a lane. -/
def shiftCount (ty : BitVec 3) (b : Nat) : Nat := b % tyWidth ty

/-! ### Moving data (R209-R211) -/

/-- VPOP of a data queue (R209). -/
def execVpop (w : BitVec 2) (d q : BitVec 5) (s : State) : Host.Outcome State Fault Refusal :=
  run (.vpop w d q) w (do
    require (q.toNat ≤ 3) .queueMisuse
    let v ← popQ q.toNat
    finishV d v 0) s

/-- VPOP of sq1 into a K scalar (R209). -/
def execVpopK (w : BitVec 2) (d q : BitVec 5) (s : State) : Host.Outcome State Fault Refusal :=
  run (.vpopK w d q) w (do
    require (q = 8) .queueMisuse
    let v ← popQ 8
    finishK d (v.setWidth 32) 0) s

/-- VPUSH (R210). -/
def execVpush (w : BitVec 2) (q a : BitVec 5) (s : State) : Host.Outcome State Fault Refusal :=
  run (.vpush w q a) w (do
    require (q = 4 || q = 5) .queueMisuse
    let v ← readV a
    pushQ q.toNat v
    let _ ← vstart) s

/-- VPUSH of a K scalar to oq0 (R210). -/
def execVpushOq0 (w : BitVec 2) (q a : BitVec 5) (s : State) : Host.Outcome State Fault Refusal :=
  run (.vpushOq0 w q a) w (do
    require (q = 10) .queueMisuse
    let v ← readK a
    pushQ 10 (v.setWidth 2048)
    let _ ← vstart) s

/-- VMOV (R211). -/
def execVmov (w : BitVec 2) (d a : BitVec 5) (z : BitVec 1) (p ty : BitVec 3) (s : State) :
    Host.Outcome State Fault Refusal :=
  laneWise (.vmov w d a z p ty) w d [a] z p ty 0 false (fun vs _ j => src ty vs 0 j) s

/-- VMOV of one lane to a K scalar (R211). -/
def execVmovK (w : BitVec 2) (d a b : BitVec 5) (ty : BitVec 3) (s : State) : Host.Outcome State Fault Refusal :=
  run (.vmovK w d a b ty) w (do
    let v ← readV a
    let k ← readK32 b
    let x := lane (tyWidth ty) v (k.toNat % tyLanes ty)
    finishK d (BitVec.ofNat 32 (if ty = 4 || ty = 5 then ofSigned 32 (toSigned (tyWidth ty) x) else x)) 0) s

/-- VBCAST of a K scalar (R211). -/
def execVbcast (w : BitVec 2) (d a : BitVec 5) (z : BitVec 1) (p ty : BitVec 3) (s : State) :
    Host.Outcome State Fault Refusal :=
  run (.vbcast w d a z p ty) w (do
    let k ← readK32 a
    let old ← oldV d (z = 0 && p ≠ 0)
    let act ← activeLanes p
    let n := tyWidth ty
    finishV d (ofLanes n ((List.range (tyLanes ty)).map fun j =>
      if act j then bits k.toNat 0 n else if z = 1 then 0 else lane n old j)) 0) s

/-- VBCAST of a lane (R211). -/
def execVbcastLane (w : BitVec 2) (d a b : BitVec 5) (z : BitVec 1) (p ty : BitVec 3) (s : State) :
    Host.Outcome State Fault Refusal :=
  run (.vbcastLane w d a b z p ty) w (do
    let v ← readV a
    let k ← readK32 b
    let old ← oldV d (z = 0 && p ≠ 0)
    let act ← activeLanes p
    let n := tyWidth ty
    let x := lane n v (k.toNat % tyLanes ty)
    finishV d (ofLanes n ((List.range (tyLanes ty)).map fun j =>
      if act j then x else if z = 1 then 0 else lane n old j)) 0) s

/-- VLI (R211). -/
def execVli (w : BitVec 2) (d : BitVec 5) (z : BitVec 1) (p ty : BitVec 3) (imm : BitVec 32) (s : State) :
    Host.Outcome State Fault Refusal :=
  laneWise (.vli w d z p ty imm) w d [] z p ty 0 false (fun _ _ _ => bits imm.toNat 0 (tyWidth ty)) s

/-- VLI of a K scalar (R211). -/
def execVliK (w : BitVec 2) (d : BitVec 5) (imm : BitVec 32) (s : State) : Host.Outcome State Fault Refusal :=
  run (.vliK w d imm) w (finishK d imm 0) s

/-! ### Floating point (R212, R213) -/

/-- VADD (R212). -/
def execVadd (w : BitVec 2) (d a b : BitVec 5) (z : BitVec 1) (p ty : BitVec 3) (s : State) :
    Host.Outcome State Fault Refusal :=
  float2 (.vadd w d a b z p ty) w d a b z p ty Num.add s

/-- VSUB (R212). -/
def execVsub (w : BitVec 2) (d a b : BitVec 5) (z : BitVec 1) (p ty : BitVec 3) (s : State) :
    Host.Outcome State Fault Refusal :=
  float2 (.vsub w d a b z p ty) w d a b z p ty (fun a b => a.add b.negate) s

/-- VMUL (R212). -/
def execVmul (w : BitVec 2) (d a b : BitVec 5) (z : BitVec 1) (p ty : BitVec 3) (s : State) :
    Host.Outcome State Fault Refusal :=
  float2 (.vmul w d a b z p ty) w d a b z p ty Num.mul s

/-- VFMA (R212). -/
def execVfma (w : BitVec 2) (d a b : BitVec 5) (z : BitVec 1) (p ty : BitVec 3) (s : State) :
    Host.Outcome State Fault Refusal :=
  float3 (.vfma w d a b z p ty) w d a b z p ty (fun a b d => (a.mul b).add d) s

/-- VFMS (R212). -/
def execVfms (w : BitVec 2) (d a b : BitVec 5) (z : BitVec 1) (p ty : BitVec 3) (s : State) :
    Host.Outcome State Fault Refusal :=
  float3 (.vfms w d a b z p ty) w d a b z p ty (fun a b d => (a.mul b).add d.negate) s

/-- VNFMA (R212). -/
def execVnfma (w : BitVec 2) (d a b : BitVec 5) (z : BitVec 1) (p ty : BitVec 3) (s : State) :
    Host.Outcome State Fault Refusal :=
  float3 (.vnfma w d a b z p ty) w d a b z p ty (fun a b d => (a.mul b).negate.add d) s

/-- VMIN (R212). -/
def execVmin (w : BitVec 2) (d a b : BitVec 5) (z : BitVec 1) (p ty : BitVec 3) (s : State) :
    Host.Outcome State Fault Refusal :=
  float2 (.vmin w d a b z p ty) w d a b z p ty Num.min s

/-- VMAX (R212). -/
def execVmax (w : BitVec 2) (d a b : BitVec 5) (z : BitVec 1) (p ty : BitVec 3) (s : State) :
    Host.Outcome State Fault Refusal :=
  float2 (.vmax w d a b z p ty) w d a b z p ty Num.max s

/-- VABS (R212). -/
def execVabs (w : BitVec 2) (d a : BitVec 5) (z : BitVec 1) (p ty : BitVec 3) (s : State) :
    Host.Outcome State Fault Refusal :=
  float1 (.vabs w d a z p ty) w d a z p ty 4 Num.abs s

/-- VNEG (R212). -/
def execVneg (w : BitVec 2) (d a : BitVec 5) (z : BitVec 1) (p ty : BitVec 3) (s : State) :
    Host.Outcome State Fault Refusal :=
  float1 (.vneg w d a z p ty) w d a z p ty 4 Num.negate s

/-- VRCP (R213). -/
def execVrcp (w : BitVec 2) (d a : BitVec 5) (z : BitVec 1) (p ty : BitVec 3) (s : State) :
    Host.Outcome State Fault Refusal :=
  float1 (.vrcp w d a z p ty) w d a z p ty 12 Num.recip s

/-- VRSQ (R213). -/
def execVrsq (w : BitVec 2) (d a : BitVec 5) (z : BitVec 1) (p ty : BitVec 3) (s : State) :
    Host.Outcome State Fault Refusal :=
  float1 (.vrsq w d a z p ty) w d a z p ty 12 Num.rsqrt s

/-- VEXP2 (R213). -/
def execVexp2 (w : BitVec 2) (d a : BitVec 5) (z : BitVec 1) (p ty : BitVec 3) (s : State) :
    Host.Outcome State Fault Refusal :=
  float1 (.vexp2 w d a z p ty) w d a z p ty 12 Num.exp2 s

/-- VLOG2 (R213). -/
def execVlog2 (w : BitVec 2) (d a : BitVec 5) (z : BitVec 1) (p ty : BitVec 3) (s : State) :
    Host.Outcome State Fault Refusal :=
  float1 (.vlog2 w d a z p ty) w d a z p ty 12 Num.log2 s

/-! ### Conversion and quantisation (R214, R215) -/

/-- VCVT (R214). -/
def execVcvt (w : BitVec 2) (d a : BitVec 5) (dty : BitVec 3) (rnd seg : BitVec 2) (ov : BitVec 1) (sty : BitVec 3)
    (s : State) : Host.Outcome State Fault Refusal :=
  run (.vcvt w d a dty rnd seg ov sty) w (do
    let v ← readV a
    let ws := tyWidth sty
    let wd := tyWidth dty
    let old ← oldV d (wd < ws)
    let conv := fun (x : Nat) =>
      if tyInt dty then intConvert wd true rnd.toNat (ov = 1) (tyNum sty x)
      else fpRound (fpFmt (tyFmt dty)) rnd.toNat (ov = 1) (tyNum sty x)
    let k := 2048 / max ws wd
    let out := (List.range (2048 / wd)).map fun j =>
      if wd < ws then
        if seg.toNat * k ≤ j && j < (seg.toNat + 1) * k then conv (lane ws v (j - seg.toNat * k)) else lane wd old j
      else if ws < wd then conv (lane ws v (seg.toNat * k + j))
      else conv (lane ws v j)
    finishV d (ofLanes wd out) 4) s

/-- The MX formats and their emax values (R215). -/
def mxEmax (fmt : Nat) : Option Int :=
  match fmt with
  | 5 => some 15
  | 6 => some 8
  | 7 => some 4
  | 8 => some 2
  | 9 => some 2
  | _ => none

/-- The exponent of a nonzero finite value: floor(log2 |x|). -/
def Num.expo : Num → Int
  | .fin m e => ilog2 m.natAbs + e
  | _ => 0

/-- The group rule of VQ with `MX` = 1 (R215): the E8M0 code and the elements of a group. -/
def mxGroup (fmt rnd : Nat) (ov : Bool) (xs : List Num) : Nat × List Nat :=
  if xs.any fun x => x.isNan || x.isInf then (255, xs.map fun _ => fpNan (fpFmt fmt))
  else if xs.all Num.isZero then (0, xs.map fun x => fmtConvert fmt rnd ov ov x)
  else
    let top := (xs.filter fun x => !x.isZero).map Num.expo
    let hi := top.foldl max (top.getD 0 0)
    let code := (max 0 (min 254 (hi - (mxEmax fmt).getD 0 + 127))).toNat
    (code, xs.map fun x => fmtConvert fmt rnd ov ov (x.mul (.fin 1 (127 - (code : Int)))))

/-- VQ (R215). -/
def execVq (w : BitVec 2) (d a b : BitVec 5) (rnd : BitVec 2) (ov mx : BitVec 1) (fmt : BitVec 4) (s : State) :
    Host.Outcome State Fault Refusal :=
  run (.vq w d a b rnd ov mx fmt) w (do
    let f := fmt.toNat
    require (f ≤ 13 && (mx = 0 || (mxEmax f).isSome)) .formatInvalid
    let v ← readV a
    let old ← readV d
    let xs := (List.range 64).map fun j => fmtDecode 1 (lane 32 v j)
    let c := 8 * fmtWidth f
    let put := fun (ys : List Nat) =>
      finishV d (BitVec.ofNat 2048 (old.toNat / 2 ^ (8 * c) + pack (fmtWidth f) ys * 2 ^ (2048 - 8 * c))) 4
    if mx = 0 then
      let k ← readK32 b
      put (xs.map fun x => fmtConvert f rnd.toNat (ov = 1) (ov = 1) (x.mul (fmtDecode 1 k.toNat)))
    else
      let g0 := mxGroup f rnd.toNat (ov = 1) (xs.take 32)
      let g1 := mxGroup f rnd.toNat (ov = 1) (xs.drop 32)
      put (g0.2 ++ g1.2)
      modCore fun c => c.later (.k b) (BitVec.ofNat 2048 (g1.1 * 256 + g0.1)) (c.vnext - 1) 4) s

/-! ### Compare and select (R216, R217) -/

/-- The condition of VCMP on two lanes. -/
def compare (ty cond : BitVec 3) (a b : Nat) : Bool :=
  let w := tyWidth ty
  if tyInt ty then
    let x := toSigned w a
    let y := toSigned w b
    match cond.toNat with
    | 0 => a = b
    | 1 => a ≠ b
    | 2 => x < y
    | 3 => x ≤ y
    | 4 => y < x
    | 5 => y ≤ x
    | 6 => a < b
    | _ => b ≤ a
  else
    let x := tyNum ty a
    let y := tyNum ty b
    let un := x.isNan || y.isNan
    match cond.toNat with
    | 0 => !un && !x.lt y && !y.lt x
    | 1 => un || x.lt y || y.lt x
    | 2 => x.lt y
    | 3 => !un && !y.lt x
    | 4 => y.lt x
    | 5 => !un && !x.lt y
    | 6 => un
    | _ => !un

/-- A predicate from its bits. -/
def predOf (n : Nat) (f : Nat → Bool) : BitVec 256 :=
  BitVec.ofNat 256 (pack 1 ((List.range n).map fun i => if f i then 1 else 0))

/-- VCMP (R216). -/
def execVcmp (w : BitVec 2) (d a b : BitVec 5) (cond ty : BitVec 3) (s : State) : Host.Outcome State Fault Refusal :=
  run (.vcmp w d a b cond ty) w (do
    let x ← readV a
    let y ← readV b
    let n := tyWidth ty
    finishP d (predOf (tyLanes ty) fun j => compare ty cond (lane n x j) (lane n y j))) s

/-- VSEL (R217). -/
def execVsel (w : BitVec 2) (d a b : BitVec 5) (p ty : BitVec 3) (s : State) : Host.Outcome State Fault Refusal :=
  run (.vsel w d a b p ty) w (do
    let x ← readV a
    let y ← readV b
    let act ← activeLanes p
    let n := tyWidth ty
    finishV d (ofLanes n ((List.range (tyLanes ty)).map fun j => if act j then lane n x j else lane n y j)) 0) s

/-! ### Bitwise and integer operations (R218) -/

/-- VAND (R218). -/
def execVand (w : BitVec 2) (d a b : BitVec 5) (z : BitVec 1) (p ty : BitVec 3) (s : State) :
    Host.Outcome State Fault Refusal :=
  int2 (.vand w d a b z p ty) w d a b z p ty 0 (fun a b => a &&& b) s

/-- VOR (R218). -/
def execVor (w : BitVec 2) (d a b : BitVec 5) (z : BitVec 1) (p ty : BitVec 3) (s : State) :
    Host.Outcome State Fault Refusal :=
  int2 (.vor w d a b z p ty) w d a b z p ty 0 (fun a b => a ||| b) s

/-- VXOR (R218). -/
def execVxor (w : BitVec 2) (d a b : BitVec 5) (z : BitVec 1) (p ty : BitVec 3) (s : State) :
    Host.Outcome State Fault Refusal :=
  int2 (.vxor w d a b z p ty) w d a b z p ty 0 (fun a b => a ^^^ b) s

/-- VSHL (R218). -/
def execVshl (w : BitVec 2) (d a b : BitVec 5) (z : BitVec 1) (p ty : BitVec 3) (s : State) :
    Host.Outcome State Fault Refusal :=
  int2 (.vshl w d a b z p ty) w d a b z p ty 0 (fun a b => bits (a <<< shiftCount ty b) 0 (tyWidth ty)) s

/-- VSHR (R218). -/
def execVshr (w : BitVec 2) (d a b : BitVec 5) (z : BitVec 1) (p ty : BitVec 3) (s : State) :
    Host.Outcome State Fault Refusal :=
  int2 (.vshr w d a b z p ty) w d a b z p ty 0 (fun a b => a >>> shiftCount ty b) s

/-- VSAR (R218). -/
def execVsar (w : BitVec 2) (d a b : BitVec 5) (z : BitVec 1) (p ty : BitVec 3) (s : State) :
    Host.Outcome State Fault Refusal :=
  int2 (.vsar w d a b z p ty) w d a b z p ty 0 (fun a b => ofSigned (tyWidth ty) (toSigned (tyWidth ty) a / 2 ^ shiftCount ty b)) s

/-- VIADD (R218). -/
def execViadd (w : BitVec 2) (d a b : BitVec 5) (z : BitVec 1) (p : BitVec 3) (x : BitVec 1) (ty : BitVec 3) (s : State) :
    Host.Outcome State Fault Refusal :=
  int2 (.viadd w d a b z p x ty) w d a b z p ty 0 (signedOp ty x (fun a b => a + b)) s

/-- VISUB (R218). -/
def execVisub (w : BitVec 2) (d a b : BitVec 5) (z : BitVec 1) (p : BitVec 3) (x : BitVec 1) (ty : BitVec 3) (s : State) :
    Host.Outcome State Fault Refusal :=
  int2 (.visub w d a b z p x ty) w d a b z p ty 0 (signedOp ty x (fun a b => a - b)) s

/-- VIMUL (R218). -/
def execVimul (w : BitVec 2) (d a b : BitVec 5) (z : BitVec 1) (p : BitVec 3) (x : BitVec 1) (ty : BitVec 3) (s : State) :
    Host.Outcome State Fault Refusal :=
  int2 (.vimul w d a b z p x ty) w d a b z p ty 4 (signedOp ty x (fun a b => a * b)) s

/-- VIMIN (R218). -/
def execVimin (w : BitVec 2) (d a b : BitVec 5) (z : BitVec 1) (p : BitVec 3) (x : BitVec 1) (ty : BitVec 3) (s : State) :
    Host.Outcome State Fault Refusal :=
  int2 (.vimin w d a b z p x ty) w d a b z p ty 0 (fun a b => if x = 1 then min a b else signedOp ty 0 min a b) s

/-- VIMAX (R218). -/
def execVimax (w : BitVec 2) (d a b : BitVec 5) (z : BitVec 1) (p : BitVec 3) (x : BitVec 1) (ty : BitVec 3) (s : State) :
    Host.Outcome State Fault Refusal :=
  int2 (.vimax w d a b z p x ty) w d a b z p ty 0 (fun a b => if x = 1 then max a b else signedOp ty 0 max a b) s

/-! ### Lane operations (R219-R223) -/

/-- The operation of VRED and VSCAN on exact values: add, maximum, minimum. -/
def reduceNum (op : BitVec 2) (a b : Num) : Num :=
  if op = 0 then a.add b else if op = 1 then a.max b else a.min b

/-- The same on integers. -/
def reduceInt (op : BitVec 2) (a b : Int) : Int := if op = 0 then a + b else if op = 1 then max a b else min a b

/-- The neutral values (R219). -/
def unitNum (op : BitVec 2) : Num := if op = 0 then .zero false else .inf (op = 1)
def unitInt (w : Nat) (op : BitVec 2) : Int := if op = 0 then 0 else if op = 1 then -(2 ^ (w - 1)) else 2 ^ (w - 1) - 1

/-- An exact zero sum is +0; an extreme keeps its sign. -/
def plusZero (op : BitVec 2) (x : Num) : Num := if op = 0 && x.isZero then .zero false else x

/-- VRED (R219). -/
def execVred (w : BitVec 2) (d a : BitVec 5) (op : BitVec 2) (p ty : BitVec 3) (s : State) :
    Host.Outcome State Fault Refusal :=
  run (.vred w d a op p ty) w (do
    let v ← readV a
    let act ← activeLanes p
    let n := tyWidth ty
    let xs := ((List.range (tyLanes ty)).filter act).map (lane n v)
    let r := if tyInt ty then ofSigned 32 ((xs.map (toSigned n)).foldl (reduceInt op) (unitInt n op))
      else fpRound (fpFmt 1) 0 true (plusZero op ((xs.map (tyNum ty)).foldl (reduceNum op) (unitNum op)))
    finishK d (BitVec.ofNat 32 r) 8) s

/-- The running results of a list, the first lowest. -/
def scanList {α β : Type} (f : α → β → α) (x : α) : List β → List α
  | [] => []
  | y :: ys => f x y :: scanList f (f x y) ys

/-- VSCAN (R220). -/
def execVscan (w : BitVec 2) (d a : BitVec 5) (op : BitVec 2) (p ty : BitVec 3) (s : State) :
    Host.Outcome State Fault Refusal :=
  run (.vscan w d a op p ty) w (do
    let v ← readV a
    let act ← activeLanes p
    let n := tyWidth ty
    let js := List.range (tyLanes ty)
    let out := if tyInt ty then
        (scanList (fun r j => if act j then reduceInt op r (toSigned n (lane n v j)) else r) (unitInt n op) js).map
          (ofSigned n)
      else
        (scanList (fun r j => if act j then reduceNum op r (tyNum ty (lane n v j)) else r) (unitNum op) js).map
          fun x => tyRound ty (plusZero op x)
    finishV d (ofLanes n (List.zipWith (fun j x => if act j then x else 0) js out)) 8) s

/-- VPERM (R221). -/
def execVperm (w : BitVec 2) (d a b : BitVec 5) (z : BitVec 1) (p ty : BitVec 3) (s : State) :
    Host.Outcome State Fault Refusal :=
  laneWise (.vperm w d a b z p ty) w d [a, b] z p ty 0 false (fun vs _ j =>
    let k := src ty vs 1 j
    if k < tyLanes ty then src ty vs 0 k else 0) s

/-- The segments of VTHR and VTOPK. -/
def segments (op : BitVec 2) : Nat := if op = 0 then 1 else 2 * 2 ^ op.toNat

/-- VTHR (R222). -/
def execVthr (w : BitVec 2) (d a b : BitVec 5) (op : BitVec 2) (p ty : BitVec 3) (s : State) :
    Host.Outcome State Fault Refusal :=
  run (.vthr w d a b op p ty) w (do
    let x ← readV a
    let y ← readV b
    let act ← activeLanes p
    let n := tyWidth ty
    let k := tyLanes ty / segments op
    let counts := (List.range (segments op)).map fun g =>
      let t := tyNum ty (lane n y g)
      ((List.range k).filter fun j =>
        let v := tyNum ty (lane n x (g * k + j))
        act (g * k + j) && !v.isNan && !t.isNan && !v.lt t).length
    finishV d (ofLanes 32 counts) 8) s

/-- Lane x ranks ahead of lane y (R223). -/
def ranksAhead (ty : BitVec 3) (act : Nat → Bool) (v idx : Line) (x y : Nat) : Bool :=
  let a := tyNum ty (lane 32 v x)
  let b := tyNum ty (lane 32 v y)
  let above := fun (a b : Num) => if a.isNan then false else if b.isNan then true else b.lt a
  let i := lane 32 idx x
  let j := lane 32 idx y
  if act x != act y then act x
  else if act x && above a b then true
  else if act x && above b a then false
  else if i ≠ j then i < j
  else x < y

/-- VTOPK (R223). -/
def execVtopk (w : BitVec 2) (d a b : BitVec 5) (op : BitVec 2) (p ty : BitVec 3) (s : State) :
    Host.Outcome State Fault Refusal :=
  run (.vtopk w d a b op p ty) w (do
    let v ← readV a
    let idx ← readV b
    let act ← activeLanes p
    let n := 64 / segments op
    let out := (List.range 64).map fun i =>
      let seg := (List.range n).map fun j => i / n * n + j
      let rank := fun (x : Nat) => (seg.filter fun y => ranksAhead ty act v idx y x).length
      (seg.find? fun x => rank x = i % n).getD 0
    finishV d (ofLanes 32 out) 16) s

/-! ### Predicates (R224, R225) -/

/-- A predicate operation on all 256 bits. -/
def predicate2 (i : Instr) (w : BitVec 2) (d a b : BitVec 5) (f : BitVec 256 → BitVec 256 → BitVec 256) (s : State) :
    Host.Outcome State Fault Refusal :=
  run i w (do
    let x ← readP a
    let y ← readP b
    finishP d (f x y)) s

/-- PAND. -/
def execPand (w : BitVec 2) (d a b : BitVec 5) (s : State) : Host.Outcome State Fault Refusal :=
  predicate2 (.pand w d a b) w d a b (fun x y => x &&& y) s

/-- POR. -/
def execPor (w : BitVec 2) (d a b : BitVec 5) (s : State) : Host.Outcome State Fault Refusal :=
  predicate2 (.por w d a b) w d a b (fun x y => x ||| y) s

/-- PXOR. -/
def execPxor (w : BitVec 2) (d a b : BitVec 5) (s : State) : Host.Outcome State Fault Refusal :=
  predicate2 (.pxor w d a b) w d a b (fun x y => x ^^^ y) s

/-- PNOT. -/
def execPnot (w : BitVec 2) (d a : BitVec 5) (s : State) : Host.Outcome State Fault Refusal :=
  predicate2 (.pnot w d a) w d a a (fun x _ => ~~~x) s

/-- PSET (R225). -/
def execPset (w : BitVec 2) (d a : BitVec 5) (kind : BitVec 2) (s : State) : Host.Outcome State Fault Refusal :=
  run (.pset w d a kind) w (do
    if kind = 0 then finishP d 0
    else if kind = 1 then finishP d (BitVec.allOnes 256)
    else do
      let k ← readK32 a
      finishP d (predOf 256 fun j => j < k.toNat)) s

end Sys2Proof.Machine
end

