-- ==== Sys2Proof/Machine/Drain.lean ====
section
/-! DEFINITION. The drain stream (10): the store commands DRAIN, DRAIN.Q and TST (R233-R240), the store pipeline with its
write buffer (R229, R230), and the failures of store commands (R247). -/

namespace Sys2Proof.Machine


/-! ### Digests of A and D (R37, R246) -/

/-- The identity of a tensor block in a digest record. -/
def blockIdent (lay blk : Nat) : Nat := 2 ^ 32 * lay + 2 ^ 8 * blk + 1

/-- The order of a store command's records: element rows, scale runs, zero-point rows. -/
def orderedParts (ps : List (Run × List Byte)) : List (Run × List Byte) :=
  (List.range 3).flatMap fun k => sortBy (·.1.row) (ps.filter (·.1.kind = k))

/-- The digest bytes of the parts that were written. -/
def partsBytes (ps : List (Run × List Byte)) : List Byte :=
  (orderedParts ps).flatMap fun x => digestRecord (blockIdent x.1.lay x.1.blk) x.1.off x.2

/-- The tensor blocks that digest records name, as entries of an error record (R37, R394); `n` bounds the records. -/
def blocksOf : Nat → List Byte → List (DWord × DWord)
  | 0, _ => []
  | n + 1, bs =>
    if bs.length < 12 then []
    else
      let ident := bytesVal (bs.take 8)
      let rest := blocksOf n (bs.drop (12 + bytesVal ((bs.drop 10).take 2)))
      if ident % 256 = 1 then wroteEntry 1 (ident / 2 ^ 32 % 4096 * 2 ^ 44 + ident / 256 % 2 ^ 24) 1 :: rest else rest

/-- Folds the records of a stream, in program order, up to the first that is not ready. -/
def Core.foldDigests (c : Core) (st : Stream) : Core :=
  let mine := c.digests.filter (·.st = st)
  let done := mine.takeWhile (·.ready)
  let x := c.st st
  let y := { x with digest := done.foldl (fun d r => crcBytes d r.bytes) x.digest }
  let gone := done.map (·.seq)
  { c.setSt st y with
    digests := c.digests.filter fun r => !(r.st = st && gone.contains r.seq)
    wrote := c.wrote ++ done.flatMap fun r => blocksOf r.bytes.length r.bytes }

/-- The drain unit holds no more of a store command. -/
def Drain.finished (d : Drain) (seq : Nat) : Bool :=
  !d.cmds.any (·.seq = seq) && !d.deliveries.any (·.seq = seq) && !d.buf.any (·.seq = seq)

/-- Completes the digest records of store commands that are wholly written, and folds. -/
def Core.finishStores (c : Core) : Core :=
  let ds := c.digests.map fun r =>
    if r.store && !r.ready && c.drain.finished r.seq then { r with ready := true, bytes := partsBytes r.parts } else r
  { c with digests := ds }.foldDigests .d

/-! ### Issue -/

/-- The bits of a drain target (R234): codes 16 and 17 are 32 bits, 18 is 64. -/
def targetWidth (dt : Nat) : Nat := if dt = 16 || dt = 17 then 32 else if dt = 18 then 64 else fmtWidth dt

/-- The first element of a row of a store command's operand: the row of the command, the element, its block, byte and bit. -/
structure RowAt where
  row : Nat
  e : List Nat
  blk : Nat
  off : Nat
  bit : Nat

/-- An operand of a store command: rows from coordinates `v` down, each a run of `n` elements of `w` bits, of a kind of R229;
`pair` where the run is the two scale bytes of a row (R237). -/
structure StoreOperand where
  b : Bound
  v : DWord
  rows : Nat
  kind : Nat
  n : Nat
  w : Nat
  pair : Bool := false

/-- Check 3 of R158 of a row (R233): none where the row lies past the extents. -/
def StoreOperand.rowAt (o : StoreOperand) (j : Nat) : Act (Option RowAt) := do
  let l := o.b.lay
  let e := coords o.v
  let x := [e.getD 0 0, e.getD 1 0 + j, e.getD 2 0, e.getD 3 0]
  if !l.inside x then return none
  let (blk, off, bitOff) := l.place x
  if l.nblkm1 < blk then refuse .accessViolation (BitVec.ofNat 64 (l.entry blk)) (4 * (← get).core + 2) 0x02
  return some ⟨j, x, blk, off, bitOff⟩

/-- Check 4 of a row: the alignment rules of R233, and of the scale bytes of R237. -/
def StoreOperand.aligned (o : StoreOperand) (x : RowAt) : Bool :=
  let l := o.b.lay
  let r := o.n * o.w / 8
  if o.pair then
    let (blk, off, _) := l.place (x.e.set 0 (x.e.getD 0 0 + 1))
    blk = x.blk && off = x.off + 1 && off / 256 = x.off / 256
  else
    x.bit = 0 && x.e.getD 0 0 % 2 ^ l.bcoll + o.n ≤ 2 ^ l.bcoll &&
      (if r < 256 then x.off % 256 % r = 0 && x.off % 256 + r ≤ 256 else x.off % 256 = 0)

/-- The run of a row: its elements within the extents. -/
def StoreOperand.run (o : StoreOperand) (x : RowAt) : Run :=
  ⟨x.row, o.kind, o.b.idx, x.blk, x.off, min o.n (o.b.lay.ext.getD 0 0 - x.e.getD 0 0) * o.w⟩

/-- Checks 3 to 5 of R158 of the operands of a store command, in the table's order, each for every operand (R233; DEDUCED, log
90), then the determinism rule: the runs that it writes. -/
def storeRuns (ops : List StoreOperand) : Act (List Run) := do
  let found ← ops.mapM fun o => do
    let _ ← inTensor 2 o.b o.v
    let rs ← (List.range o.rows).mapM o.rowAt
    pure (o, rs.filterMap id)
  require (found.all fun x => x.2.all x.1.aligned) .alignment
  found.forM fun x => (distinct (x.2.map (·.blk))).forM fun k => tileValid 2 x.1.b k
  ops.forM fun o => mustBeOutput o.b
  return found.flatMap fun x => x.2.map x.1.run

/-- A full store queue blocks D, as object 20 of kind 0 (DESIGN CHOICE, log 92); a command with its runs joins it. -/
def storeCommand (kind : SKind) (b : Bound) (v : DWord) (u : Nat) (runs : List Run) : Act Unit := do
  let c ← core
  ready (c.drain.cmds.length < 4) (.object 0 20)
  let pos ← here
  modCore fun c =>
    let x : SCmd :=
      { kind := kind, lay := b.idx, c := v, seq := c.seq, pos := pos, issued := c.clk, u := u, runs := runs }
    let r : DigestRec := ⟨c.seq, .d, false, [], true, []⟩
    { c with seq := c.seq + 1, digests := c.digests ++ [r], drain := { c.drain with cmds := c.drain.cmds ++ [x] } }

/-- DRAIN (R235). -/
def execDrain (w : BitVec 2) (t : BitVec 6) (c : BitVec 4) (dt : BitVec 5) (sk qc : BitVec 1) (lbl row0 nrow : BitVec 6)
    (rnd : BitVec 2) (ovf wrap : BitVec 1) (s : State) : Host.Outcome State Fault Refusal :=
  run (.drain w t c dt sk qc lbl row0 nrow rnd ovf wrap) w (do
    popCoord qc c
    keeping (coordPop qc c) (do
      let b ← binding 2 false t
      require (dt ≠ 14 && dt ≠ 15) .formatInvalid
      let width := targetWidth dt.toNat
      require (fmtWidth b.lay.fmt = width) .formatInvalid
      let v ← commandCoord c
      let rs ← storeRuns [{ b := b, v := v, rows := nrow.toNat + 1, kind := 0, n := 64, w := width }]
      storeCommand (.drain dt (sk = 1) lbl row0.toNat (nrow.toNat + 1) rnd (ovf = 1) (wrap = 1)) b v
        (max 1 (ceilDiv (8 * width) 256)) rs)) s

/-- DRAIN.Q (R237, R238). -/
def execDrainQ (w : BitVec 2) (t : BitVec 6) (c qf : BitVec 4) (kind gs qc : BitVec 1) (lbl row0 nrow : BitVec 6)
    (rnd : BitVec 2) (ovf : BitVec 1) (st : BitVec 6) (sc : BitVec 4) (s : State) : Host.Outcome State Fault Refusal :=
  run (.drainQ w t c qf kind gs qc lbl row0 nrow rnd ovf st sc) w (do
    popCoord qc c
    keeping (coordPop qc c) (do
      let f := qf.toNat
      let asym := kind = 1
      let n := nrow.toNat + 1
      let g := if gs = 1 then 64 else 32
      let b ← binding 2 false t
      let bs ← binding 2 false st
      if asym && st = 63 then refuse .accessViolation 0 (4 * (← get).core + 2) 0x09
      let bz ← if asym then binding 2 false (st + 1) else pure bs
      let width := fmtWidth f
      require ((if asym then fmtIsInt f else (mxEmax f).isSome) && fmtWidth b.lay.fmt = width &&
        fmtWidth bs.lay.fmt = (if asym then 16 else 8) && fmtWidth bz.lay.fmt = 8) .formatInvalid
      let v ← commandCoord c
      let vs ← commandCoord sc
      let main : StoreOperand := { b := b, v := v, rows := n, kind := 0, n := 64, w := width }
      if asym then
        let rs ← storeRuns [main, { b := bs, v := vs, rows := n / g, kind := 1, n := 64, w := 16 },
          { b := bz, v := vs, rows := n / g, kind := 2, n := 64, w := 8 }]
        storeCommand (.drainQ qf true g lbl row0.toNat n rnd (ovf = 1) bs.idx vs bz.idx) b v 1 rs
      else
        let rs ← storeRuns [main, { b := bs, v := vs, rows := n, kind := 1, n := 2, w := 8, pair := true }]
        storeCommand (.drainQ qf false g lbl row0.toNat n rnd (ovf = 1) bs.idx vs 0) b v 1 rs)) s

/-- The runs of a block's line that lie within the tensor's extents (R240), for a TST at coordinates `e`. -/
def lineRuns (b : Bound) (e : List Nat) (blk line : Nat) : List Run :=
  let l := b.lay
  let c0 := e.getD 0 0 / 2 ^ l.bcoll * 2 ^ l.bcoll
  let r0 := e.getD 1 0 / 2 ^ l.browl * 2 ^ l.browl
  let valid := min (2 ^ l.bcoll) (l.ext.getD 0 0 - c0) * fmtWidth l.fmt
  let lo := 2048 * line
  let rows := (List.range (2048 / max 1 l.pitchBits + 2)).map fun i => lo / max 1 l.pitchBits + i
  let inside := rows.filter fun r => r < 2 ^ l.browl && l.rowInside (r0 + r)
  let cut := inside.map fun r => (max lo (r * l.pitchBits), min (lo + 2048) (r * l.pitchBits + valid))
  let cut := cut.filter fun x => x.1 < x.2
  let join := cut.foldl (fun (xs : List (Nat × Nat)) x =>
    match xs.getLast? with
    | some y => if y.2 = x.1 then xs.dropLast ++ [(y.1, x.2)] else xs ++ [x]
    | none => [x]) []
  join.map fun x => ⟨0, 0, b.idx, blk, x.1 / 8, x.2 - x.1⟩

/-- TST (R240). -/
def execTst (w : BitVec 2) (q : BitVec 4) (t : BitVec 6) (c : BitVec 4) (qc : BitVec 1) (s : State) :
    Host.Outcome State Fault Refusal :=
  run (.tst w q t c qc) w (do
    popCoord qc c
    keeping (coordPop qc c) (do
      require (drainQueue q) .queueMisuse
      let e ← popQ q.toNat
      let b ← binding 2 false t
      let v ← commandCoord c
      let (blk, off, _) ← inTensor 2 b v
      require (b.lay.lineStart (coords v)) .alignment
      tileValid 2 b blk
      mustBeOutput b
      storeCommand (.tst e) b v 1 (lineRuns b (coords v) blk (off / 256)))) s

/-! ### Reading and converting -/

/-- The label, first row and rows of a store command. -/
def SKind.rows : SKind → Nat
  | .drain _ _ _ _ n _ _ _ => n
  | .drainQ _ _ _ _ _ n _ _ _ _ _ => n
  | .tst _ => 1
def SKind.label : SKind → Option (BitVec 6)
  | .drain _ _ l _ _ _ _ _ => some l
  | .drainQ _ _ _ l _ _ _ _ _ _ _ => some l
  | .tst _ => none
def SKind.row0 : SKind → Nat
  | .drain _ _ _ r _ _ _ _ => r
  | .drainQ _ _ _ _ r _ _ _ _ _ _ => r
  | .tst _ => 0

/-- One element of DRAIN (R235). -/
def drainConvert (dt : BitVec 5) (i64 : Bool) (rnd : BitVec 2) (ovf wrap : Bool) (x : DWord) : Nat :=
  let v := if i64 then Num.ofInt x.toInt else num64 x
  if (dt = 0 && !i64) || (dt = 18 && i64) then x.toNat
  else if dt = 16 then intConvert 32 true rnd.toNat wrap v
  else if dt = 17 then intConvert 32 false rnd.toNat wrap v
  else if dt = 18 then intConvert 64 true rnd.toNat wrap v
  else fmtConvert dt.toNat rnd.toNat ovf wrap v

/-- A value rounded to an integer. -/
def Num.round (rnd : Nat) : Num → Int
  | .fin m e => roundInt rnd m e
  | _ => 0

/-- A column of an asymmetric group (R238): FP16 scale bits, zero point, elements. -/
def asymGroup (qf : Nat) (rnd : Nat) (xs : List Num) : Nat × Int × List Int :=
  let w := fmtBits qf
  let sg := fmtSigned qf
  let qmin : Int := if sg then -(2 ^ (w - 1)) else 0
  let qmax : Int := if sg then 2 ^ (w - 1) - 1 else 2 ^ w - 1
  let (zmin, zmax) : Int × Int := if sg then (-128, 127) else (0, 255)
  let clamp := fun (lo hi x : Int) => max lo (min hi x)
  if xs.any fun x => x.isNan || x.isInf then (0x7E00, 0, xs.map fun _ => 0)
  else
    let lo := xs.foldl (fun a x => if x.lt a then x else a) (.zero false)
    let hi := xs.foldl (fun a x => if a.lt x then x else a) (.zero false)
    let quo := fun (x : Num) (s : Num) => if x.isZero then Num.zero false else x.div s
    let (sb, z) : Nat × Int :=
      if lo.isZero && hi.isZero then (0x3C00, 0)
      else
        let r := fpRound (fpFmt 4) 2 true ((hi.add lo.negate).div (.fin (qmax - qmin) 0))
        let sb := min r 0x7BFF
        let s := fmtDecode 4 sb
        (sb, clamp zmin zmax (((Num.ofInt qmin).add (quo lo s).negate).round 0))
    let s := fmtDecode 4 sb
    (sb, z, xs.map fun x => clamp qmin qmax ((quo x s).round rnd + z))

/-- The bytes of a run from its elements. -/
def runBytes (r : Run) (w : Nat) (ys : List Nat) : List Byte :=
  valBytes (ceilDiv r.len 8) (pack w ys % 2 ^ r.len)

/-- The deliveries of a command's runs of one kind and row, and the command without them. -/
def emitRun (x : SCmd) (kind row time w : Nat) (ys : List Nat) : SCmd × List Delivery :=
  match x.runs.find? fun r => r.kind = kind && r.row = row with
  | some r => ({ x with runs := x.runs.filter fun q => !(q.kind = kind && q.row = row) },
      [⟨x.seq, x.pos, time, r, runBytes r w ys⟩])
  | none => (x, [])

/-- Emits several runs in turn. -/
def emitRuns (x : SCmd) : List (Nat × Nat × Nat × Nat × List Nat) → SCmd × List Delivery
  | [] => (x, [])
  | (kind, row, time, w, ys) :: rest =>
    let (y, d) := emitRun x kind row time w ys
    let (z, ds) := emitRuns y rest
    (z, d ++ ds)

/-- Column n of the rows held. -/
def column (rows : List (List DWord)) (n : Nat) : List Num := rows.map fun r => num64 (r.getD n 0)

/-- What the read of a row emits: its deliveries four cycles later (R229, R239), and the command with its progress. -/
def SCmd.emit (x : SCmd) (clk : Nat) (row : List DWord) : SCmd × List Delivery :=
  let j := x.reads
  let x := { x with reads := j + 1 }
  match x.kind with
  | .tst e => ({ x with runs := [] }, x.runs.map fun r =>
      ⟨x.seq, x.pos, clk + 4, r, runBytes r 8 (((lineBytes e).drop (r.off % 256)).map (·.toNat))⟩)
  | .drain dt i64 _ _ _ rnd ovf wrap =>
    emitRuns x [(0, j, clk + 4, targetWidth dt.toNat, row.map (drainConvert dt i64 rnd ovf wrap))]
  | .drainQ qf asym g _ _ _ rnd ovf _ _ _ =>
    let w := fmtWidth qf.toNat
    if asym then
      let held := x.held ++ [row]
      if held.length < g then ({ x with held := held }, [])
      else
        let k := j / g
        let cols := (List.range 64).map fun n => asymGroup qf.toNat rnd.toNat (column held n)
        let elems := (List.range g).map fun r =>
          (0, k * g + r, clk + 4 + r, w, cols.map fun c => ofSigned w (c.2.2.getD r 0))
        emitRuns { x with held := [] } (elems ++
          [(1, k, clk + 3 + g, 16, cols.map (·.1)), (2, k, clk + 3 + g, 8, cols.map fun c => ofSigned 8 c.2.1)])
    else
      let vs := row.map num64
      let g0 := mxGroup qf.toNat rnd.toNat ovf (vs.take 32)
      let g1 := mxGroup qf.toNat rnd.toNat ovf (vs.drop 32)
      emitRuns x [(0, j, clk + 4, w, g0.2 ++ g1.2), (1, j, clk + 4, 8, [g0.1, g1.1])]

/-- Replaces the drain unit of a core. -/
def State.setDrain (s : State) (p : Nat) (d : Drain) : State := s.setCr p { s.cr p with drain := d }

/-- A store command fails at a line (R247): its record is placed, and that line and the command's later lines are neither written
nor folded. The lines of the buffer stand in the order in which they completed; those before the line that have left the
buffer are still written. -/
def State.failStore (s : State) (p : Nat) (l : WLine) (cause : Cause) (info : DWord) : State :=
  let c := s.cr p
  let d := c.drain
  let seq := l.seq
  let keep := d.buf.takeWhile (· ≠ l)
  let after := d.buf.dropWhile (· ≠ l)
  let lost := fun (lay blk off : Nat) => (d.buf.any fun l => l.seq = seq && !keep.contains l && l.lay = lay &&
    l.blk = blk && l.line = off / 256) || (d.buf.any fun l => l.seq = seq && l.remote.isNone && l.lay = lay &&
    l.blk = blk && l.line = off / 256)
  let trim := fun (x : Run × List Byte) =>
    let bs := ((List.range x.2.length).filter fun i => !lost x.1.lay x.1.blk (x.1.off + i))
    let off := x.1.off + bs.headD 0
    (({ x.1 with off := off } : Run), bs.map fun i => x.2.getD i 0)
  let ds := c.digests.map fun r =>
    if r.store && r.seq = seq then { r with parts := (r.parts.map trim).filter (!·.2.isEmpty) } else r
  let d := { d with
    cmds := d.cmds.filter (·.seq ≠ seq)
    deliveries := d.deliveries.filter (·.seq ≠ seq)
    buf := keep.filter (fun l => !(l.seq = seq && l.remote.isNone)) ++ after.filter (·.seq ≠ seq) }
  let s := s.setCr p { c with digests := ds, drain := d }.finishStores
  let s := s.dropPort3 fun o => match o with
    | .wline q n lay blk line => q = p && n = seq && !keep.any fun k => k.seq = n && k.lay = lay && k.blk = blk && k.line = line
    | _ => false
  s.asyncTrap p 3 (c.task.getD {}) l.pos cause info

/-- The lines of the write buffer (R229): complete and not yet gone to another destination. -/
def Drain.waiting (d : Drain) : List WLine := d.buf.filter fun l => l.complete && l.remote.isNone

/-- The drain unit's head command can read in this cycle. -/
def Core.canRead (c : Core) : Bool :=
  c.clocked && c.drain.freeAt ≤ c.clk && c.drain.waiting.length < 16

/-- A run touches a line of a block. -/
def Run.touches (r : Run) (lay blk line kind : Nat) : Bool :=
  r.kind = kind && r.lay = lay && r.blk = blk && r.off / 256 ≤ line && line ≤ (r.off + ceilDiv r.len 8 - 1) / 256

/-- A command is over at a poisoned row (R247): a line of it that waits for no delivery is complete as it stands. -/
def Drain.closeLines (d : Drain) (seq : Nat) : Drain :=
  { d with buf := d.buf.map fun l =>
      if l.seq = seq && !d.deliveries.any (fun y => y.seq = seq && y.run.touches l.lay l.blk l.line l.kind) then
        { l with complete := true }
      else l }

/-- The effect of DRAIN_ROW_READ: at a DRAIN's start its label is resolved (R236); a foreign slot is claimed, also by a DRAIN that
a restored record has begun (R280, R282); then one read. A poisoned row ends the command with its rows delivered and no more. -/
def drainReadEff (s : State) (p : Nat) : Option State :=
  let c := s.cr p
  let d := c.drain
  match d.cmds with
  | [] => none
  | x :: rest =>
    if !c.canRead || c.matrix.claims.any (·.stream = .d) then none
    else
      let slot := if x.start.isSome then x.slot else x.kind.label.bind c.matrix.slotOf
      match c.mustClaim slot with
      | some w => s.claimFor p w .d
      | none =>
        let x := { x with start := some (x.start.getD c.clk), slot := slot }
        let r := x.kind.row0 + x.reads
        let row := match slot with
          | some k => c.matrix.row k r
          | none => List.replicate 64 0
        let bad := match slot with | some k => c.matrix.poison.contains (k * 64 + r) | none => false
        if bad then
          let t := s.setDrain p ({ d with cmds := rest, freeAt := c.clk + 1 }.closeLines x.seq)
          let t := t.setCr p (t.cr p).finishStores
          some (t.asyncTrap p 3 (c.task.getD {}) x.pos .uncorrectable 0)
        else
          let (y, ds) := x.emit c.clk row
          let last := y.reads = y.kind.rows
          let t := s.setDrain p { d with
            cmds := if last then rest else y :: rest
            deliveries := d.deliveries ++ ds
            freeAt := if last then c.clk + 1 else c.clk + y.u }
          some (if last then t.setCr p (t.cr p).finishStores else t)

/-! ### Delivery -/

/-- The bytes of a delivered run in one line, with their written bits. -/
def lineShare (r : Run) (data : List Byte) (line : Nat) : List (Nat × Byte × Byte) :=
  (List.range data.length).filterMap fun i =>
    if (r.off + i) / 256 = line then
      let n := min 8 (r.len - 8 * i)
      some ((r.off + i) % 256, data.getD i 0, BitVec.ofNat 8 (2 ^ n - 1))
    else none

/-- The delivery of a run makes its share of a line part of the write buffer; the line is complete with its last byte of
the command (R229). -/
def Drain.takeLine (d : Drain) (x : Delivery) (line : Nat) : Drain :=
  let r := x.run
  let mine := fun (l : WLine) => l.seq = x.seq && l.lay = r.lay && l.blk = r.blk && l.line = line && l.kind = r.kind &&
    !l.complete
  let old := (d.buf.find? mine).getD ⟨x.seq, r.lay, r.blk, line, r.kind, [], false, none, false, false, x.pos⟩
  let more := d.deliveries.any (fun y => y.seq = x.seq && y.run.touches r.lay r.blk line r.kind) ||
    d.cmds.any (fun c => c.seq = x.seq && c.runs.any fun q => q.touches r.lay r.blk line r.kind)
  let new := { old with bytes := old.bytes ++ lineShare r x.data line, complete := !more }
  { d with buf := d.buf.filter (fun l => !mine l) ++ [new] }

/-- The effect of DRAIN_DELIVERY. -/
def drainDeliveryEff (s : State) (p : Nat) : Option State :=
  let c := s.cr p
  let d := c.drain
  let due := sortBy (·.run.kind) (d.deliveries.filter (·.time ≤ c.clk))
  match due with
  | [] => none
  | x :: _ =>
    if !c.clocked then none
    else
      let d := { d with
        deliveries := d.deliveries.erase x
        cmds := d.cmds.map fun y => if y.seq = x.seq then { y with delivered := y.delivered + 1 } else y }
      let first := x.run.off / 256
      let n := (x.run.off + x.data.length - 1) / 256 - first + 1
      let d := (List.range n).foldl (fun d i => d.takeLine x (first + i)) d
      let ds := c.digests.map fun r => if r.store && r.seq = x.seq then { r with parts := r.parts ++ [(x.run, x.data)] } else r
      some (s.setCr p { c with drain := d, digests := ds })

/-! ### Writing -/

/-- The bytes of a run of frames that a stash region occupies (R286). -/
def Region.span (r : Region) : Nat × Nat :=
  (frameBase r.level r.frame, ceilDiv ((r.nslotm1 + 1) * slotBytes r.mode) 32768 * 32768)

/-- The address lies in a stash region of a context's layout table (R288). -/
def State.regionFrame (s : State) (c : Context) (pa : Nat) : Bool :=
  (List.range c.nlt).any fun i =>
    let x := s.layRaw c i
    bits x 0 4 = 15 && (let r := (Region.of x).span; r.1 ≤ pa && pa < r.1 + r.2)

/-- Why a controller refuses a write at an address: the `RSN` of R392. -/
def State.refusesStore (s : State) (pa : Nat) : Option Nat :=
  let open_ := match place pa with
    | .control => false
    | .far => (s.peer? pa).isSome || s.farOk pa
    | _ => true
  if !open_ then some 0x03
  else if s.tableFrame pa then some 0x05
  else if s.pinned pa then some 0x06
  else none

/-- What stands against a line's write at its block (R247): a failure, a wait, or its address. -/
inductive Dest where
  /-- The cause, and what a controller that refuses it logs (R392). -/
  | fail (c : Cause) (log : Option LogRec)
  | wait
  | at (pa : Nat)
  deriving DecidableEq, Repr

/-- What the controller of a place makes of a write there (R247, R378, R386); `unit` logs a refusal of a near store. -/
def State.destAt (s : State) (pa : Nat) (late : Bool) (unit : Nat) : Dest :=
  match s.refusesStore pa with
  | some rsn => .fail .accessViolation (some ⟨unit, rsn, BitVec.ofNat 64 pa, false⟩)
  | none =>
    if (s.peer? pa).isSome then .at pa
    else match (if late then s.farLink pa else s.farState pa) with
      | .ok => .at pa
      | .wait => .wait
      | .fail c => .fail c (some ⟨unit, 0, BitVec.ofNat 64 pa, false⟩)

/-- A tile-table entry that serves no write: its line is poisoned (R393), or it is not valid. -/
def State.badTile (s : State) (ea : Nat) (e : BitVec 128) : Option Dest :=
  if s.poisoned ea then some (.fail .uncorrectable (some ⟨s.unitOf ea, 0x08, BitVec.ofNat 64 ea, true⟩))
  else if !tileOk e then some (.fail .tileFault none)
  else none

/-- The destination of a write by an entry. `late`: the access is in flight, and a SWAPPING block still takes it (R260). -/
def State.destOf (s : State) (l : Lay) (blk off : Nat) (late : Bool) : Dest :=
  let ea := l.entry blk
  let e := s.tileEntry ea
  (s.badTile ea e).getD (match (if late then s.spotLate ea off else s.spot ea e off) with
    | none => .wait
    | some pa => s.destAt pa late (s.unitOf pa))

/-- A store command's line to a stash region of its context is refused (R247, R288). -/
def State.notRegion (s : State) (ctx unit : Nat) (d : Dest) : Dest :=
  match d, s.ctx? ctx with
  | .at pa, some c => if s.regionFrame c pa then .fail .accessViolation (some ⟨unit, 0x06, BitVec.ofNat 64 pa, false⟩) else d
  | _, _ => d

/-- The destination of a line of a core's store command, once port 2 has looked up its block (R380): the lookup it starts, or the
destination and the state with the entry used. An entry of the layout table that is not valid refuses the line (R250). The
near store's own port logs what it refuses. -/
def State.lineDest (s : State) (p : Nat) (l : WLine) : Option (Dest × State) :=
  let x := s.layOf p l.lay
  let ea := x.entry l.blk
  let port := 4 * p + 2
  if !s.layOk (s.cr p).ctxId l.lay then some (.fail .accessViolation (some ⟨port, 0x01, BitVec.ofNat 64 ea, false⟩), s)
  else (s.tileFor p 2 ea).map fun (e, t) =>
    ((s.badTile ea e).getD (match s.spot ea e (256 * l.line) with
      | none => .wait
      | some pa =>
        let u := if inNear p pa then port else s.unitOf pa
        s.notRegion (s.cr p).ctxId u (s.destAt pa false u)), t)

/-- The destination of a line of a context that has left the buffer of core `p`: `late` where its block had been resolved before. -/
def State.destIn (s : State) (p ctx lay blk off : Nat) (late : Bool) : Dest :=
  if !s.layOk ctx lay then
    .fail .accessViolation (some ⟨4 * p + 2, 0x01, BitVec.ofNat 64 ((s.layIn ctx lay).entry blk), false⟩)
  else
    let d := s.destOf (s.layIn ctx lay) blk off late
    s.notRegion ctx (match d with | .at pa => s.unitOf pa | _ => 0) d

/-- The same for the context of the core. -/
def State.dest (s : State) (p lay blk off : Nat) (late : Bool) : Dest := s.destIn p (s.cr p).ctxId lay blk off late

/-- The bytes of a line with its written bits over what stands there. -/
def mergeLine (old : List Byte) (bs : List (Nat × Byte × Byte)) : List Byte :=
  bs.foldl (fun l x => setAt l x.1 ((l.getD x.1 0 &&& ~~~x.2.2) ||| (x.2.1 &&& x.2.2))) old

/-- The line is written whole. -/
def WLine.full (l : WLine) : Bool := l.bytes.length = 256 && l.bytes.all fun x => x.2.2 = 0xFF

/-- Writes the bytes of a line at its address through a port. -/
def State.writeLine (s : State) (port pa : Nat) (l : WLine) : State :=
  if l.full then s.portWrite port pa (mergeLine (List.replicate 256 0) l.bytes)
  else
    let new := mergeLine (s.readBytes pa 256) l.bytes
    l.bytes.foldl (fun s x => s.portWrite port (pa + x.1) [new.getD x.1 0]) s

/-- A line fails at its block: logged where a controller refused it (R392), and the command ends (R247). -/
def State.failLine (s : State) (p : Nat) (l : WLine) (c : Cause) (log : Option LogRec) : State :=
  let info := tileInfo ((s.layOf p l.lay).entry l.blk)
  let s := match log with
    | some r => s.logCore p c r
    | none => s
  s.failStore p l c info

/-- Replaces a line of the buffer. -/
def State.setLine (s : State) (p : Nat) (l l' : WLine) : State :=
  let d := (s.cr p).drain
  s.setDrain p { d with buf := d.buf.map fun x => if x = l then l' else x }

/-- The line leaves the write buffer. -/
def State.dropLine (s : State) (p : Nat) (l : WLine) : State :=
  let c := s.cr p
  s.setCr p { c with drain := { c.drain with buf := c.drain.buf.erase l } }.finishStores

/-- The entry of a line's block names a frame of the core's own near store. -/
def State.ownFrame (s : State) (p : Nat) (l : WLine) : Bool :=
  let e := s.tileEntry ((s.layOf p l.lay).entry l.blk)
  inNear p (tBase e)

/-- The oldest line of the buffer, whose turn at port 2 it is, waits for its lookup or at its block in the core's own near
store, and holds back every later one (R16, R229). -/
def State.bufferBlocked (s : State) (p : Nat) : Bool :=
  let c := s.cr p
  match c.drain.waiting with
  | l :: _ => c.drain.writeAt ≤ c.clk && (match s.lineDest p l with
    | none => true
    | some (.wait, _) => s.ownFrame p l
    | some _ => false)
  | [] => false

/-- The effect of WRITE_BUFFER_LINE_WRITE: port 2 writes the oldest line, or the line leaves for another destination
(R230); one whose block is SWAPPING leaves unresolved, and is resolved again at its destination (R260). -/
def lineWriteEff (s : State) (p : Nat) : Option State :=
  let c := s.cr p
  let d := c.drain
  match d.waiting with
  | [] => none
  | l :: _ =>
    let port : Bool := c.clocked || (!c.frozen && c.stalled = some (.d, .memory))
    if !port || c.clk < d.writeAt then none
    else
      let leave := fun (s : State) (resolved : Bool) =>
        let (n, s) := s.delay
        s.setLine p l { l with remote := some (s.now + n), resolved := resolved }
      match s.lineDest p l with
      | none => s.tileAsk p 2 ((s.layOf p l.lay).entry l.blk)
      | some (.fail cause log, t) => some (t.failLine p l cause log)
      | some (.wait, t) => if s.ownFrame p l then none else some (leave t false)
      | some (.at pa, t) =>
        if inNear p pa then
          let t := (t.writeLine 2 pa l).dropLine p l
          let c := t.cr p
          some (t.setCr p { c with drain := { c.drain with writeAt := c.clk + 1 } })
        else some (leave t true)

/-- The next action of a line that is due at its destination: a line for a near store takes a turn of its port 3, a line for a peer is
sent and awaited, a part of a line after the line has been read (DEDUCED, log 20). `set` replaces the line, `drop` ends it, `fails`
fails it. -/
def State.lineStep (s : State) (p : Nat) (l : WLine) (d : Dest) (set_ : State → WLine → State) (drop : State → State)
    (fails : State → Cause → Option LogRec → State) : Option State :=
  match d with
  | .fail cause rsn => some (fails s cause rsn)
  | .wait => none
  | .at pa =>
    let port : PortOwner := .wline p l.seq l.lay l.blk l.line
    if !l.resolved then some (set_ s { l with resolved := true })
    else match s.peer? pa with
    | none => match place pa with
      | .near q _ =>
        if l.served then some (drop (s.writeLine 3 pa l))
        else if s.waitsPort3 port then none
        else some (s.askPort3 q 5 port s.now 1 0)
      | _ => some (drop (s.writeLine 3 pa l))
    | some e =>
      let own : PeerOwner := .wline p l.seq l.lay l.blk l.line
      match s.peerState own with
      | .failed cause => some (fails (s.peerDrop own) cause (some ⟨s.unitOf pa, 0, BitVec.ofNat 64 pa, false⟩))
      | .wait =>
        if s.peerSent own then none
        else if (s.peerLink e pa) = .inr true then none
        else if l.full then some (s.peerSend own e 1 pa 256 [] (mergeLine (List.replicate 256 0) l.bytes))
        else some (s.peerSend own e 0 pa 256 [] [])
      | .done data =>
        if l.full then some (drop (s.peerDrop own))
        else
          let bs := mergeLine data l.bytes
          some (set_ (s.peerDrop own) { l with bytes := (List.range 256).map fun i => (i, bs.getD i 0, 0xFF) })

/-- Replaces or drops a line that has left the core for good. -/
def State.setAway (s : State) (p : Nat) (x : TaskId × WLine) (y : List (TaskId × WLine)) : State :=
  let d := (s.cr p).drain
  s.setDrain p { d with away := d.away.flatMap fun z => if z = x then y else [z] }

/-- A line that has left its core for good goes on (R110); its failure is reported for its task. -/
def State.awayStep (s : State) (p : Nat) (x : TaskId × WLine) : Option State :=
  let l := x.2
  let fails := fun (s : State) (c : Cause) (log : Option LogRec) =>
    let s := match log with
      | some r => (if r.table then s.tableError x.1.ctx else s).logError r.unit c.code r.rsn x.1.ctx 0 p r.addr
      | none => s
    (s.setAway p x []).asyncTrap p 3 x.1 l.pos c (tileInfo ((s.layIn x.1.ctx l.lay).entry l.blk))
  s.lineStep p l (s.destIn p x.1.ctx l.lay l.blk (256 * l.line) l.resolved) (fun s l' => s.setAway p x [(x.1, l')])
    (fun s => s.setAway p x []) fails

/-- The first of a command's lines on their way, each with its task: no earlier one of the command is before it. -/
def firstLines (xs : List (TaskId × WLine)) (now : Nat) : List (TaskId × WLine) :=
  xs.filter fun x => x.2.remote.any (· ≤ now) && xs.find? (fun y => y.1 = x.1 && y.2.seq = x.2.seq) = some x

/-- The effect of REMOTE_LINE_WRITE (R230): the first line that is due at its destination, no earlier line of its command
being on its way. -/
def remoteLineEff (s : State) (p : Nat) : Option State :=
  let d := (s.cr p).drain
  let all := d.buf.filter (·.remote.isSome)
  let first := fun (l : WLine) => (all.find? (·.seq = l.seq)) = some l
  ((all.filter fun l => l.remote.any (· ≤ s.now) && first l).findSome? fun l =>
    s.lineStep p l (s.dest p l.lay l.blk (256 * l.line) l.resolved) (fun s l' => s.setLine p l l')
      (fun s => s.dropLine p l) (fun s => s.failLine p l)) <|>
  (firstLines d.away s.now).findSome? (s.awayStep p)

/-! ### The steps -/

/-- DRAIN_ROW_READ (R229). -/
def execDrainRowRead (p : Nat) (s : State) : Host.Outcome State Fault Refusal := event (drainReadEff s p) s

/-- DRAIN_DELIVERY (R229). -/
def execDrainDelivery (p : Nat) (s : State) : Host.Outcome State Fault Refusal := event (drainDeliveryEff s p) s

/-- WRITE_BUFFER_LINE_WRITE (R229). -/
def execWriteBufferLineWrite (p : Nat) (s : State) : Host.Outcome State Fault Refusal := event (lineWriteEff s p) s

/-- REMOTE_LINE_WRITE (R230). -/
def execRemoteLineWrite (p : Nat) (s : State) : Host.Outcome State Fault Refusal := event (remoteLineEff s p) s

end Sys2Proof.Machine
end

