-- ==== Sys2Proof/Machine/Arrivals.lean ====
section
/-! DEFINITION. What arrives: results of C and of the vector unit (R108, R207), loads of stream A (R164, R168, R178,
R329), tile lookups and page walks (R256, R379), the deferred effects of R136, markers and rendezvous (R142, R342). -/

namespace Sys2Proof.Machine

/-! ### Results -/

/-- Removes the first member that satisfies a test. -/
def dropFirst {α : Type} (f : α → Bool) : List α → List α
  | [] => []
  | x :: xs => if f x then xs else x :: dropFirst f xs

/-- A register's kind: C's or the vector unit's. -/
def Reg.scalar : Reg → Bool
  | .s _ => true
  | _ => false

/-- Writes a pending result to its register. -/
def Core.land (c : Core) (r : Reg) (v : Line) : Core :=
  match r with
  | .s n => c.putS n (v.setWidth 64)
  | .v n => { c with regs := { c.regs with v := c.regs.v.setIfInBounds n.toNat v } }
  | .k n => { c with regs := { c.regs with k := c.regs.k.setIfInBounds n.toNat (v.setWidth 32) } }
  | .x _ => c

/-- The first pending result of a kind that is ready lands. -/
def resultEff (s : State) (p : Nat) (scalar : Bool) : Option State :=
  let c := s.cr p
  let due := fun (e : Pend) => e.reg.scalar = scalar && e.ready ≤ c.rclk
  match c.pend.find? due with
  | some e => some (s.setCr p ({ c with pend := dropFirst due c.pend }.land e.reg e.val))
  | none => none

/-! ### Traps of a stream at a recorded position -/

/-- As `takeTrap`, at the position of an instruction that has issued earlier (R178, R121). -/
def State.trapAt (s : State) (p : Nat) (st : Stream) (pos : DWord) (cause : Cause) (info : DWord) : State :=
  let c := s.cr p
  let stop : Option Stream := if c.forked then some st else none
  let t := c.task.getD {}
  let c1 := if c.forked then c.setSt st { c.st st with hlt := true } else c
  (s.setCr p { c1 with stops := c1.stops ++ [⟨stop, false⟩] }).report
    ⟨p, [trapWord0 t.ctx p 0 0 (streamNo st) 0 cause, t.wid, pos, info], some stop⟩

/-! ### Loads of stream A -/

/-- Sends an access to a peer unless it must wait for a link to train (R406). -/
def State.askPeer (s : State) (own : PeerOwner) (e : DWord × DWord) (op pa len : Nat) (extra : List DWord)
    (data : List Byte) : Option State :=
  match s.peerLink e pa with
  | .inr true => none
  | _ => some (s.peerSend own e op pa len extra data)

/-- The layout index and coordinates that a load names. -/
def ALoadKind.where_ : ALoadKind → Nat × DWord
  | .tld _ i c _ => (i, c)
  | .word i c => (i, c)
  | .column _ i c => (i, c)
  | .pattern _ i c _ _ => (i, c)
  | .index i c _ => (i, c)
  | .plane _ _ i c _ => (i, c)
  | .planeColumn _ i c _ => (i, c)
  | .bfx .. => (0, 0)

/-- The device physical address of the line that a load reads first. -/
def State.loadAddr (s : State) (p : Nat) (k : ALoadKind) : Nat :=
  match k with
  | .bfx _ _ pa _ _ => pa
  | _ =>
    let (i, v) := k.where_
    let l := s.layOf p i
    let (b, off, _) := l.place (coords v)
    (s.spotLate (l.entry b) (off / 256 * 256)).getD 0

/-- The queue that a load fills; none for planes and patterns. -/
def ALoadKind.queue : ALoadKind → Option Nat
  | .tld q .. => some q
  | .word .. => some 11
  | .column q .. => some q
  | .pattern q .. => some q
  | .index .. => some iqCode
  | .plane .. | .planeColumn .. | .bfx .. => none

/-- The entries that a load's bytes fill (R162-R166). -/
def ALoadKind.entries (k : ALoadKind) (bs : List Byte) : List Line :=
  match k with
  | .pattern _ _ _ r _ => [patExtract r bs]
  | .index _ _ n => (List.range n).map fun j => BitVec.ofNat 2048 (bytesVal ((bs.drop (4 * j)).take 4))
  | _ => [lineOf bs]

/-- What a load does to its core with its bytes: it fills its reserved entries, or writes the plane that is the shadow now
(R168). -/
def Core.takeLoad (c : Core) (now : Nat) (l : ALoad) (bs : List Byte) : Core :=
  match l.kind.queue with
  | some q => (l.kind.entries bs).foldl (fun c v => c.setQ q ((c.q q).fill l.id now v)) c
  | none =>
    let m := c.matrix
    match l.kind with
    | .plane area n _ _ fmt =>
      let x := m.shadow.write (planeArea area + 256 * n) bs
      let x := match fmt with | some (f, sp) => { x with fmt := f, spa := sp } | none => x
      { c with matrix := m.setShadow x }
    | .planeColumn k _ _ f =>
      let x := m.shadow.write (k * 8 * fmtWidth f.toNat) bs
      { c with matrix := m.setShadow { x with fmt := f, spa := false } }
    | _ => c

/-- The address that the log and the record of a failed load hold (R388, R392): BFXCFG's is virtual. -/
def State.loadFailAddr (s : State) (p : Nat) (k : ALoadKind) : DWord :=
  match k with
  | .bfx _ va _ _ _ => va
  | _ => BitVec.ofNat 64 (s.loadAddr p k)

/-- A plane load of a restored record that comes upon a foreign plane pair claims it first (R280). -/
def ALoadKind.planes : ALoadKind → Bool
  | .plane .. | .planeColumn .. => true
  | _ => false

/-- A load's bytes have come, have been asked for, or are poisoned (R178, R393). A line that its core's ports do not read is read at its
home as it arrives (DESIGN CHOICE, log 19: the spec gives only the cycle of the arrival). -/
def State.loadArrives (s : State) (p : Nat) (l : ALoad) : Option State :=
  let own := fun k => PeerOwner.aload p l.id k
  let bfx := match l.kind with | .bfx .. => true | _ => false
  let foreign := if l.kind.planes then (s.cr p).mustClaim (some 32) else none
  let got :=
    if !l.reads.isEmpty && l.got.length = l.reads.length then Got.data (l.got.flatMap (·.1)) (l.got.any (·.2))
    else if bfx || s.layOk (s.cr p).ctxId l.kind.where_.1 then s.fetchLoad own p l.kind
    else .lost .accessViolation
  let gone := fun (s : State) =>
    let c := s.cr p
    let s := s.setCr p { c with aloads := c.aloads.filter (·.id ≠ l.id) }
    { s with peerReqs := s.peerReqs.filter fun r => match r.owner with
        | .aload q id _ => !(q = p && id = l.id)
        | _ => true }
  let fails := fun (c : Cause) =>
    let pa := s.loadAddr p l.kind
    let addr := s.loadFailAddr p l.kind
    let s := if c = .accessViolation then s.logCore p c ⟨s.unitOf pa, 0x01, addr, false⟩ else s.logFail p c pa addr
    let t := gone s
    let t := if l.kind.queue.isSome then t.setCr p { t.cr p with aloads := (t.cr p).aloads ++ [{ l with failed := true }] } else t
    t.trapAt p .a l.pos c addr
  match foreign, got with
  | _, .wait => none
  | _, .peer e pa => s.askPeer (own (pa / 256)) e 0 pa 256 [] []
  | some w, _ => s.claimFor p w .a
  | none, .lost c => some (fails c)
  | none, .data _ true => some (fails .uncorrectable)
  | none, .data bs false =>
    match l.kind with
    | .bfx x _ _ _ _ =>
      let r : BitVec 576 := BitVec.ofNat 576 (bytesVal bs)
      let s := gone s
      if patOk r then
        let c := s.cr p
        some (s.setCr p { c with regs := { c.regs with x := c.regs.x.setIfInBounds x.toNat ⟨r, true⟩ } })
      else some (s.trapAt p .a l.pos .formatInvalid 0)
    | _ => some ((gone s).setCr p (((gone s).cr p).takeLoad s.now l bs))

/-- The first load of a core, of those a test picks, that is due and can proceed. -/
def State.firstLoad (s : State) (p : Nat) (f : ALoadKind → Bool) : Option State :=
  let ripe := fun (l : ALoad) => f l.kind && !l.failed && l.look.isNone && l.due ≤ s.now && !s.waitsPort3 (.aload p l.id)
  if (s.cr p).restored then none else ((s.cr p).aloads.filter ripe).findSome? (s.loadArrives p)

/-- The effects of TLD_LINE_ARRIVAL, PLANE_LINE_ARRIVAL and BFXCFG_RECORD_LOADED. -/
def tldEff (s : State) (p q : Nat) : Option State := s.firstLoad p fun k => k.queue = some q
def planeEff (s : State) (p : Nat) : Option State :=
  s.firstLoad p ALoadKind.planes
def bfxEff (s : State) (p : Nat) : Option State :=
  s.firstLoad p fun k => match k with | .bfx .. => true | _ => false

/-! ### Lookups -/

/-- Sets a bit of an entry's sharer mask. -/
def tShare (e : BitVec 128) (domain : Nat) : BitVec 128 := e ||| BitVec.ofNat 128 (2 ^ (116 + domain))

/-- A port's lookup finds an entry: in RESIDENT it fills the cache and sets the sharer bit in the same access (R256). -/
def State.fillTile (s : State) (p port ea : Nat) : State :=
  let e := s.tileEntry ea
  if !tileOk e || tState e ≠ 0 then s
  else
    let e' := tShare e (shedOf p)
    let s := s.setCr p ((s.cr p).useTile port ea e')
    if e' = e then s else s.setTileEntry ea e'

/-- A load that has issued before its blocks were known has looked them up: it goes on to its ports, or stays where a block makes it
wait. What is wrong with an entry by then is raised at the load's position, and it looks again once A goes on (DESIGN CHOICE, log 108). -/
def State.lookDone (s : State) (p port : Nat) (l : ALoad) : Option State :=
  let ctx := (s.cr p).ctxId
  let lay := s.layOf p l.kind.where_.1
  let put := fun (s : State) (f : ALoad → ALoad) =>
    let c := s.cr p
    s.setCr p { c with aloads := c.aloads.map fun x => if x.id = l.id then f x else x }
  if (match l.kind with | .bfx .. => true | _ => false) then none
  else if !s.layOk ctx l.kind.where_.1 then some (put s fun x => { x with look := none, due := s.now })
  else
    let reqs := l.kind.requests lay
    let ports := (List.range reqs.length).map fun j => (port + j) % 2
    let eas := distinct ((ports.zip reqs).flatMap fun r => r.2.map fun x => (r.1, lay.entry x.1))
    let places := reqs.flatMap fun r => r.map fun x => s.stand (lay.entry x.1) x.2
    match places.findSome? fun x => match x with | .bad c i log => some (c, i, log) | _ => none with
    | some (c, info, log) =>
      let s := match log with | some r => s.logCore p c r | none => s
      some ((put s fun x => { x with failed := true }).trapAt p .a l.pos c info)
    | none =>
      if places.contains .wait then none
      else
        let found := reqs.map fun r => r.map fun x => (x, match s.stand (lay.entry x.1) x.2 with | .at pa => pa | _ => 0)
        let s := eas.foldl (fun s x => s.fillTile p x.1 x.2) s
        let (reads, due, s) := s.requests p l.id port true lay found
        some (put s fun x => { x with look := none, reads := reads, due := due })

/-- The first load that has looked up its blocks through a port and can go on. -/
def lookEff (s : State) (p port : Nat) : Option State :=
  let ripe := fun (l : ALoad) => !l.failed && l.look.any fun x => x.1 ≤ s.now && x.2 = port
  if (s.cr p).restored then none else ((s.cr p).aloads.filter ripe).findSome? (s.lookDone p port)

/-- The effect of TILE_LOOKUP_COMPLETE (R256) for an access that waits for it. -/
def tableEff (s : State) (p port : Nat) : Option State :=
  let c := s.cr p
  let due := fun (r : Nat × Nat × Nat) => r.1 = port && r.2.2 ≤ s.now
  match c.lookups.tileReqs.find? due with
  | none => none
  | some r =>
    let ea := r.2.1
    let e := s.tileEntry ea
    let l := { c.lookups with tileReqs := dropFirst due c.lookups.tileReqs }
    if tileOk e && tState e = 0 then some ((s.setCr p { c with lookups := l }).fillTile p port ea)
    else
      some (s.setCr p { c with lookups := { l with tileDone := (port, ea) :: l.tileDone.filter (· ≠ (port, ea)) } })

/-- The effect of TILE_LOOKUP_COMPLETE (R256). -/
def tileEff (s : State) (p port : Nat) : Option State := tableEff s p port <|> lookEff s p port

/-- Fills a TLB: the oldest entry leaves a full one (DESIGN CHOICE, log 18). -/
def fillTlb (n : Nat) (e : TlbEntry) (es : List TlbEntry) : List TlbEntry := (e :: es.filter (· ≠ e)).take n

/-- A walk has failed in cycle `now`: no TLB keeps an entry that faults (R379), and only the access that waits for it in this cycle
learns of it. -/
def Lookups.failWalk (l : Lookups) (r : WalkReq) (now : Nat) (c : Cause) : Lookups :=
  { l with walkFaults := (r.acc, r.asid, bits r.va.toNat 12 45, now, c) :: l.walkFaults.filter (·.2.2.2.1 = now) }

/-- The effect of PAGE_WALK_COMPLETE (R379). A walk whose next entry waits, as an ordinary load of it would, goes on later. -/
def walkEff (s : State) (p : Nat) : Option State :=
  let c := s.cr p
  let l := c.lookups
  let due := fun (r : WalkReq) => r.due ≤ s.now && !(r.hit.isNone && s.walk r.root r.va = .wait)
  match l.walks.find? due with
  | none => none
  | some r =>
    let l := { l with walks := dropFirst due l.walks }
    match r.hit with
    | some e => some (s.setCr p { c with lookups := { l with tlb := fillTlb 64 e l.tlb } })
    | none =>
      match s.walk r.root r.va with
      | .leaf level pte =>
        if pteAllows r.acc pte then
          let e : TlbEntry := ⟨r.asid, bits r.va.toNat 0 57 >>> (12 + 9 * level), level, pte⟩
          let t := fillTlb 2048 e (Sparse.get [] s.shedTlbs (shedOf p))
          let s := s.setCr p { c with lookups := { l with tlb := fillTlb 64 e l.tlb } }
          some { s with shedTlbs := Sparse.set [] s.shedTlbs (shedOf p) t }
        else some (s.setCr p { c with lookups := l.failWalk r s.now .pageFault })
      | .fault => some (s.setCr p { c with lookups := l.failWalk r s.now .pageFault })
      | .fail k pa =>
        let s := s.setCr p { c with lookups := l.failWalk r s.now k }
        let rsn := if k = .uncorrectable then 0x08 else if k = .accessViolation then 0x03 else 0
        some (s.logCore p k ⟨s.unitOf pa, rsn, BitVec.ofNat 64 pa, k = .uncorrectable⟩)
      | .wait => none

/-! ### Synchronisation -/

/-- The effect of DEFERRED_RELEASE_EFFECT (R136). -/
def deferredEff (s : State) (p : Nat) (st : Stream) : Option State :=
  let c := s.cr p
  match c.nextEffect st [] c.deferred with
  | some (e, rest) => some (s.setCr p ({ c with deferred := rest }.apply e))
  | none => none

/-- The engine behind which a command counts for markers (R142). -/
def EngKind.engine : EngKind → Engine
  | .gather | .xfer => .a
  | .xchgP | .xchgD => .shunter
  | .stash | .restore => .codec
  | _ => .d

/-- Every command of an engine that core `p` issued before `seq` has completed (R142, R200, R245). -/
def State.retiredBefore (s : State) (p : Nat) (e : Engine) (seq : Nat) : Bool :=
  let c := s.cr p
  let cmds := c.aq ++ c.dq ++ s.engines.filter (·.core = p)
  let open_ := cmds.any fun x => x.kind.engine = e && x.seq < seq
  match e with
  | .a => !open_ && c.settled .a seq
  | .k => c.settled .k seq
  | .d => !open_ && c.settled .d seq
  | _ => !open_

/-- The effect of MARKER_RETIRE (R142). -/
def markerEff (s : State) (p : Nat) (e : Engine) : Option State :=
  let c := s.cr p
  match c.markers.find? fun m => m.e = e && s.retiredBefore p e m.seq with
  | some m => some (s.setCr p ({ c with markers := c.markers.erase m }.setRetired e m.n true))
  | none => none

/-- The effect of RENDEZVOUS_FIRE (R342). -/
def rendezvousEff (s : State) (p z : Nat) : Option State :=
  let c := s.cr p
  match c.rdvs[z]? with
  | some (.armed m eng) =>
    if c.rdvReady m eng then some (s.setCr p { c with rdvs := c.rdvs.setIfInBounds z .fired }) else none
  | _ => none

/-! ### The steps -/

/-- SCALAR_RESULT_READY (R108). -/
def execScalarResultReady (p : Nat) (s : State) : Host.Outcome State Fault Refusal := event (resultEff s p true) s

/-- VECTOR_RESULT_READY (R207). -/
def execVectorResultReady (p : Nat) (s : State) : Host.Outcome State Fault Refusal := event (resultEff s p false) s

/-- TLD_LINE_ARRIVAL (R329). -/
def execTldLineArrival (p q : Nat) (s : State) : Host.Outcome State Fault Refusal := event (tldEff s p q) s

/-- PLANE_LINE_ARRIVAL (R168). -/
def execPlaneLineArrival (p : Nat) (s : State) : Host.Outcome State Fault Refusal := event (planeEff s p) s

/-- BFXCFG_RECORD_LOADED (R164). -/
def execBfxcfgRecordLoaded (p : Nat) (s : State) : Host.Outcome State Fault Refusal := event (bfxEff s p) s

/-- TILE_LOOKUP_COMPLETE (R256). -/
def execTileLookupComplete (p port : Nat) (s : State) : Host.Outcome State Fault Refusal := event (tileEff s p port) s

/-- PAGE_WALK_COMPLETE (R379). -/
def execPageWalkComplete (p : Nat) (s : State) : Host.Outcome State Fault Refusal := event (walkEff s p) s

/-- DEFERRED_RELEASE_EFFECT (R136). -/
def execDeferredReleaseEffect (p : Nat) (st : Stream) (s : State) : Host.Outcome State Fault Refusal :=
  event (deferredEff s p st) s

/-- MARKER_RETIRE (R142). -/
def execMarkerRetire (p : Nat) (e : Engine) (s : State) : Host.Outcome State Fault Refusal := event (markerEff s p e) s

/-- RENDEZVOUS_FIRE (R342). -/
def execRendezvousFire (p z : Nat) (s : State) : Host.Outcome State Fault Refusal := event (rendezvousEff s p z) s

end Sys2Proof.Machine
end

