-- ==== Sys2Proof/Machine/Engines.lean ====
section
/-! DEFINITION. The engines of A and D: the passing of commands to them and their completion (R170, R171, R176, R179), the
gather engine (R172, R174, R241), the Dazia codec (R286-R296) and the reduce units (R242, R243). A started command writes
one row, line or group at a time (R19). -/

namespace Sys2Proof.Machine

/-! ### Commands -/

/-- The layout-table entry of an index in a command's context, as a number: as it stood when a started command started (R171). -/
def State.cmdRaw (s : State) (x : EngCmd) (i : Nat) : Nat :=
  if x.started then (if i = x.lay1 then x.raw1 else x.raw2)
  else match s.ctx? x.task.ctx with
    | some c => s.layRaw c i
    | none => 0

/-- The entry's fields. -/
def State.cmdLay (s : State) (x : EngCmd) (i : Nat) : Lay := Lay.of (s.cmdRaw x i)

/-- A command starts: it reads its layout-table entries. -/
def State.startCmd (s : State) (x : EngCmd) : EngCmd :=
  { x with started := true, raw1 := s.cmdRaw x x.lay1, raw2 := s.cmdRaw x x.lay2 }

/-- A command reached its engine before another that waits there: by the cycle of its arrival (R170, R259, R295). -/
def EngCmd.before (y x : EngCmd) : Bool := y.due < x.due || (y.due = x.due && y.id < x.id)

/-- Replaces a command at its engine. -/
def State.setCmd (s : State) (x : EngCmd) : State :=
  { s with engines := s.engines.map fun y => if y.id = x.id then x else y }

/-- Forgets the requests to peers of a command. -/
def State.dropCmdPeers (s : State) (id : Nat) : State :=
  { s with peerReqs := s.peerReqs.filter fun r => match r.owner with
      | .cmd k _ => k ≠ id
      | _ => true }

/-- The number of the engine that performs a command, by which an error log names its requester (R392; DESIGN CHOICE, log 116: the spec
numbers no engines): a shunter's and a codec's own, and that of its core for a gather engine or a reducing write. -/
def EngCmd.engineNo (x : EngCmd) : Nat :=
  match x.kind with
  | .xchgP | .xchgD | .stash | .restore => x.unit
  | _ => x.core

/-- A command fails after it has started (R176): logged where an access was refused (unit, `RSN`, address), reported as an
engine failure, and completed with `ERR`. -/
def State.failCmd (s : State) (x : EngCmd) (c : Cause) (info : DWord) (log : Option LogRec) : State :=
  let s := s.dropCmdPeers x.id
  let s := match log with
    | some l =>
      let s := if l.table then s.tableError x.task.ctx else s
      s.logError l.unit c.code l.rsn x.task.ctx 1 x.engineNo l.addr
    | none => s
  (s.asyncTrap x.core 4 x.task x.pos c info).setCmd { x with failed := true, finished := true }

/-- A command fails at a block of entry address `ea`: word 3 of the record names the entry for a TILE_FAULT, and else the
address that a controller refused (R388). -/
def State.failDest (s : State) (x : EngCmd) (ea : Nat) (c : Cause) (log : Option LogRec) : State :=
  s.failCmd x c (if c = .tileFault then tileInfo ea else match log with | some r => r.addr | none => 0) log

/-- A command fails at a place that gives an error response: poison, or a lost link (R392). -/
def State.failPlace (s : State) (x : EngCmd) (c : Cause) (pa : Nat) : State :=
  let a : DWord := BitVec.ofNat 64 pa
  s.failCmd x c a (some ⟨s.unitOf pa, if c = .uncorrectable then 0x08 else 0, a, false⟩)

/-- The source identity of reducing writes (R403): context, launch queue, phase, source queue, walk ordinal. -/
def EngCmd.source (x : EngCmd) : DWord :=
  BitVec.ofNat 64 (x.task.ctx % 65536 * 2 ^ 48 + x.lq % 64 * 2 ^ 42 + x.task.phase % 256 * 2 ^ 34 + x.queue % 16 * 2 ^ 24 +
    x.task.ordinal % 2 ^ 24)

/-- A reducing write. -/
def EngKind.reduces : EngKind → Bool
  | .rwrAddF32 | .rwrAddBf16 | .rwrMaxF32 | .rwrAddI32 => true
  | _ => false

/-- The effect of ENGINE_COMMAND_DISPATCH (R170, R171, R243): the head command takes its wait token, the accesses that its
push releases being done, and passes to its engine. A freeze of the core stops D's engines (R248). -/
def dispatchEff (s : State) (p : Nat) (st : Stream) : Option State :=
  let c := s.cr p
  match (if st = .a then c.aq else if st = .d then c.dq else []) with
  | [] => none
  | x :: rest =>
    let token := x.waitt = 7 || c.tokenReady x.waitt
    let room := !x.kind.reduces ||
      (s.engines.filter fun y => y.kind.reduces && y.core = p && y.task = x.task && y.queue = x.queue).length < 8
    if c.frozen || (st = .d && !c.clocked) || !token || !room || !c.settled st x.seq then none
    else
      let (n, s) := s.delay
      let c := if x.waitt = 7 then c else c.takeToken x.waitt
      let c := if st = .a then { c with aq := rest } else { c with dq := rest }
      let x := { x with due := s.now + n }
      let s := s.setCr p c
      some { s with engines := s.engines ++ [x] }

/-! ### Completion -/

/-- Gives a token, adds to a counter and completes a command's digest records, on the core that runs its task. -/
def Core.complete (c : Core) (st : Stream) (seq : Nat) (sigt : BitVec 3) (cnt : BitVec 4) (inc : BitVec 8) (err : Bool)
    (records : List Byte) : Core :=
  let c := if sigt = 7 then c else c.giveToken sigt
  let n := cnt.toNat
  let c := { c with counters := c.counters.setIfInBounds n (bumpCounter (c.counters.getD n 0) inc.toNat err) }
  let ds := c.digests.map fun r =>
    if r.seq = seq && r.st = st && !r.store then { r with ready := true, bytes := if err then [] else records } else r
  { c with digests := ds }.foldDigests st

/-- The core runs the task now, neither frozen nor pre-empted (R179). -/
def Core.runsTask (c : Core) (t : TaskId) : Bool := c.task = some t && !c.freezeHeld

/-- A task is still to be gone on with: its launch runs or is pre-empted, and has not been rolled back since. -/
def State.taskLives (s : State) (t : TaskId) : Bool :=
  match s.launch? t.launch with
  | some l => (l.st = .running || l.st = .preempted || (l.st = .complete && !l.parked.isEmpty)) && l.attempt = t.attempt
  | none => false

/-- Delivers a command's completion; none while its token queue stands at 63 (R138). What belongs to a task that is
pre-empted or frozen is held for it (R179). -/
def State.deliver (s : State) (x : EngCmd) : Option State :=
  let c := s.cr x.core
  if c.runsTask x.task then
    if x.sigt ≠ 7 && 63 ≤ (c.tokens.getD x.sigt.toNat []).length then none
    else some (s.setCr x.core (c.complete x.st x.seq x.sigt x.cnt x.inc x.failed x.records))
  else if s.taskLives x.task || c.task = some x.task then
    some { s with held := s.held ++ [⟨x.task, x.st, x.seq, x.sigt, x.cnt, x.inc, x.failed, x.records⟩] }
  else some s

/-- The effect of ENGINE_COMMAND_COMPLETION. -/
def completionEff (s : State) (id : Nat) : Option State :=
  match s.engines.find? fun x => x.id = id && x.finished with
  | some x => (s.deliver x).map fun s => { s with engines := s.engines.filter (·.id ≠ id) }
  | none => none

/-- The command of an identifier, of a kind, that is due at its engine. -/
def State.dueCmd (s : State) (id : Nat) (f : EngKind → Bool) : Option EngCmd :=
  s.engines.find? fun x => x.id = id && f x.kind && !x.finished && x.due ≤ s.now

/-! ### Turns of the near-store ports (R11) -/

/-- The class of a command's requests at a port 3: XFER, the reduce unit, the gather engine; a codec's accesses, and those to
another core's near store, come through the mesh. -/
def EngCmd.portClass (x : EngCmd) (q : Nat) : Nat :=
  if x.kind.reduces then 2
  else if q ≠ x.core then 5
  else match x.kind with
    | .xfer => 1
    | .gather | .scatter => 3
    | _ => 5

/-- A port 0 or 1 of a core that the gather engine can read through in this cycle: one on which A makes no request (R11). -/
def Core.gatherPort (c : Core) (now : Nat) : Option Nat :=
  [0, 1].find? fun k => c.aReqs ≤ k && c.ports.getD k 0 ≤ now

/-- Whether a command's access to a place can take place in this cycle, a turn of a port or a place elsewhere; else the request that
it makes, if none of its stands. -/
inductive PortAsk where
  | go (s : State)
  | ask (s : State)
  | wait

/-- The port of a command's access. -/
def State.enginePort (s : State) (x : EngCmd) (pa : Nat) (read : Bool) : PortAsk :=
  match place pa with
  | .near q _ =>
    if x.served then .go s
    else if read && q = x.core && (x.kind = .gather || x.kind = .scatter) then
      let c := s.cr q
      match c.gatherPort s.now with
      | some k => .go (s.setCr q { c with ports := c.ports.setIfInBounds k (s.now + 1) })
      | none => .wait
    else if s.waitsPort3 (.cmd x.id) then .wait
    else .ask (s.askPort3 q (x.portClass q) (.cmd x.id) s.now 1 0)
  | _ => .go s

/-! ### Reading and writing -/

/-- The owner of a command's read of a line, and of its write, at a peer. -/
def EngCmd.reads (x : EngCmd) (line : Nat) : PeerOwner := .cmd x.id (2 * line)
def EngCmd.writes (x : EngCmd) : PeerOwner := .cmd x.id 1

/-- Writes bytes of one line of a block for a command, then goes on: at a peer the write is sent and awaited, at a near store it
takes a turn of port 3. -/
def State.engineWrite (s : State) (x : EngCmd) (l : Lay) (blk off : Nat) (bs : List Byte) (go : State → State) :
    Option State :=
  let ea := l.entry blk
  match s.destOf l blk off true with
  | .fail c log => some (s.failDest x ea c log)
  | .wait => none
  | .at pa => match s.peer? pa with
    | none => match s.enginePort x pa false with
      | .go s => some (go ((s.portWrite 3 pa bs).dropCmdPeers x.id))
      | .ask s => some s
      | .wait => none
    | some e => match s.peerState x.writes with
      | .failed c => some (s.failPlace x c pa)
      | .done _ => some (go (s.dropCmdPeers x.id))
      | .wait => if s.peerSent x.writes then none else s.askPeer x.writes e 1 pa bs.length [] bs

/-- Reads bytes of one line of a block for a command, then goes on: at a near store through a port. -/
def State.engineRead (s : State) (x : EngCmd) (l : Lay) (blk off n : Nat) (go : State → List Byte → Option State) :
    Option State :=
  let pa := (s.spotLate (l.entry blk) off).getD 0
  match s.readBlock x.reads (l.entry blk) off n with
  | .wait => none
  | .peer e pa => s.askPeer (x.reads (pa / 256)) e 0 pa 256 [] []
  | .lost c => some (s.failPlace x c pa)
  | .data bs bad => match s.enginePort x pa true with
    | .go t => if bad then some (t.failPlace x .uncorrectable pa) else go t bs
    | .ask t => some t
    | .wait => none

/-! ### Lookups at the start (R256, R380) -/

/-- The lookups that a start makes of entries by port, all of them at once (R380; DESIGN CHOICE, log 117); or, once they are known, the
state with all of them used. -/
def State.startTiles (s : State) (p : Nat) (xs : List (Nat × Nat)) : Option State ⊕ State :=
  match xs.filter fun r => !s.tileKnown p r.1 r.2 with
  | [] => .inr (xs.foldl (fun s r => match s.tileFor p r.1 r.2 with | some y => y.2 | none => s) s)
  | open_ => match open_.filter fun r => !s.tileAsked p r.1 r.2 with
    | [] => .inl none
    | asks => .inl (some (asks.foldl (fun s r => (s.tileAsk p r.1 r.2).getD s) s))

/-- An entry that is SWAPPING is looked up again after the commit (R260). -/
def State.retile (s : State) (p : Nat) (ea : Nat) : State :=
  let c := s.cr p
  s.setCr p { c with lookups := { c.lookups with tileDone := c.lookups.tileDone.filter (·.2 ≠ ea) } }

/-! ### The gather engine -/

/-- One row of a copying command: source and destination places and bytes. -/
structure CopyRow where
  blk : Nat
  off : Nat
  blk2 : Nat
  off2 : Nat
  deriving DecidableEq, Repr

/-- Row `j` of a GATHER, SCATTER or XFER (R172, R174, R241). -/
def State.copyRow (s : State) (x : EngCmd) (j : Nat) : CopyRow :=
  let l := s.cmdLay x x.lay1
  let l2 := s.cmdLay x x.lay2
  let at_ := fun (l : Lay) (c : Option DWord) => l.place (coords (c.getD 0))
  match x.kind with
  | .xfer =>
    let (b, o, _) := l.place (coords x.c1)
    let (b2, o2, _) := l2.place (coords x.c2)
    ⟨b, o / 256 * 256 + 256 * j, b2, o2 / 256 * 256 + 256 * j⟩
  | .gather =>
    let (b, o, _) := at_ l (advance x.c1 (x.idx.getD j 0))
    let (b2, o2, _) := at_ l2 (advance x.c2 j)
    ⟨b, o, b2, o2⟩
  | _ =>
    let (b, o, _) := at_ l (advance x.c1 j)
    let (b2, o2, _) := at_ l2 (advance x.c2 (x.idx.getD j 0))
    ⟨b, o, b2, o2⟩

/-- The level of a block for the one-level rule (R15, R407): a landing block counts at its window's level; none for a
linear window. -/
def State.blockLevel (s : State) (e : BitVec 128) : Option Nat :=
  if tLevel e = 2 then match s.peer? (frameBase 2 (tFrame e)) with
    | some w => if pwLevel w = 0 then none else some (pwLevel w - 1)
    | none => some 2
  else some (tLevel e)

/-- A frame of a context that takes part in no exchange, transfer or grant (R276, R281, R288): in a spill area, in the save
area, or in a stash region of its layout table. -/
def State.reservedFrame (s : State) (c : Context) (pa : Nat) : Bool :=
  s.pinned pa || (c.savea ≤ pa && pa < c.savea + 35 * 32768 && c.savea ≠ 0) || s.regionFrame c pa

/-- What stands against the start of a copying command. -/
inductive StartCheck where
  | go | wait
  /-- A block that is SWAPPING, by its entry. -/
  | swapping (ea : Nat)
  | fail (c : Cause) (ea : Nat) (rsn : Nat)
  deriving DecidableEq, Repr

/-- The ports and entries that a copying command looks up at its start: sources of the gather engine through port 0. -/
def State.copyTiles (s : State) (x : EngCmd) : List (Nat × Nat) :=
  let rows := (List.range x.n).map (s.copyRow x)
  distinct (rows.map (fun r => (if x.kind = .xfer then 3 else 0, (s.cmdLay x x.lay1).entry r.blk)) ++
    rows.map fun r => (3, (s.cmdLay x x.lay2).entry r.blk2))

/-- What stands against a start at some tile-table entries: a poisoned line of the table (R393), an entry that is not valid (R267), a
block that is SWAPPING (R260), a granule whose flip waits (R386). -/
def State.tilesCheck (s : State) (es : List (Nat × BitVec 128)) : StartCheck :=
  match es.find? fun e => s.poisoned e.1 || !tileOk e.2 with
  | some e => if s.poisoned e.1 then .fail .uncorrectable e.1 0x08 else .fail .tileFault e.1 0
  | none => match es.find? fun e => tState e.2 = 2 with
    | some e => .swapping e.1
    | none =>
      let far := fun (e : Nat × BitVec 128) =>
        let pa := tBase e.2
        if (s.peer? pa).isSome then FarState.ok else s.farState pa
      if es.any fun e => far e = .wait then .wait
      else match es.find? fun e => far e = .fail .accessViolation with
        | some e => .fail .accessViolation (tBase e.2) 0x03
        | none => .go

/-- A context's layout-table entries of a command are valid (R250), and their lines are not poisoned. -/
def State.laysCheck (s : State) (x : EngCmd) (is : List Nat) : StartCheck :=
  let la := fun (i : Nat) => (match s.ctx? x.task.ctx with | some c => c.ltab | none => 0) + 32 * i
  match is.find? fun i => s.poisoned (la i) with
  | some i => .fail .uncorrectable (la i) 0x08
  | none => match is.find? fun i => !s.layOk x.task.ctx i with
    | some i => .fail .accessViolation (la i) 0x01
    | none => .go

/-- The checks at the start of a GATHER, SCATTER or XFER: valid layout entries (R250), the blocks' entries, and every block at one
level (R15); an XFER's blocks are not reserved (R195, R288). -/
def State.copyCheck (s : State) (x : EngCmd) : StartCheck :=
  let l := s.cmdLay x x.lay1
  let l2 := s.cmdLay x x.lay2
  let rows := (List.range x.n).map (s.copyRow x)
  let eas := distinct (rows.map (fun r => l.entry r.blk) ++ rows.map fun r => l2.entry r.blk2)
  let es := eas.map fun a => (a, s.tileEntry a)
  match s.laysCheck x [x.lay1, x.lay2] with
  | .go => match s.tilesCheck es with
    | .go =>
      let lv := es.map fun e => s.blockLevel e.2
      let held := fun (e : Nat × BitVec 128) => match s.ctx? x.task.ctx with
        | some c => s.reservedFrame c (tBase e.2)
        | none => false
      match (if x.kind = .xfer then es.find? held else none) with
      | some e => .fail .accessViolation (tBase e.2) 0x06
      | none =>
        if lv.any (·.isNone) || (distinct lv).length ≠ 1 then .fail .accessViolation (eas.headD 0) 0x03
        else .go
    | k => k
  | k => k

/-- A start that cannot be made: it waits, or the command fails; a log unit keeps what was refused. -/
def State.notStarted (s : State) (x : EngCmd) (unit : Nat) (k : StartCheck) : Option State :=
  match k with
  | .fail c ea rsn =>
    let a : DWord := BitVec.ofNat 64 ea
    if c = .tileFault then some (s.failCmd x c (tileInfo ea) none)
    else some (s.failCmd x c a (some ⟨unit, rsn, a, c = .uncorrectable⟩))
  | .swapping ea => if s.tileKnown x.core 3 ea || s.tileKnown x.core 0 ea then some (s.retile x.core ea) else none
  | _ => none

/-- A command of the core's one gather engine, whether A's or D's (R170, R241). -/
def EngKind.copies : EngKind → Bool
  | .gather | .scatter | .xfer => true
  | _ => false

/-- A copying command starts, or copies its next row: it is read whole, and written in a later turn of its port. The gather engine
starts the commands of its core in the order that it received them (R170, R241); a freeze of the core stops D's (R248). -/
def copyEff (s : State) (x : EngCmd) : Option State :=
  let earlier := s.engines.any fun y => y.core = x.core && y.kind.copies && y.before x && !y.started && !y.finished
  if !x.started then
    if earlier || (x.st = .d && !(s.cr x.core).clocked) then none
    else match s.laysCheck x [x.lay1, x.lay2] with
      | .go => match s.startTiles x.core (s.copyTiles x) with
        | .inl t => t
        | .inr t => match s.copyCheck x with
          | .go => some (t.setCmd (s.startCmd x))
          | k => s.notStarted x (4 * x.core + 3) k
      | k => s.notStarted x (4 * x.core + 3) k
  else
    let r := s.copyRow x x.progress
    let n := if x.kind = .xfer then 256 else x.rb
    match x.row with
    | none => s.engineRead x (s.cmdLay x x.lay1) r.blk r.off n fun t bs =>
        some ((t.dropCmdPeers x.id).setCmd { x with row := some bs, served := false })
    | some bs => s.engineWrite x (s.cmdLay x x.lay2) r.blk2 r.off2 bs fun t =>
        t.setCmd { x with
          row := none, served := false
          progress := x.progress + 1, finished := x.progress + 1 = x.n, due := s.now + 1
          records := x.records ++ digestRecord (blockIdent x.lay2 r.blk2) r.off2 bs }

/-- The effects of GATHER_EXECUTE, SCATTER_EXECUTE and XFER_EXECUTE. -/
def gatherEff (s : State) (id : Nat) : Option State := (s.dueCmd id (· = .gather)).bind (copyEff s)
def scatterEff (s : State) (id : Nat) : Option State := (s.dueCmd id (· = .scatter)).bind (copyEff s)
def xferEff (s : State) (id : Nat) : Option State := (s.dueCmd id (· = .xfer)).bind (copyEff s)

/-! ### The Dazia codec -/

/-- The format code of a stash block: 1, 3 or 4; the group's element bits. -/
def stashBits (mode : Nat) : Nat := if mode = 3 then 32 else 16

/-- The encoding of a group (R289): header, codes, whether it holds a NaN or infinity. -/
def stashEncode (b fmt : Nat) (xs : List Nat) : Nat × List Int × Bool :=
  let vs := xs.map (fmtDecode fmt)
  if vs.any fun v => v.isNan || v.isInf then (255, xs.map fun _ => 0, true)
  else
    let es := (vs.filter fun v => !v.isZero).map Num.expo
    if es.isEmpty then (0, xs.map fun _ => 0, false)
    else
      let e := max (es.foldl max (es.headD 0)) (-126)
      let lim : Int := 2 ^ (b - 1) - 1
      (((e + 127) : Int).toNat, vs.map fun v =>
        max (-lim) (min lim ((v.mul (.fin 1 (-(e - b + 2)))).round 0)), false)

/-- The bytes of an encoded group. -/
def stashBytes (b : Nat) (h : Nat) (qs : List Int) : List Byte :=
  valBytes 1 h ++ valBytes (8 * b) (pack b (qs.map (ofSigned b)))

/-- The decoding of a group's bytes (R290): element bits. -/
def stashDecode (b fmt : Nat) (bs : List Byte) : List Nat :=
  let h := (bs.headD 0).toNat
  let x := bytesVal (bs.drop 1)
  (List.range 64).map fun n =>
    if h = 0 then 0
    else if h = 255 then fpNan (fpFmt fmt)
    else fpRound (fpFmt fmt) 0 true ((Num.ofInt (toSigned b (elem x b n))).mul (.fin 1 ((h : Int) - 127 - b + 2)))

/-- The region of a command, and the first byte of its slot. -/
def State.cmdRegion (s : State) (x : EngCmd) : Region := Region.of (s.cmdRaw x x.lay2)
def State.slotBase (s : State) (x : EngCmd) : Nat :=
  let r := s.cmdRegion x
  frameBase r.level r.frame + (coordEl x.c2 0).toNat * slotBytes x.rb

/-- Splits a span of addresses at lines, with the offset of each part. -/
def lineParts (pa n : Nat) : List (Nat × Nat × Nat) :=
  let first := min n (256 - pa % 256)
  if first = n then [(pa, 0, n)] else [(pa, 0, first), (pa + first, first, n - first)]

/-- The frames that a command's slot touches, by their first bytes. -/
def State.slotFrames (s : State) (x : EngCmd) : List Nat :=
  let base := s.slotBase x
  let last := base + slotBytes x.rb - 1
  (List.range (last / 32768 - base / 32768 + 1)).map fun i => (base / 32768 + i) * 32768

/-- The owners and the status word that the codec checks at a start (R292). -/
def State.codecOk (s : State) (x : EngCmd) : Bool :=
  let r := s.cmdRegion x
  (s.slotFrames x).all (fun f => (s.tag f).owner = x.task.ctx && s.readable f) && inYard r.stw &&
    (s.tag r.stw).owner = x.task.ctx

/-- A STASH would store to a frame with the table bit (R378). -/
def State.codecTable (s : State) (x : EngCmd) : Bool :=
  x.kind = .stash && (s.tableFrame (s.cmdRegion x).stw || (s.slotFrames x).any s.tableFrame)

/-- The log unit of the codec that serves a slot: of a far slot that of the `PORT` read at the start (R384). -/
def State.codecUnit (s : State) (x : EngCmd) : Nat := if x.started then x.unit else s.unitOf (s.slotBase x)

/-- The CXL port that holds an address is LOST or DOWN, or its shed is lost (R399, R396). -/
def State.farLost (s : State) (pa : Nat) : Bool := (s.peer? pa).isNone && s.farLink pa = .fail .linkLost

/-- The first byte of each granule, or part of one, that a slot touches. -/
def State.slotPlaces (s : State) (x : EngCmd) : List Nat :=
  let base := s.slotBase x
  let last := base + slotBytes x.rb - 1
  (List.range (last / 2 ^ 21 - base / 2 ^ 21 + 1)).map fun i => max base ((base / 2 ^ 21 + i) * 2 ^ 21)

/-- A codec command starts where its slot is free and no earlier one waits for it, in the order of arrival (R295, R170); a slot or a
block in a granule whose flip waits makes it wait (R386). -/
def codecStart (s : State) (x : EngCmd) : Option State :=
  let same := fun (y : EngCmd) => (y.kind = .stash || y.kind = .restore) && !y.finished
  let busy := s.engines.any fun y => same y && y.id ≠ x.id && s.slotBase y = s.slotBase x &&
    (y.started || (y.before x && y.due ≤ s.now))
  let earlier := s.engines.any fun y => same y && y.core = x.core && y.before x && !y.started &&
    s.codecUnit y = s.codecUnit x
  let l := s.cmdLay x x.lay1
  let ea := l.entry (l.place (coords x.c1)).1
  let a : DWord := BitVec.ofNat 64 ea
  let u := s.codecUnit x
  let x := { x with unit := u }
  let rsn := if !(s.cmdRegion x).ok then 0x01 else if !s.codecOk x then 0x07 else 0x05
  if busy || earlier then none
  else match s.laysCheck x [x.lay1] with
    | .go => match s.startTiles x.core [(3, ea)] with
      | .inl t => t
      | .inr t => match s.tilesCheck [(ea, s.tileEntry ea)] with
        | .go =>
          if (s.slotPlaces x).any fun pa => s.farState pa = .wait then none
          else if !(s.cmdRegion x).ok || !s.codecOk x || s.codecTable x then
            some (s.failCmd x .accessViolation a (some ⟨u, rsn, a, false⟩))
          else some (t.setCmd (s.startCmd x))
        | k => s.notStarted x (4 * x.core + 3) k
    | k => s.notStarted x (4 * x.core + 3) k

/-- What stands against the slot's bytes of a command: the address that a lost link or shed makes unreachable, or a wait for a link that
trains (R295, R399). -/
def State.slotBlocked (s : State) (pas : List Nat) : Option (Option Nat) :=
  match pas.find? s.farLost with
  | some pa => some (some pa)
  | none => if pas.any fun pa => s.farLink pa = .wait then some none else none

/-- A started STASH encodes the groups of its next line. -/
def stashLine (s : State) (x : EngCmd) : Option State :=
  let l := s.cmdLay x x.lay1
  let (blk, _, _) := l.place (coords x.c1)
  let b := codeBits x.rb
  let w := stashBits x.rb
  let per := 2048 / (64 * w)
  let base := s.slotBase x
  let at_ := fun (i : Nat) => base + (per * x.progress + i) * groupBytes x.rb
  match s.slotBlocked ((List.range per).flatMap fun i => (lineParts (at_ i) (groupBytes x.rb)).map (·.1)) with
  | some (some pa) => some (s.failPlace x .linkLost pa)
  | some none => none
  | none => s.engineRead x l blk (256 * x.progress) 256 fun t bs =>
    let v := bytesVal bs
    let groups := (List.range per).map fun i =>
      stashEncode b l.fmt ((List.range 64).map fun n => elem v w (64 * i + n))
    let t := (List.range per).foldl (fun s i =>
      let g := groups.getD i (0, [], false)
      let out := stashBytes b g.1 g.2.1
      (lineParts (at_ i) out.length).foldl (fun s q => s.writeBytes q.1 ((out.drop q.2.1).take q.2.2)) s) t
    let nans := (groups.filter (·.2.2)).length
    let last := x.progress + 1 = 128
    let record := digestRecord (2 ^ 32 * x.lay2 + 2 ^ 8 * (coordEl x.c2 0).toNat + 3) 0 []
    some ((t.dropCmdPeers x.id).setCmd { x with
      progress := x.progress + 1, finished := last, due := s.now + 1, nans := x.nans + nans, served := false
      records := if last then record else [] })

/-- The status word counts the NaN groups that a STASH has stored, in one update as the command ends, also where it has failed (R293). A
word that cannot be read fails a command that has not. -/
def State.countNans (s : State) (x : EngCmd) : State :=
  let stw := (s.cmdRegion x).stw
  if x.nans = 0 then s
  else if s.farLost stw then if x.failed then s else s.failPlace x .linkLost stw
  else if s.poisoned stw then if x.failed then s else s.failPlace x .uncorrectable stw
  else s.writeDw stw (BitVec.ofNat 64 (2 ^ 63 + min 65535 (s.readNat stw 8 % 65536 + x.nans)))

/-- The next action of a started STASH: a line, and with its last, or with its failure, the status word (R293). -/
def stashAct (s : State) (x : EngCmd) : Option State :=
  (stashLine s x).map fun t => match t.engines.find? fun y => y.id = x.id && y.finished with
    | some y => t.countNans y
    | none => t

/-- A started RESTORE writes its next line. -/
def restoreLine (s : State) (x : EngCmd) : Option State :=
  let l := s.cmdLay x x.lay1
  let (blk, _, _) := l.place (coords x.c1)
  let w := stashBits x.rb
  let per := 2048 / (64 * w)
  let n := groupBytes x.rb
  let base := s.slotBase x
  let parts := (List.range per).flatMap fun i => lineParts (base + (per * x.progress + i) * n) n
  match s.slotBlocked (parts.map (·.1)), parts.find? fun q => s.poisoned q.1 with
  | some (some pa), _ => some (s.failPlace x .linkLost pa)
  | some none, _ => none
  | none, some q =>
    let a : DWord := BitVec.ofNat 64 q.1
    some (s.failCmd x .uncorrectable a (some ⟨s.codecUnit x, 0x08, a, false⟩))
  | none, none =>
    let bs := parts.flatMap fun q => s.readBytes q.1 q.2.2
    let xs := (List.range per).flatMap fun i => stashDecode (codeBits x.rb) l.fmt ((bs.drop (i * n)).take n)
    let out := valBytes 256 (pack w xs)
    s.engineWrite x l blk (256 * x.progress) out fun t =>
      t.setCmd { x with
        progress := x.progress + 1, finished := x.progress + 1 = 128, due := s.now + 1, served := false
        records := x.records ++ digestRecord (blockIdent x.lay1 blk) (256 * x.progress) out }

/-- The effects of STASH_ENCODE and RESTORE_DECODE: the codec starts the command, or does its next line. -/
def stashEff (s : State) (id : Nat) : Option State :=
  (s.dueCmd id (· = .stash)).bind fun x => if x.started then stashAct s x else codecStart s x
def restoreEff (s : State) (id : Nat) : Option State :=
  (s.dueCmd id (· = .restore)).bind fun x => if x.started then restoreLine s x else codecStart s x

/-! ### The reduce units -/

/-- One element of a reducing write (R242). -/
def reduceElement (k : EngKind) (d x : Nat) : Nat :=
  match k with
  | .rwrAddBf16 => fpRound (fpFmt 3) 0 true ((fmtDecode 3 d).add (fmtDecode 3 x))
  | .rwrMaxF32 => fpRound (fpFmt 1) 0 true ((fmtDecode 1 d).max (fmtDecode 1 x))
  | .rwrAddI32 => (d + x) % 2 ^ 32
  | _ => fpRound (fpFmt 1) 0 true ((fmtDecode 1 d).add (fmtDecode 1 x))

/-- Number `n` of a source stands applied in a window (R243): at or below its mask, or marked. -/
def Window.has (w : Window) (n : Nat) : Bool :=
  n + 64 ≤ w.high || (n ≤ w.high && w.mask.getLsbD (w.high - n))

/-- Marks a number: bit k of the mask is number `high` − k. -/
def Window.mark (w : Window) (n : Nat) : Window :=
  if w.high < n then { w with high := n, mask := (w.mask <<< (n - w.high)) ||| 1 }
  else { w with mask := w.mask ||| (1 <<< (w.high - n)) }

/-- A reduce unit applies a request, or discards one that it has applied (R243); none where every one of its 32,768 windows
is in use (R408). `go` writes the elements. -/
def State.applyReduce (s : State) (unit : Nat) (source : DWord) (launch n : Nat) (go : State → State) : Option State :=
  match s.windows.find? fun w => w.unit = unit && w.source = source && w.launch = launch with
  | some w =>
    if w.has n then some s
    else some (go { s with windows := s.windows.map fun v => if v = w then w.mark n else v })
  | none =>
    if 32768 ≤ (s.windows.filter (·.unit = unit)).length then none
    else some (go { s with windows := s.windows ++ [⟨unit, source, n, 1, launch⟩] })

/-- The elements at an address after a reducing write of `m` lanes of width `w`. -/
def State.reduceBytes (s : State) (k : EngKind) (pa w m : Nat) (data : Line) : List Byte :=
  let old := bytesVal (s.readBytes pa (m * w / 8))
  valBytes (m * w / 8) (pack w ((List.range m).map fun j => reduceElement k (elem old w j) (elem data.toNat w j)))

/-- The effect of REDUCE_REQUEST_APPLY: the request starts, which a freeze of the core holds back (R248), and its unit applies it, in a
near store in a turn of port 3; requests of one source reach a unit in issue order (R242). -/
def reduceEff (s : State) (id : Nat) : Option State :=
  (s.dueCmd id EngKind.reduces).bind fun x =>
    let l := s.cmdLay x x.lay1
    let (blk, off, _) := l.place (coords x.c1)
    let sent := valBytes (x.n * x.rb / 8) x.data.toNat
    let earlier := s.engines.any fun y => y.kind.reduces && y.source = x.source && y.id < x.id && !y.finished
    let done := fun (s : State) => s.setCmd { x with
      finished := true, records := digestRecord (blockIdent x.lay1 blk) off sent }
    let ea := l.entry blk
    if earlier || (!x.started && !(s.cr x.core).clocked) then none
    else if !x.started then
      match s.laysCheck x [x.lay1] with
      | .go => match s.startTiles x.core [(3, ea)] with
        | .inl t => t
        | .inr t => match s.tilesCheck [(ea, s.tileEntry ea)] with
          | .go => some (t.setCmd (s.startCmd x))
          | k => s.notStarted x (4 * x.core + 3) k
      | k => s.notStarted x (4 * x.core + 3) k
    else match s.destOf l blk off true with
      | .fail c log => some (s.failDest x ea c log)
      | .wait => none
      | .at pa => match s.peer? pa with
        | some e => match s.peerState x.writes with
          | .failed c => some (s.failPlace x c pa)
          | .done _ => some (done (s.dropCmdPeers x.id))
          | .wait =>
            if s.peerSent x.writes then none
            else s.askPeer x.writes e 3 pa sent.length [x.source, BitVec.ofNat 64 x.number] sent
        | none => match s.enginePort x pa false with
          | .wait => none
          | .ask t => some t
          | .go s =>
            if s.poisoned pa then some (s.failPlace x .uncorrectable pa)
            else
              (s.applyReduce (s.unitOf pa) x.source x.task.launch x.number fun s =>
                s.portWrite 3 pa (s.reduceBytes x.kind pa x.rb x.n x.data)).map done

/-! ### The steps -/

/-- ENGINE_COMMAND_DISPATCH (R170). -/
def execEngineCommandDispatch (p : Nat) (st : Stream) (s : State) : Host.Outcome State Fault Refusal :=
  event (dispatchEff s p st) s

/-- ENGINE_COMMAND_COMPLETION (R170). -/
def execEngineCommandCompletion (id : Nat) (s : State) : Host.Outcome State Fault Refusal := event (completionEff s id) s

/-- GATHER_EXECUTE (R172). -/
def execGatherExecute (id : Nat) (s : State) : Host.Outcome State Fault Refusal := event (gatherEff s id) s

/-- SCATTER_EXECUTE (R241). -/
def execScatterExecute (id : Nat) (s : State) : Host.Outcome State Fault Refusal := event (scatterEff s id) s

/-- XFER_EXECUTE (R174). -/
def execXferExecute (id : Nat) (s : State) : Host.Outcome State Fault Refusal := event (xferEff s id) s

/-- STASH_ENCODE (R289). -/
def execStashEncode (id : Nat) (s : State) : Host.Outcome State Fault Refusal := event (stashEff s id) s

/-- RESTORE_DECODE (R290). -/
def execRestoreDecode (id : Nat) (s : State) : Host.Outcome State Fault Refusal := event (restoreEff s id) s

/-- REDUCE_REQUEST_APPLY (R243). -/
def execReduceRequestApply (id : Nat) (s : State) : Host.Outcome State Fault Refusal := event (reduceEff s id) s

end Sys2Proof.Machine
end

