-- ==== Sys2Proof/Machine/Exchange.lean ====
section
/-! DEFINITION. The shunters (R258-R271): the start of exchanges, the line cursor, commit, roll-back, the service records of
the yardmaster with GRANT, and the idle scrub. -/

namespace Sys2Proof.Machine

/-- A shunter by its number: sheds 0-7, CXL ports 8-15 (R409). -/
def State.shunter (s : State) (n : Nat) : Shunter := Sparse.get {} s.shunters n
def State.setShunter (s : State) (n : Nat) (x : Shunter) : State := { s with shunters := Sparse.put s.shunters n x }

/-- The shunter that runs an exchange of two blocks (R173): the port of the first far frame in operand order, else the shed
that holds the first operand's frame. -/
def State.shunterOf (s : State) (e1 e2 : BitVec 128) : Nat :=
  let far := [e1, e2].find? fun e => tLevel e = 2
  match far with
  | some e => 8 + bits (s.granule (frameBase 2 (tFrame e)) 0) 5 3
  | none => match place (tBase e1) with
    | .near q _ => shedOf q
    | .yard sh => sh
    | _ => 0

/-- The tile-table entries that an exchange command names (R173). -/
def State.exchangeEntries (s : State) (x : EngCmd) : Nat × Nat :=
  let l := s.cmdLay x x.lay1
  let l2 := s.cmdLay x x.lay2
  (l.entry (l.place (coords x.c1)).1, l2.entry (l2.place (coords x.c2)).1)

/-- Work that has reached a shunter: an exchange command, or a service record. -/
inductive Work where
  | cmd (x : EngCmd) (e1 e2 : Nat)
  | service (r : Service)
  deriving DecidableEq, Repr

/-- The cycle in which it reached the shunter. -/
def Work.due : Work → Nat
  | .cmd x _ _ => x.due
  | .service r => r.due
def Work.id : Work → Nat
  | .cmd x _ _ => x.id
  | .service r => r.id
/-- The one reached the shunter before the other (R259). -/
def Work.before (v w : Work) : Bool := v.due < w.due || (v.due = w.due && v.id < w.id)
def Work.entries : Work → Nat × Nat
  | .cmd _ a b => (a, b)
  | .service r => (r.e1.toNat, r.e2.toNat)

/-- The work can be taken up now: neither of its blocks is reserved by an exchange (R170, R258, R268) nor behind a granule or a link
that makes new accesses wait (R386, R399). -/
def State.workReady (s : State) (w : Work) : Bool :=
  let waits := fun (ea : Nat) =>
    let e := s.tileEntry ea
    let pa := tBase e
    (s.exchangeOf ea).isSome ||
      tV e && (tState e = 1 || tState e = 2 || (tState e = 0 && (s.peer? pa).isNone && s.farState pa = .wait))
  let (a, b) := w.entries
  a = b || (!waits a && !waits b)

/-- The exchange commands that wait at shunter `n`, in arrival order. -/
def State.shunterCmds (s : State) (n : Nat) : List Work :=
  (s.engines.filter fun x => (x.kind = .xchgP || x.kind = .xchgD) && !x.started && !x.finished && x.due ≤ s.now).filterMap
    fun x =>
      let (a, b) := s.exchangeEntries x
      if s.shunterOf (s.tileEntry a) (s.tileEntry b) = n then some (.cmd x a b) else none

/-- What an idle shunter takes up next: the first to have reached it of the commands and records that are ready; a command
that waits holds back later ones of its core (R170, R259). -/
def State.nextWork (s : State) (n : Nat) : Option Work :=
  let k := s.shunter n
  if k.run.isSome then none
  else
    let cmds := s.shunterCmds n
    let coreOf := fun (w : Work) => match w with | .cmd x _ _ => x.core | _ => 0
    let heads := cmds.filter fun w => !cmds.any fun v => coreOf v = coreOf w && v.before w
    let all := sortBy Work.due (sortBy Work.id (heads ++ k.service.map .service))
    all.find? s.workReady

/-! ### Sharers -/

/-- Every domain drops an entry from its tile caches (R256). -/
def State.invalidate (s : State) (ea : Nat) : State :=
  let drop := fun (xs : List (Nat × BitVec 128)) => xs.filter (·.1 ≠ ea)
  { s with
    cores := s.cores.map fun x => (x.1, { x.2 with lookups := { x.2.lookups with tiles := x.2.lookups.tiles.map drop } })
    ioTiles := s.ioTiles.map drop }

/-- An entry with a state, a cursor, the roll-back bit and a partner; the sharer mask is cleared. -/
def tMove (e : BitVec 128) (st cursor : Nat) (rb : Bool) (partner : Nat) : BitVec 128 :=
  let e := tPut (tPut (tPut e 1 2 st) 4 7 cursor) 11 1 (if rb then 1 else 0)
  tPut (tPut e 64 52 (partner / 16)) 116 12 0

/-- An entry with another frame. -/
def tReframe (e : BitVec 128) (level frame : Nat) : BitVec 128 := tPut (tPut e 12 2 level) 16 48 frame

/-! ### Start -/

/-- The shed of a frame within the package; none in far memory. -/
def baseShed (pa : Nat) : Option Nat :=
  match place pa with
  | .near q _ => some (shedOf q)
  | .yard sh => some sh
  | _ => none

/-- The cycles of an exchange (R259): setup, per line, commit; a free delay is added where they are variable. -/
def State.exchangeCycles (s : State) (e1 e2 : BitVec 128) : (Nat × Nat × Nat) × State :=
  let a := tBase e1
  let b := tBase e2
  let base : Option Nat := match place a, place b with
    | .near p _, .near q _ => if p = q then some 2 else if shedOf p = shedOf q then some 4 else none
    | _, _ => if (baseShed a).isSome && baseShed a = baseShed b then some 4 else none
  let outside := fun (e : BitVec 128) => match baseShed a with
    | some sh => tShr e ||| 2 ^ sh ≠ 2 ^ sh
    | none => true
  match base with
  | some k =>
    if outside e1 || outside e2 then
      let (d, s) := s.delay
      ((k + d, k, k), s)
    else ((k, k, k), s)
  | none =>
    let (d, s) := s.delay
    ((4 + d, 4, 4), s)

/-- Starts an exchange on shunter `n`: both entries are reserved and their sharers are invalidated. The entries leave RESIDENT at the end
of the setup (R427). -/
def State.startExchange (s : State) (n : Nat) (placement : Bool) (a b ctx : Nat) (cmd : Option EngCmd) (inc done : Nat) :
    State :=
  let e1 := s.tileEntry a
  let e2 := s.tileEntry b
  let ((setup, per, tail), s) := s.exchangeCycles e1 e2
  let s := (s.invalidate a).invalidate b
  let x : Exchange :=
    { placement := placement, e1 := a, e2 := b, f1 := tBase e1, f2 := tBase e2, cursor := 0, rollback := false,
      marked := false, drained := false, due := s.now + setup - 1, per := per, tail := tail, ctx := ctx,
      cmd := cmd, inc := inc, done := done, linkLost := false }
  let k := s.shunter n
  s.setShunter n { k with run := some x }

/-- Why the shunter refuses a block of a command (R258, R288, R384): the `RSN`. -/
def State.refusesBlock (s : State) (ctx : Nat) (e : BitVec 128) : Option Nat :=
  let pa := tBase e
  if (s.peer? pa).isSome || (place pa = .far && !s.farOk pa) then some 0x03
  else if (s.tag pa).owner ≠ ctx then some 0x07
  else match s.ctx? ctx with
    | some c => if s.reservedFrame c pa then some 0x06 else none
    | none => some 0x07

/-- The log unit of a shunter (R409). -/
def shunterUnit (n : Nat) : Nat := if n < 8 then 2056 + n else 2064 + (n - 8)

/-- A shunter takes up an exchange command (R258, R267); its layout-table entries must be valid and unpoisoned (R250, R393). -/
def State.takeExchange (s : State) (n : Nat) (x : EngCmd) (a b : Nat) : State :=
  let e1 := s.tileEntry a
  let e2 := s.tileEntry b
  let bad := fun (ea : Nat) => s.failCmd x .tileFault (tileInfo ea) none
  let no := fun (ea rsn : Nat) =>
    let w : DWord := BitVec.ofNat 64 ea
    s.failCmd x .accessViolation w (some ⟨shunterUnit n, rsn, w, false⟩)
  let poison := fun (ea : Nat) =>
    let w : DWord := BitVec.ofNat 64 ea
    s.failCmd x .uncorrectable w (some ⟨s.unitOf ea, 0x08, w, true⟩)
  let l := s.cmdLay x x.lay1
  let l2 := s.cmdLay x x.lay2
  let record := digestRecord (blockIdent x.lay1 (l.place (coords x.c1)).1) 0 [] ++
    digestRecord (blockIdent x.lay2 (l2.place (coords x.c2)).1) 0 []
  match s.laysCheck x [x.lay1, x.lay2] with
  | .fail .uncorrectable la _ => poison la
  | .fail _ la rsn => no la rsn
  | _ =>
  if s.poisoned a then poison a
  else if s.poisoned b then poison b
  else if !tileOk e1 then bad a
  else if !tileOk e2 then bad b
  else match s.refusesBlock x.task.ctx e1, s.refusesBlock x.task.ctx e2 with
    | some r, _ => no (tBase e1) r
    | _, some r => no (tBase e2) r
    | none, none =>
      if a = b then s.setCmd { x with finished := true, records := record }
      else
      let y := { x with started := true, records := record }
      (s.setCmd y).startExchange n (x.kind = .xchgP) a b x.task.ctx (some y) x.inc.toNat 0

/-- The effects of XCHG_P_START and XCHG_D_START. -/
def xchgStartEff (s : State) (n : Nat) (k : EngKind) : Option State :=
  match s.nextWork n with
  | some (.cmd x a b) => if x.kind = k then some (s.takeExchange n { x with unit := n } a b) else none
  | _ => none

/-! ### Service records (R270) -/

/-- Completes a service record: `INC` is added to the completion word, whose bit 31 a failure sets. -/
def State.serviceDone (s : State) (inc done : Nat) (fail : Bool) : State :=
  let v : Word := BitVec.ofNat 32 (s.readNat done 4)
  s.writeBytes done (valBytes 4 (bumpCounter v inc fail).toNat)

/-- A record with no reserved bit set, and an `INC`. -/
def Service.ok (r : Service) : Bool :=
  bits r.opw.toNat 12 52 = 0 && bits r.opw.toNat 4 8 ≠ 0 && bits r.opw.toNat 0 4 ≤ 2 &&
  r.e1.toNat % 16 = 0 && bits r.e1.toNat 56 8 = 0 && r.e2.toNat % 16 = 0 && bits r.e2.toNat 56 8 = 0
def Service.op (r : Service) : Nat := bits r.opw.toNat 0 4
def Service.inc (r : Service) : Nat := bits r.opw.toNat 4 8

/-- The record leaves the FIFO. -/
def State.dropService (s : State) (n : Nat) (r : Service) : State :=
  let k := s.shunter n
  s.setShunter n { k with service := k.service.erase r }

/-- A service exchange that the shunter refuses: invalid entries, blocks of two contexts, landing blocks, or blocks that
take part in no exchange. -/
def State.serviceRefused (s : State) (a b : Nat) : Bool :=
  let e1 := s.tileEntry a
  let e2 := s.tileEntry b
  let own := (s.tag (tBase e1)).owner
  !tileOk e1 || !tileOk e2 || (s.refusesBlock own e1).isSome || (s.refusesBlock own e2).isSome

/-- The context whose layout table names the identity of an entry. -/
def State.identityCtx (s : State) (ea : Nat) : Option Nat :=
  (s.ctxs.find? fun c => (List.range c.2.nlt).any fun i =>
    let l := Lay.of (s.layRaw c.2 i)
    l.fmt ≤ 13 && l.entry 0 ≤ ea && ea ≤ l.entry l.nblkm1).map (·.1)

/-- A service record of a shunter names entries whose lines read poisoned: the failed reads are logged, and the contexts of the tables
are to be destroyed (R364, R392, R393); none where both read well. -/
def State.servicePoison (s : State) (n : Nat) (r : Service) : Option State :=
  match [r.e1.toNat, r.e2.toNat].filter s.poisoned with
  | [] => none
  | eas => some (eas.foldl (fun s ea =>
      let c := s.identityCtx ea
      let s := match c with | some k => s.tableError k | none => s
      s.logError (s.unitOf ea) 0x11 0x08 (c.getD 0) 1 n (BitVec.ofNat 64 ea)) s)

/-- The effects of SERVICE_XCHG_P and SERVICE_XCHG_D: a malformed record of the kind completes with bit 31. -/
def serviceXchgEff (s : State) (n op : Nat) : Option State :=
  match s.nextWork n with
  | some (.service r) =>
    let a := r.e1.toNat
    let b := r.e2.toNat
    if r.op ≠ op && !(op = 0 && 3 ≤ r.op) then none
    else
      let s := s.dropService n r
      if !r.ok then some (s.serviceDone r.inc r.done.toNat true)
      else match s.servicePoison n r with
      | some t => some (t.serviceDone r.inc r.done.toNat true)
      | none =>
      if s.serviceRefused a b then some (s.serviceDone r.inc r.done.toNat true)
      else if a = b then some (s.serviceDone r.inc r.done.toNat false)
      else some (s.startExchange n (op = 0) a b (s.tag (tBase (s.tileEntry a))).owner none r.inc r.done.toNat)
  | _ => none

/-- The entries of a context's layout index cover a tile-table entry. -/
def Lay.covers (l : Lay) (ea : Nat) : Bool := l.entry 0 ≤ ea && ea ≤ l.entry l.nblkm1

/-- The entry belongs to the void tensor of a context (R257, R362). -/
def State.isVoid (s : State) (ctx ea : Nat) : Bool :=
  match s.ctx? ctx with
  | some c => (Lay.of (s.layRaw c c.voidt)).covers ea
  | none => false

/-- A frame passes to a context with every scrub bit set (R257): nothing that it held is read any more. -/
def State.passFrame (s : State) (pa ctx : Nat) : State :=
  let t := s.tag pa
  { s.setTag pa { t with owner := ctx, scrub := BitVec.allOnes 128 } with
    uoOld := s.uoOld.filter fun o => o.pa / 32768 ≠ pa / 32768 }

/-- The change that a GRANT makes; none where its entries break the rules. The void identity that becomes ABSENT holds no frame (R255):
its `FRAME` and `LEVEL` are zero (DEDUCED, log 105). -/
def State.grantFrames (s : State) (a b : Nat) : Option State :=
  let e1 := s.tileEntry a
  let e2 := s.tileEntry b
  let c1 := (s.tag (tBase e1)).owner
  let free := fun (ctx : Nat) (e : BitVec 128) => (s.refusesBlock ctx e).isNone
  if a = b || !tileOk e1 || !s.isVoid c1 a || !free c1 e1 || !tV e2 then none
  else match s.identityCtx b with
    | none => none
    | some c2 =>
      if tState e2 = 3 then
        let s := ((s.invalidate a).invalidate b).passFrame (tBase e1) c2
        let new := tReframe (tMove e2 0 0 false 0) (tLevel e1) (tFrame e1)
        some ((s.setTileEntry b new).setTileEntry a (tReframe (tMove e1 3 0 false 0) 0 0))
      else if c2 = c1 || !tileOk e2 || !s.isVoid c2 b || !free c2 e2 then none
      else
        let s := (((s.invalidate a).invalidate b).passFrame (tBase e1) c2).passFrame (tBase e2) c1
        let new1 := tReframe (tMove e1 0 0 false 0) (tLevel e2) (tFrame e2)
        let new2 := tReframe (tMove e2 0 0 false 0) (tLevel e1) (tFrame e1)
        some ((s.setTileEntry a new1).setTileEntry b new2)

/-- The effect of GRANT. -/
def grantEff (s : State) (n : Nat) : Option State :=
  match s.nextWork n with
  | some (.service r) =>
    if r.op ≠ 2 then none
    else
      let s := s.dropService n r
      match (if r.ok then s.servicePoison n r else none) with
      | some t => some (t.serviceDone r.inc r.done.toNat true)
      | none => match (if r.ok then s.grantFrames r.e1.toNat r.e2.toNat else none) with
        | some t => some (t.serviceDone r.inc r.done.toNat false)
        | none => some (s.serviceDone r.inc r.done.toNat true)
  | _ => none

/-! ### The line cursor -/

/-- An address lies in one of the frames of an exchange. -/
def Exchange.holds (x : Exchange) (pa : Nat) : Bool :=
  (x.f1 ≤ pa && pa < x.f1 + 32768) || (x.f2 ≤ pa && pa < x.f2 + 32768)

/-- Accesses of C on their way to a place that their issue has fixed; a round's request looks its word up when the round
closes. What a restored or stopped core performs again later is not on its way. -/
def Core.onWay (c : Core) : List Pending :=
  { c with
    loads := if c.restored then [] else c.loads.filter fun l => !l.failed && !l.again
    amos := c.amos.filter fun a => a.round.isNone && !a.failed && (match a.late with | .awaited _ => false | _ => true) }.pending

/-- The place of an address after line `l` of the frames of an exchange has been swapped. -/
def Exchange.crossed (x : Exchange) (l pa : Nat) : Nat :=
  if pa / 256 = x.f1 / 256 + l then x.f2 + 256 * l + pa % 256
  else if pa / 256 = x.f2 / 256 + l then x.f1 + 256 * l + pa % 256
  else pa

/-- The accesses of a core to blocks that are on their way go where their lines have moved to. -/
def Core.follow (c : Core) (f : Nat → Nat) : Core :=
  { c with
    loads := c.loads.map fun a => if a.win then { a with pa := f a.pa } else a
    stores := c.stores.map fun a => if a.win then { a with pa := f a.pa } else a
    amos := c.amos.map fun a => if a.win then { a with pa := f a.pa } else a
    gbArrives := c.gbArrives.map fun a => if a.win then { a with pa := f a.pa } else a
    gbPolls := c.gbPolls.map fun a => if a.win then { a with pa := f a.pa } else a
    aloads := c.aloads.map fun a => match a.kind with
      | .bfx x va pa pa2 true => { a with kind := .bfx x va (f pa) (if pa2 = 0 then 0 else f pa2) true }
      | _ => a }

/-- An access to the blocks of an exchange is in flight (R260): a linear access, a load of stream A, a line of D's on its
way, or an engine command that has started. -/
def State.inFlight (s : State) (x : Exchange) : Bool :=
  let eas := [x.e1, x.e2]
  let touches := fun (l : Lay) (blk : Nat) => eas.contains (l.entry blk)
  (s.cores.any fun (p, c) =>
    c.onWay.any (fun a => x.holds a.pa) || c.gbPolls.any (fun g => x.holds g.pa) ||
    c.aloads.any (fun a => a.look.isNone && !a.failed && !c.restored && (match a.kind with
      | .bfx _ _ pa pa2 _ => x.holds pa || x.holds pa2
      | k =>
        let (i, v) := k.where_
        let l := s.layOf p i
        (columnPlaces l v 64).any (fun q => touches l q.1) || touches l (l.place (coords v)).1)) ||
    (c.drain.buf.any fun l => l.remote.isSome && l.resolved && touches (s.layOf p l.lay) l.blk) ||
    c.drain.away.any fun x => x.2.resolved && touches (s.layIn x.1.ctx x.2.lay) x.2.blk) ||
  s.engines.any fun y => y.started && !y.finished && (y.kind ≠ .xchgP && y.kind ≠ .xchgD) &&
    (let l := s.cmdLay y y.lay1
     let l2 := s.cmdLay y y.lay2
     match y.kind with
     | .gather | .scatter | .xfer => (List.range y.n).any fun j =>
         let r := s.copyRow y j
         touches l r.blk || touches l2 r.blk2
     | _ => touches l (l.place (coords y.c1)).1)

/-- A frame cannot be reached: its link is LOST (R261). -/
def State.unreachable (s : State) (x : Exchange) : Bool := s.farLost x.f1 || s.farLost x.f2

/-- A frame stands behind a port link that is LOST (R262), or in a lost shed (R396). -/
def State.linkLost (s : State) (x : Exchange) : Bool :=
  [x.f1, x.f2].any fun pa =>
    if place pa = .far then s.cxl[bits (s.granule pa 0) 5 3]? = some .lost else s.farLost pa

/-- A frame stands behind a port link that makes accesses wait. -/
def State.linkWaits (s : State) (x : Exchange) : Bool := s.farLink x.f1 = .wait || s.farLink x.f2 = .wait

/-- The context of an exchange is being destroyed (R264). -/
def State.exchangeDoomed (s : State) (x : Exchange) : Bool :=
  match s.ctx? x.ctx with
  | some c => c.destroying
  | none => true

/-- The lines at the cursor that the shunter has read poisoned. -/
def State.poisonedPair (s : State) (x : Exchange) : List Nat :=
  if x.cursor < 128 && x.marked && x.drained && x.due ≤ s.now then
    [x.f1 + 256 * x.cursor, x.f2 + 256 * x.cursor].filter s.poisoned
  else []

/-- A reserved exchange cannot go on to its commit (R261, R264): a poisoned line, a lost link, or a dying context. -/
def State.mustRollBack (s : State) (x : Exchange) : Bool :=
  !x.rollback && (s.exchangeDoomed x || s.unreachable x || s.poisonedPair x ≠ [])

/-- Writes the cursor and the roll-back bit of both entries of an exchange. -/
def State.setCursor (s : State) (x : Exchange) (cursor : Nat) (rb : Bool) : State :=
  let put := fun (s : State) (ea : Nat) =>
    s.setTileEntry ea (tPut (tPut (s.tileEntry ea) 4 7 (min cursor 127)) 11 1 (if rb then 1 else 0))
  put (put s x.e1) x.e2

/-- Swaps line `l` of the frames of an exchange, with its data as it stands, and with what of it a UO page may still give; accesses to
the blocks go to its new place (R258). -/
def State.swapLine (s : State) (x : Exchange) (l : Nat) : State :=
  let a := x.f1 + 256 * l
  let b := x.f2 + 256 * l
  let va := s.readBytes a 256
  let vb := s.readBytes b 256
  let pa := s.poisoned a
  let pb := s.poisoned b
  let s := (s.writeBytes a vb).writeBytes b va
  let s := if pb then s.setPoison a else s
  let s := if pa then s.setPoison b else s
  { s with
    cores := s.cores.map fun c => (c.1, c.2.follow (x.crossed l))
    uoOld := s.uoOld.map fun o => { o with pa := x.crossed l o.pa } }

/-- Changes the exchange that a shunter runs. -/
def State.setRun (s : State) (n : Nat) (x : Option Exchange) : State :=
  let k := s.shunter n
  s.setShunter n { k with run := x }

/-- Both entries leave RESIDENT in one access, at the end of the setup (R258, R260, R427); a sharer that has looked one of them up in
the meantime drops it. -/
def State.markEntries (s : State) (x : Exchange) : State :=
  let s := (s.invalidate x.e1).invalidate x.e2
  let st := if x.placement then 1 else 2
  (s.setTileEntry x.e1 (tMove (s.tileEntry x.e1) st 0 false x.e2)).setTileEntry x.e2 (tMove (s.tileEntry x.e2) st 0 false x.e1)

/-- The effect of EXCHANGE_LINE_SWAP; before the first line the end of the setup, and for XCHG.D that of the wait for accesses in
flight. -/
def lineSwapEff (s : State) (n : Nat) : Option State :=
  match (s.shunter n).run with
  | some x =>
    if x.rollback || 128 ≤ x.cursor || s.mustRollBack x then none
    else if !x.marked then
      if s.now < x.due then none
      else some ((s.markEntries x).setRun n (some { x with marked := true, drained := x.placement, due := s.now + x.per }))
    else if !x.drained then
      if s.inFlight x then none
      else some (s.setRun n (some { x with drained := true, due := s.now + x.per }))
    else if x.due ≤ s.now && !s.linkWaits x then
      let c := x.cursor + 1
      let s := (s.swapLine x x.cursor).setCursor x c false
      some (s.setRun n (some { x with cursor := c, due := s.now + (if c = 128 then x.tail else x.per) }))
    else none
  | none => none

/-- Both entries return to RESIDENT in one access, with exchanged frames or their own; they have never left it where the setup has not
ended. -/
def State.settleEntries (s : State) (x : Exchange) (crossed : Bool) : State :=
  let e1 := tMove (s.tileEntry x.e1) 0 0 false 0
  let e2 := tMove (s.tileEntry x.e2) 0 0 false 0
  if !x.marked then s
  else if crossed then
    (s.setTileEntry x.e1 (tReframe e1 (tLevel e2) (tFrame e2))).setTileEntry x.e2 (tReframe e2 (tLevel e1) (tFrame e1))
  else (s.setTileEntry x.e1 e1).setTileEntry x.e2 e2

/-- An exchange ends: its command completes (R170), or its record. None while the token queue is full. -/
def State.endExchange (s : State) (n : Nat) (x : Exchange) (crossed err : Bool) : Option State :=
  match x.cmd with
  | some y =>
    (s.deliver { y with failed := err }).map fun s =>
      (({ s with engines := s.engines.filter (·.id ≠ y.id) }).settleEntries x crossed).setRun n none
  | none => some (((s.settleEntries x crossed).setRun n none).serviceDone x.inc x.done err)

/-- The effect of EXCHANGE_COMMIT. -/
def commitEff (s : State) (n : Nat) : Option State :=
  match (s.shunter n).run with
  | some x =>
    if !x.rollback && x.cursor = 128 && x.due ≤ s.now && !s.mustRollBack x then s.endExchange n x x.placement false else none
  | none => none

/-- The failed reads of a shunter are logged (R392): an engine's, numbered by the shunter. -/
def State.logShunter (s : State) (n : Nat) (x : Exchange) (c : Cause) (pas : List Nat) : State :=
  pas.foldl (fun s pa =>
    s.logError (s.unitOf pa) c.code (if c = .uncorrectable then 0x08 else 0) x.ctx 1 n (BitVec.ofNat 64 pa)) s

/-- The effect of EXCHANGE_ROLLBACK_START. -/
def rollbackEff (s : State) (n : Nat) : Option State :=
  match (s.shunter n).run with
  | some x =>
    if s.mustRollBack x then
      let t := s.logShunter n x .uncorrectable (s.poisonedPair x)
      let t := if x.marked then t.setCursor x x.cursor true else t
      some (t.setRun n (some { x with rollback := true, due := s.now + x.per }))
    else none
  | none => none

/-- The next line of a roll-back is due. -/
def Exchange.backDue (x : Exchange) (now : Nat) : Bool := x.rollback && x.cursor ≠ 0 && x.due ≤ now

/-- The effect of ROLLBACK_LINE_SWAP. -/
def backSwapEff (s : State) (n : Nat) : Option State :=
  match (s.shunter n).run with
  | some x =>
    if x.backDue s.now && s.farLink x.f1 = .ok && s.farLink x.f2 = .ok then
      let c := x.cursor - 1
      let s := (s.swapLine x c).setCursor x c true
      some (s.setRun n (some { x with cursor := c, due := s.now + x.per }))
    else none
  | none => none

/-- The effect of ROLLBACK_LINK_LOST: the line below the cursor is poisoned in both frames (R262). -/
def backLostEff (s : State) (n : Nat) : Option State :=
  match (s.shunter n).run with
  | some x =>
    if x.backDue s.now && s.linkLost x then
      let c := x.cursor - 1
      let s := ((s.setPoison (x.f1 + 256 * c)).setPoison (x.f2 + 256 * c)).setCursor x c true
      some (s.setRun n (some { x with cursor := c, linkLost := true, due := s.now + 1 }))
    else none
  | none => none

/-- The frames of an exchange that a lost link or shed puts out of reach: those that the log of a LINK_LOST and word 3 of its record
name (R388, R392); where all can be reached again, the far one. -/
def State.lostFrames (s : State) (x : Exchange) : List Nat :=
  match [x.f1, x.f2].filter s.farLost with
  | [] => [if place x.f1 = .far then x.f1 else x.f2]
  | fs => fs

/-- The effect of ROLLBACK_COMPLETE: old frames, `ERR`, EXCHANGE_ABORTED and, after a lost link, LINK_LOST (R261, R262); a
context that is being destroyed gets no report (R264). -/
def backDoneEff (s : State) (n : Nat) : Option State :=
  match (s.shunter n).run with
  | some x =>
    if !x.rollback || x.cursor ≠ 0 then none
    else if s.exchangeDoomed x then
      let s := match x.cmd with
        | some y => { s with engines := s.engines.filter (·.id ≠ y.id) }
        | none => s.serviceDone x.inc x.done true
      some ((s.settleEntries x false).setRun n none)
    else
      let lost := if x.linkLost || s.unreachable x then s.lostFrames x else []
      let report := fun (t : State) (c : Cause) (info : DWord) => match x.cmd with
        | some y => t.asyncTrap y.core 4 y.task y.pos c info
        | none => t
      (s.endExchange n x false true).map fun t =>
        (lost.take 1).foldl (fun t pa => report t .linkLost (BitVec.ofNat 64 pa))
          (report (t.logShunter n x .linkLost lost) .exchangeAborted 0)
  | none => none

/-- The effect of IDLE_SCRUB_WRITE (R257): a controller zeroes a scrub-pending line. -/
def scrubEff (s : State) (frame line : Nat) : Option State :=
  let pa := frame * 32768 + line % 128 * 256
  if s.scrubbed pa then some (s.writeBytes pa (List.replicate 256 0)) else none

/-! ### The steps -/

/-- XCHG_P_START (R258). -/
def execXchgPStart (n : Nat) (s : State) : Host.Outcome State Fault Refusal := event (xchgStartEff s n .xchgP) s

/-- XCHG_D_START (R260). -/
def execXchgDStart (n : Nat) (s : State) : Host.Outcome State Fault Refusal := event (xchgStartEff s n .xchgD) s

/-- EXCHANGE_LINE_SWAP (R258). -/
def execExchangeLineSwap (n : Nat) (s : State) : Host.Outcome State Fault Refusal := event (lineSwapEff s n) s

/-- EXCHANGE_COMMIT (R258). -/
def execExchangeCommit (n : Nat) (s : State) : Host.Outcome State Fault Refusal := event (commitEff s n) s

/-- EXCHANGE_ROLLBACK_START (R261). -/
def execExchangeRollbackStart (n : Nat) (s : State) : Host.Outcome State Fault Refusal := event (rollbackEff s n) s

/-- ROLLBACK_LINE_SWAP (R261). -/
def execRollbackLineSwap (n : Nat) (s : State) : Host.Outcome State Fault Refusal := event (backSwapEff s n) s

/-- ROLLBACK_COMPLETE (R261). -/
def execRollbackComplete (n : Nat) (s : State) : Host.Outcome State Fault Refusal := event (backDoneEff s n) s

/-- ROLLBACK_LINK_LOST (R262). -/
def execRollbackLinkLost (n : Nat) (s : State) : Host.Outcome State Fault Refusal := event (backLostEff s n) s

/-- IDLE_SCRUB_WRITE (R257). -/
def execIdleScrubWrite (frame line : Nat) (s : State) : Host.Outcome State Fault Refusal := event (scrubEff s frame line) s

/-- SERVICE_XCHG_P (R270). -/
def execServiceXchgP (n : Nat) (s : State) : Host.Outcome State Fault Refusal := event (serviceXchgEff s n 0) s

/-- SERVICE_XCHG_D (R270). -/
def execServiceXchgD (n : Nat) (s : State) : Host.Outcome State Fault Refusal := event (serviceXchgEff s n 1) s

/-- GRANT (R270). -/
def execGrant (n : Nat) (s : State) : Host.Outcome State Fault Refusal := event (grantEff s n) s

end Sys2Proof.Machine
end

