-- ==== Sys2Proof/Machine/Walk.lean ====
section
/-! DEFINITION. Walks: the launch header and the phase records (R22, R345-R347), walk ordinals and work identifiers (R24),
continuation walks (R33, R336), groups and their cores (R355, R356), the commit bitmap and predecessors (R29, R348). -/

namespace Sys2Proof.Machine

/-! ### The header and the phase records -/

/-- Fields of the launch header (R345). -/
def hdrWidth (h : BitVec 512) (k : Nat) : Nat := bits h.toNat (6 * k) 6
def hdrDet (h : BitVec 512) : Bool := h.getLsbD 36
def hdrPhases (h : BitVec 512) : Nat := bits h.toNat 40 8 + 1
def hdrBinds (h : BitVec 512) : Nat := bits h.toNat 48 7
def hdrDig (h : BitVec 512) : Bool := h.getLsbD 55
def hdrEntry (h : BitVec 512) : DWord := h.extractLsb' 64 64
def hdrBtab (h : BitVec 512) : DWord := h.extractLsb' 128 64
def hdrPtab (h : BitVec 512) : DWord := h.extractLsb' 192 64
def hdrDtab (h : BitVec 512) : DWord := h.extractLsb' 256 64

/-- Fields of a phase record (R347): the count, the boundary (true: OVERLAP), the continuation walk, free placement, the
field at place `i` of the nesting (0 outermost), the direction, the slack, the predecessors, their distances and deltas,
and the offset table. -/
def phCount (r : BitVec 1024) (k : Nat) : Nat := bits r.toNat (32 * k) 32 + 1
def phOverlap (r : BitVec 1024) : Bool := r.getLsbD 192
def phCont (r : BitVec 1024) : Bool := r.getLsbD 193
def phFree (r : BitVec 1024) : Bool := r.getLsbD 194
def phOrder (r : BitVec 1024) (i : Nat) : Nat := bits r.toNat (195 + 3 * i) 3
def phDown (r : BitVec 1024) (k : Nat) : Bool := r.getLsbD (213 + k)
def phSlack (r : BitVec 1024) : Nat := bits r.toNat 219 24
def phPreds (r : BitVec 1024) : Nat := bits r.toNat 243 3
def phOfftab (r : BitVec 1024) : DWord := r.extractLsb' 256 64
def phDist (r : BitVec 1024) (i : Nat) : Nat := bits r.toNat (320 + 3 * i) 3
def phDelta (r : BitVec 1024) (i : Nat) : DWord := r.extractLsb' (384 + 64 * i) 64

/-- The lowest bit of field `k` of a work identifier (R22). -/
def hdrLow (h : BitVec 512) (k : Nat) : Nat := ((List.range k).map (hdrWidth h)).sum

/-- The work identifier of six field values. -/
def widOf (h : BitVec 512) (f : List Nat) : DWord :=
  BitVec.ofNat 64 (((List.range 6).map fun k => f.getD k 0 * 2 ^ hdrLow h k).sum)

/-- The field values of a work identifier. -/
def fieldsOf (h : BitVec 512) (wid : DWord) : List Nat :=
  (List.range 6).map fun k => bits wid.toNat (hdrLow h k) (hdrWidth h k)

/-! ### Walk ordinals (R24) -/

/-- The nesting, innermost field first. -/
def nesting (r : BitVec 1024) : List Nat := ((List.range 6).map (phOrder r)).reverse

/-- The tasks of a walk that is not a continuation walk. -/
def walkSize (r : BitVec 1024) : Nat := ((List.range 6).map (phCount r)).foldl (· * ·) 1

/-- The place of a value in its field's direction, and back. -/
def turned (r : BitVec 1024) (k i : Nat) : Nat := if phDown r k then phCount r k - 1 - i else i

/-- The six field values of a walk ordinal. -/
def walkFields (r : BitVec 1024) (n : Nat) : List Nat :=
  ((nesting r).foldl (fun (x : Nat × List Nat) k =>
    (x.1 / phCount r k, setAt x.2 k (turned r k (x.1 % phCount r k)))) (n, List.replicate 6 0)).2

/-- The walk ordinal of a work identifier; none where it is no point of the walk. -/
def walkOrdinal (h : BitVec 512) (r : BitVec 1024) (wid : DWord) : Option Nat :=
  let f := fieldsOf h wid
  if widOf h f = wid && (List.range 6).all fun k => f.getD k 0 < phCount r k then
    some ((nesting r).foldr (fun k x => x * phCount r k + turned r k (f.getD k 0)) 0)
  else none

/-! ### Launches -/

/-- The record of a phase. -/
def Launch.record (l : Launch) (p : Nat) : BitVec 1024 := l.phases.getD p 0

/-- The records that a continuation walk of a phase enumerates. -/
def Launch.walkOf (l : Launch) (p : Nat) : List ContRec :=
  match l.walkConts.find? (·.1 = p) with
  | some x => x.2.1
  | none => []

/-- The work identifier of a walk ordinal of a phase, and the payload of its record (R33). -/
def Launch.widAt (l : Launch) (p n : Nat) : DWord :=
  if phCont (l.record p) then ((l.walkOf p)[n]?.map (·.wid)).getD 0 else widOf l.hdr (walkFields (l.record p) n)

/-- Tasks of a phase that has started. -/
def Launch.size (l : Launch) (p : Nat) : Nat := l.sizes.getD p 0

/-- Commits of a phase. -/
def Launch.committed (l : Launch) (p : Nat) : Nat := (l.commits.filter (·.1 = p)).length

/-- Every task of a phase that has started has committed. -/
def Launch.phaseDone (l : Launch) (p : Nat) : Bool := p < l.sizes.length && l.committed p = l.size p

/-- The boundary after a phase is OVERLAP; determinism mode makes each FULL (R36). -/
def Launch.overlaps (l : Launch) (p : Nat) : Bool := phOverlap (l.record p) && !hdrDet l.hdr

/-- A timed task's start cycle; none for an untimed one (R27, R347). -/
def Launch.timed (l : Launch) (n : Nat) : Option Nat :=
  let r := l.record l.phase
  if phFree r || phCont r || phOfftab r = 0 then none
  else some (l.base + l.delta + (l.offs.getD l.phase []).getD n 0)

/-! ### Groups (R355, R356) -/

/-- A descriptor is valid. -/
def groupOk (d : DWord) : Bool :=
  let w := bits d.toNat 0 5 + 1
  let h := bits d.toNat 5 5 + 1
  let (rows, cols) := if d.getLsbD 12 then (w, h) else (h, w)
  d.msb && bits d.toNat 22 41 = 0 && bits d.toNat 13 4 + rows ≤ 16 && bits d.toNat 17 5 + cols ≤ 32

/-- Width and height of a group, and its number of cores. -/
def groupW (d : DWord) : Nat := bits d.toNat 0 5 + 1
def groupH (d : DWord) : Nat := bits d.toNat 5 5 + 1
def groupN (d : DWord) : Nat := groupW d * groupH d

/-- The physical core of a logical core. -/
def physical (d : DWord) (n : Nat) : Nat :=
  let w := groupW d
  let x := n % w
  let y := n / w
  let x := if d.getLsbD 10 then w - 1 - x else x
  let y := if d.getLsbD 11 then groupH d - 1 - y else y
  let (row, col) := if d.getLsbD 12 then (x, y) else (y, x)
  32 * (bits d.toNat 13 4 + row) + (bits d.toNat 17 5 + col)

/-- The physical cores of a group. -/
def groupCores (d : DWord) : List Nat := (List.range (groupN d)).map (physical d)

/-- A group of a context; DECLARED where nothing is recorded. -/
def Context.group (c : Context) (g : Nat) : Group := Sparse.get {} c.groups g

/-- Replaces a context. -/
def State.setCtx (s : State) (id : Nat) (c : Context) : State := { s with ctxs := Sparse.put s.ctxs id c }

/-- A group of a context by number. -/
def State.group (s : State) (ctx g : Nat) : Group := match s.ctx? ctx with | some c => c.group g | none => {}

/-- Replaces a group. -/
def State.setGroup (s : State) (ctx g : Nat) (x : Group) : State :=
  match s.ctx? ctx with
  | some c => s.setCtx ctx { c with groups := Sparse.put c.groups g x }
  | none => s

/-- The descriptor that binds a launch's group. -/
def State.binding (s : State) (l : Launch) : DWord := (s.group l.ctx l.group).desc

/-- A core of a lost shed. -/
def State.coreLost (s : State) (p : Nat) : Bool := bit s.lost.toNat (shedOf p)

/-! ### The commit bitmap (R348) -/

/-- The first byte of the plane of a phase. -/
def State.commitPlane (s : State) (l : Launch) (p : Nat) : Nat :=
  match s.ctx? l.ctx with
  | some c => c.cbm + p % 8 * 2 ^ 21
  | none => 0

/-- Clears the plane: its bytes become zero, which is what an unlisted byte reads as, and whole lines are written, so no
mark of poison or scrub stays (R257, R393). -/
def State.clearPlane (s : State) (l : Launch) (p : Nat) : State :=
  let a := s.commitPlane l p
  let inside := fun (x : Nat) => a ≤ x && x < a + 2 ^ 21
  if !inYard a then s
  else { s with
    mem := s.mem.filter fun e => !inside e.1
    poison := s.poison.filter fun x => !inside (x * 256)
    tags := (List.range 64).foldl (fun m i =>
      let t := Sparse.get {} m (a / 32768 + i)
      Sparse.set {} m (a / 32768 + i) { t with scrub := 0 }) s.tags }

/-- A task's commit bit. -/
def State.commitBit (s : State) (l : Launch) (p n : Nat) : Bool :=
  bit (s.readNat (s.commitPlane l p + n / 8) 1) (n % 8)

/-- Sets or clears it. -/
def State.setCommitBit (s : State) (l : Launch) (p n : Nat) (v : Bool) : State :=
  let a := s.commitPlane l p + n / 8
  if !inYard a then s
  else
    let old := s.readNat a 1
    let b := 2 ^ (n % 8)
    s.writeBytes a [BitVec.ofNat 8 (if bit old (n % 8) = v then old else if v then old + b else old - b)]

/-- The tasks of a phase that a predecessor's identifier names. A continuation walk's tasks are looked up by their identifiers, and one
that its records do not name counts as committed (DEDUCED, log 21). -/
def Launch.named (l : Launch) (p : Nat) (wid : DWord) : List Nat :=
  if phCont (l.record p) then (List.range (l.size p)).filter fun n => l.widAt p n = wid
  else (walkOrdinal l.hdr (l.record p) wid).toList

/-- A predecessor of a task counts as committed (R29): its phase has none of that identifier, or its commit bit is set. -/
def State.predCommitted (s : State) (l : Launch) (p : Nat) (wid : DWord) : Bool :=
  (l.named p wid).all fun n => s.commitBit l p n

/-- Every predecessor of a task of the running phase has committed. In determinism mode there are none (R36). -/
def State.predsCommitted (s : State) (l : Launch) (n : Nat) : Bool :=
  let r := l.record l.phase
  hdrDet l.hdr || (List.range (phPreds r)).all fun i =>
    phDist r i ≤ l.phase && s.predCommitted l (l.phase - phDist r i) (l.widAt l.phase n + phDelta r i)

/-- A predecessor's commit bit that the walker reads for a task lies in a poisoned line (R393): the first such line. -/
def State.predPoison (s : State) (l : Launch) (n : Nat) : Option Nat :=
  let r := l.record l.phase
  if hdrDet l.hdr then none
  else (List.range (phPreds r)).findSome? fun i =>
    if l.phase < phDist r i then none
    else
      let p := l.phase - phDist r i
      ((l.named p (l.widAt l.phase n + phDelta r i)).map fun k => s.commitPlane l p + k / 8).find? s.poisoned

/-! ### Accesses outside the cores' streams -/

/-- Where an access leads: an address and its ordering kind, a wait for a block, a granule or a link, or a failure with what is
logged of it. -/
inductive Reach where
  | at (pa : Nat) (kind : BitVec 2)
  | wait
  | fail (c : Cause) (log : Option LogRec)
  deriving DecidableEq, Repr

/-- Logs what a port, controller or layout unit refuses to a requester (R392); an uncorrectable error in a table of a context
destroys the context (R364). -/
def State.logRefused (s : State) (c : Cause) (l : Option LogRec) (ctx rqk rqi : Nat) : State :=
  match l with
  | some l => (if l.table then s.tableError ctx else s).logError l.unit c.code l.rsn ctx rqk rqi l.addr
  | none => s

/-- The last check, at the controller of an address (R117, R378, R399); `addr` is what a log keeps. -/
def State.reachPa (s : State) (acc : Acc) (pa : Nat) (kind : BitVec 2) (addr : DWord) : Reach :=
  let u := s.unitOf pa
  let store := acc = .store || acc = .amo
  if (s.peer? pa).isSome then .at pa kind
  else match s.farState pa with
    | .wait => .wait
    | .fail c => .fail c (some ⟨u, if c = .accessViolation then 0x03 else 0, addr, false⟩)
    | .ok =>
      if s.lineLocked pa then .wait
      else if store && s.tableFrame pa then .fail .accessViolation (some ⟨u, 0x05, addr, false⟩)
      else if store && s.pinned pa then .fail .accessViolation (some ⟨u, 0x06, addr, false⟩)
      else .at pa kind

/-- A translation by a TLB, else by a walk of the tables (R379). -/
def State.translate (s : State) (tlb : List TlbEntry) (asid root : Nat) (va : DWord) : Walked :=
  match tlb.find? (·.covers asid va) with
  | some e => .leaf e.level e.pte
  | none => s.walk root va

/-- The layout-table index and tile-table entry of a window access; or what refuses it (R377). -/
def State.windowTile (s : State) (ctx : Option Context) (unit : Nat) (pte va : DWord) : Reach ⊕ Nat :=
  match ctx with
  | none => .inl (.fail .accessViolation (some ⟨unit, 0x01, va, false⟩))
  | some c =>
    let (i, b, _) := windowPlace pte va
    let x := s.layRaw c i
    let l := Lay.of x
    if i < c.nlt && s.poisoned (c.ltab + 32 * i) then .inl (.fail .uncorrectable (some ⟨unit, 0x08, va, true⟩))
    else if c.nlt ≤ i || 14 ≤ l.fmt || !l.ok x || l.nblkm1 < b then .inl (.fail .accessViolation (some ⟨unit, 0x01, va, false⟩))
    else .inr (l.entry b)

/-- The entry of a block as a tile cache holds it, else from the table. -/
def State.cachedTile (s : State) (cache : List (Nat × BitVec 128)) (ea : Nat) : BitVec 128 :=
  match cache.find? (·.1 = ea) with
  | some r => r.2
  | none => s.tileEntry ea

/-- The access of an agent other than a core's stream by a virtual address (R375-R378), in the order of R117 after alignment, with
its translation and a tile cache; `unit` logs what its layout unit refuses. -/
def State.reach (s : State) (acc : Acc) (w : Walked) (cache : List (Nat × BitVec 128)) (ctx : Option Context) (unit : Nat)
    (va : DWord) : Reach :=
  if !canonical va then .fail .accessViolation none
  else match w with
    | .fault => .fail .pageFault none
    | .wait => .wait
    | .fail c pa =>
      let rsn := if c = .uncorrectable then 0x08 else if c = .accessViolation then 0x03 else 0
      .fail c (some ⟨s.unitOf pa, rsn, BitVec.ofNat 64 pa, c = .uncorrectable⟩)
    | .leaf level pte =>
      if !pteAllows acc pte then .fail .pageFault none
      else if pteKind pte = 3 then .fail .accessViolation (some ⟨unit, 0x04, va, false⟩)
      else if pteWindow pte then
        match s.windowTile ctx unit pte va with
        | .inl r => r
        | .inr ea =>
          let e := s.cachedTile cache ea
          if s.poisoned ea then .fail .uncorrectable (some ⟨s.unitOf ea, 0x08, BitVec.ofNat 64 ea, true⟩)
          else if !tileOk e then .fail .tileFault none
          else match s.spot ea e (windowPlace pte va).2.2 with
            | none => .wait
            | some pa => s.reachPa acc pa (pteKind pte) va
      else s.reachPa acc (leafAddr level pte va) (pteKind pte) va

/-- Where an access of core `p` in a context leads now, through the translation caches of the core and its shed, outside an instruction:
its level, window bit and place. -/
def State.reachOf (s : State) (p : Nat) (acc : Acc) (x : Context) (va : DWord) : Reach :=
  let k := (s.cr p).lookups
  s.reach acc (s.translate (k.tlb ++ Sparse.get [] s.shedTlbs (shedOf p)) x.asid x.root va) (k.tiles.getD 3 []) (some x) (4 * p + 3) va

/-- The page at an address of a context is a tensor window. -/
def State.windowAt (s : State) (p : Nat) (x : Context) (va : DWord) : Bool :=
  match s.translate ((s.cr p).lookups.tlb ++ Sparse.get [] s.shedTlbs (shedOf p)) x.asid x.root va with
  | .leaf _ pte => pteWindow pte
  | _ => false

/-- What a walker or a unit reads: bytes, a wait, or a failure. -/
inductive VaRead where
  | data (bs : List Byte)
  | wait
  | fail
  deriving DecidableEq, Repr

/-- A shed's TLB keeps what its walker has walked (R379). -/
def State.fillShed (s : State) (shed asid : Nat) (va : DWord) (w : Walked) : State :=
  let tlb := Sparse.get [] s.shedTlbs shed
  match w with
  | .leaf level pte =>
    if (tlb.find? (·.covers asid va)).isSome || !pteAllows .load pte then s
    else
      let e : TlbEntry := ⟨asid, bits va.toNat 0 57 >>> (12 + 9 * level), level, pte⟩
      { s with shedTlbs := Sparse.set [] s.shedTlbs shed (fillTlb 2048 e tlb) }
  | _ => s

/-- What the control region logs of a walker's read, which is none that it serves (R410; DEDUCED, log 24). -/
def ctlReadRsn (va : DWord) (pa n : Nat) : Nat :=
  if n ≠ 8 || va.toNat % 8 ≠ 0 then 0x0A else if (ctlReg pa).isNone then 0x0B else 0x03

/-- Reads `n` bytes within one line at a virtual address of context `id`, for the walker, through the TLB of a shed, which keeps a
translation that has been walked (R351, R379; which shed's: DESIGN CHOICE, log 95). Poison, the control region and a peer's window are
failures (DEDUCED, log 24); what refuses the read logs it as the yardmaster's (R392, R410). -/
def State.readVa (s : State) (shed id : Nat) (c : Context) (va : DWord) (n : Nat) : VaRead × State :=
  let fails := fun (s : State) (k : Cause) (l : Option LogRec) => (VaRead.fail, s.logRefused k l id 5 (s.primary - 512))
  let w := s.translate (Sparse.get [] s.shedTlbs shed) c.asid c.root va
  match s.reach .load w [] (some c) 2094 va with
  | .wait => (.wait, s)
  | .fail k l => fails s k l
  | .at pa _ =>
    let s := s.fillShed shed c.asid va w
    if (s.peer? pa).isSome then (.fail, s)
    else if place pa = .control then fails s .accessViolation (some ⟨2094, ctlReadRsn va pa n, va, false⟩)
    else if s.poisoned pa then fails s .uncorrectable (some ⟨s.unitOf pa, 0x08, va, false⟩)
    else (.data (s.readBytes pa n), s)

end Sys2Proof.Machine
end

