-- ==== Sys2Proof/Machine/Atomics.lean ====
section
/-! DEFINITION. The atomics of stream C and of the yardmasters (R119, R120), the deterministic rounds (R121-R123, R312,
R394), and the group barriers (R141, R339). -/

namespace Sys2Proof.Machine

/-! ### The atomics -/

/-- The width in bits of a `SIZE` (R119). -/
def amoWidth (size : BitVec 2) : Nat := 16 * 2 ^ size.toNat

/-- The memory value after an atomic (R120): `m` the old value, `b` the operand, `cmp` the old s[d] of a CAS, all of `w`
bits. -/
def AmoOp.apply (op : AmoOp) (w m b cmp : Nat) : Nat :=
  match op with
  | .add => (m + b) % 2 ^ w
  | .and => m &&& b
  | .or => m ||| b
  | .xor => m ^^^ b
  | .min => if toSigned w b < toSigned w m then b else m
  | .max => if toSigned w m < toSigned w b then b else m
  | .swp => b
  | .cas => if m = cmp then b else m
  | .addd | .null => m

/-- The value that s[d] receives: the old value, of 32 bits sign-extended (R120). -/
def amoResult (w m : Nat) : DWord := BitVec.ofNat 64 (if w = 32 then ofSigned 64 (toSigned 32 m) else m)

/-- An atomic of a round kind: true for R122's. -/
def AmoOp.kind : AmoOp → Bool
  | .addd | .null => false
  | _ => true

/-- Whether the acting task runs an atomic in a round: ADDD and NULL always (R121), the others in determinism mode
(R122). -/
def State.inRound (s : State) (op : AmoOp) : Bool :=
  s.me.task.isSome && (!op.kind || match s.myLaunch with | some l => hdrDet l.hdr | none => false)

/-- Counts a round request of a kind at an address: its number, and the counts after it. -/
def countRound (k : Bool) (va : Nat) (xs : List (Bool × Nat × Nat)) : Nat × List (Bool × Nat × Nat) :=
  match xs.find? fun x => x.1 = k && x.2.1 = va with
  | some x => (x.2.2, xs.map fun y => if y.1 = k && y.2.1 = va then (k, va, x.2.2 + 1) else y)
  | none => (0, xs ++ [(k, va, 1)])

/-- An atomic (R119-R122): the checks of R117, then the request is in flight and its register pending. The control region
takes loads and stores only (R409), and the protocol of R403 has no atomic for a peer (DEDUCED, log 25). The operand data of its
digest record (R37) is s[b]: AMO.NULL has none and folds no record, and the compare value of AMO.CAS does not fold (DESIGN
CHOICE, log 96). -/
def atomic (i : Instr) (w : BitVec 2) (op : AmoOp) (d a b : BitVec 5) (stm : BitVec 3) (scope size : BitVec 2) (s : State) :
    Host.Outcome State Fault Refusal :=
  run i w (do
    let va ← readS a
    let x ← if op = .null then pure 0 else readS b
    let cmp ← if op = .cas then readS d else pure 0
    let n := amoWidth size
    let t ← resolve .amo va (n / 8)
    let s ← get
    if place t.pa = .control then refuse .accessViolation va 2094 0x0A
    if (s.peer? t.pa).isSome then refuse .accessViolation va (s.unitOf t.pa) 0x03
    let seq ← nextSeq
    modify fun s =>
      let (m, s) := s.delay
      let round := s.inRound op
      let c := s.me.kill (.s d)
      let (k, counts) := countRound op.kind va.toNat c.roundCounts
      let c := if op = .null then c else c.foldC false va (valBytes (n / 8) x.toNat)
      let r : AmoReq :=
        { op := op, dst := if d = 0 then none else some d, va := va, pa := t.pa, width := n,
          b := BitVec.ofNat 64 (x.toNat % 2 ^ n), cmp := BitVec.ofNat 64 (cmp.toNat % 2 ^ n), stm := stm, scope := scope,
          kind := t.kind, seq := seq, due := s.now + m, round := if round then some k else none, issued := c.clk
          level := t.level, win := t.win }
      s.setMe { c with amos := c.amos ++ [r], roundCounts := if round then counts else c.roundCounts }) s

/-- AMO.ADD (R120). -/
def execAmoAdd (w : BitVec 2) (d a b : BitVec 5) (stm : BitVec 3) (scope size : BitVec 2) (s : State) :
    Host.Outcome State Fault Refusal := atomic (.amoAdd w d a b stm scope size) w .add d a b stm scope size s

/-- AMO.AND (R120). -/
def execAmoAnd (w : BitVec 2) (d a b : BitVec 5) (stm : BitVec 3) (scope size : BitVec 2) (s : State) :
    Host.Outcome State Fault Refusal := atomic (.amoAnd w d a b stm scope size) w .and d a b stm scope size s

/-- AMO.OR (R120). -/
def execAmoOr (w : BitVec 2) (d a b : BitVec 5) (stm : BitVec 3) (scope size : BitVec 2) (s : State) :
    Host.Outcome State Fault Refusal := atomic (.amoOr w d a b stm scope size) w .or d a b stm scope size s

/-- AMO.XOR (R120). -/
def execAmoXor (w : BitVec 2) (d a b : BitVec 5) (stm : BitVec 3) (scope size : BitVec 2) (s : State) :
    Host.Outcome State Fault Refusal := atomic (.amoXor w d a b stm scope size) w .xor d a b stm scope size s

/-- AMO.MIN (R120). -/
def execAmoMin (w : BitVec 2) (d a b : BitVec 5) (stm : BitVec 3) (scope size : BitVec 2) (s : State) :
    Host.Outcome State Fault Refusal := atomic (.amoMin w d a b stm scope size) w .min d a b stm scope size s

/-- AMO.MAX (R120). -/
def execAmoMax (w : BitVec 2) (d a b : BitVec 5) (stm : BitVec 3) (scope size : BitVec 2) (s : State) :
    Host.Outcome State Fault Refusal := atomic (.amoMax w d a b stm scope size) w .max d a b stm scope size s

/-- AMO.SWP (R120). -/
def execAmoSwp (w : BitVec 2) (d a b : BitVec 5) (stm : BitVec 3) (scope size : BitVec 2) (s : State) :
    Host.Outcome State Fault Refusal := atomic (.amoSwp w d a b stm scope size) w .swp d a b stm scope size s

/-- AMO.CAS (R120). -/
def execAmoCas (w : BitVec 2) (d a b : BitVec 5) (stm : BitVec 3) (scope size : BitVec 2) (s : State) :
    Host.Outcome State Fault Refusal := atomic (.amoCas w d a b stm scope size) w .cas d a b stm scope size s

/-- AMO.ADDD (R121). -/
def execAmoAddd (w : BitVec 2) (d a b : BitVec 5) (stm : BitVec 3) (scope size : BitVec 2) (s : State) :
    Host.Outcome State Fault Refusal := atomic (.amoAddd w d a b stm scope size) w .addd d a b stm scope size s

/-- AMO.NULL (R121). -/
def execAmoNull (w : BitVec 2) (d a : BitVec 5) (stm : BitVec 3) (scope size : BitVec 2) (s : State) :
    Host.Outcome State Fault Refusal := atomic (.amoNull w d a stm scope size) w .null d a 0 stm scope size s

/-! ### Results -/

/-- The position at which C takes an exception that comes with a reply (R121, R393). -/
def State.positionC (s : State) (p : Nat) : DWord := s.position p .c (s.cr p).c.lane

/-- A reply's exception on C: it stops before the instruction at its position; on a yardmaster it traps there. -/
def State.replyTrap (s : State) (p : Nat) (c : Cause) (va : DWord) : State :=
  if isYard p then s.yardTrap p (s.positionC p) (BitVec.ofNat 64 c.code) va else s.trapAt p .c (s.positionC p) c va

/-- An atomic is forgotten. -/
def Core.dropAmo (c : Core) (r : AmoReq) : Core :=
  { c with amos := c.amos.filter fun y => !(y.seq = r.seq && y.late = r.late) }

/-- Writes the result of an atomic and forgets it. -/
def Core.amoDone (c : Core) (r : AmoReq) (v : DWord) : Core :=
  let c := c.dropAmo r
  (match r.dst with | some d => c.putS d v | none => c).dropFences

/-- The result of an atomic that has left its core together with its task is kept, if the task is still to be gone on with. -/
def State.keepLate (s : State) (r : AmoReq) (v : DWord) (c : Option Cause) : State :=
  match r.late with
  | .sent t => if s.taskLives t || s.cores.any (·.2.task = some t) then { s with lateAmos := s.lateAmos ++ [⟨t, r.seq, v, c⟩] } else s
  | _ => s

/-- An atomic fails with its reply: the present task's takes the exception and is performed again after THAW (R393); that of one that the
core no longer holds is lost, or kept with the task. -/
def State.failAmo (s : State) (p : Nat) (r : AmoReq) (k : Cause) : State :=
  let c := s.cr p
  let s := s.logFail p k r.pa r.va
  if c.ownAmo r && r.gone.isNone then
    let failed := fun (y : AmoReq) => if y.seq = r.seq && y.late = r.late then { y with failed := true } else y
    (s.setCr p { s.cr p with amos := c.amos.map failed }).replyTrap p k r.va
  else (s.setCr p ((s.cr p).dropAmo r)).keepLate r 0 (some k)

/-- A round request of a task, and its recorded answer. -/
def RoundReq.same (x y : RoundReq) : Bool :=
  x.launch = y.launch && x.phase = y.phase && x.kind = y.kind && x.va = y.va && x.round = y.round
def RoundReq.answered (x : RoundReq) (y : RoundDone) : Bool :=
  x.launch = y.launch && x.phase = y.phase && x.kind = y.kind && x.va = y.va && x.round = y.round && x.ordinal = y.ordinal

/-- The request of an atomic of a task at its round unit. -/
def AmoReq.request (r : AmoReq) (t : TaskId) (p n : Nat) : RoundReq :=
  { launch := t.launch, phase := t.phase, kind := r.op.kind, va := r.va, round := n, ordinal := t.ordinal, core := p,
    seq := r.seq, op := r.op, width := r.width, b := r.b, cmp := r.cmp }

/-- The turn of port 3 that a store or an atomic of core `p` in a near store takes first: the request, or a wait for it; none once it
is served, or elsewhere (R11). -/
def State.nearTurn (s : State) (p pa seq : Nat) (served : Bool) : Option (Option State) :=
  match place pa with
  | .near q _ =>
    if served then none
    else if s.waitsPort3 (.store p seq) then some none
    else some (some (s.askPort3 q (portClass p q) (.store p seq) s.now 1 0))
  | _ => none

/-- An atomic of a core that is due goes on: outside a round it acts on memory; in a round it is sent to the unit, or
receives what the unit has answered. A poisoned word outside a round is taken as for a load (R393). -/
def State.amoStep (s : State) (p : Nat) (r : AmoReq) : Option State :=
  let c := s.cr p
  match r.late with
  | .awaited t => (s.lateAmos.find? fun x => x.task = t && x.seq = r.seq).map fun x =>
    let s := { s with lateAmos := s.lateAmos.erase x }
    match x.cause with
    | none => s.setCr p (c.amoDone r x.value)
    | some k =>
      let again := fun (y : AmoReq) => if y.seq = r.seq && y.late = r.late then { y with late := .here, failed := true } else y
      (s.setCr p { c with amos := c.amos.map again }).replyTrap p k r.va
  | _ =>
  match r.round, c.task with
  | some n, some t =>
    let q := r.request t p n
    match s.roundsDone.find? q.answered with
    | some x =>
      let s := s.setCr p (c.amoDone r x.value)
      match x.cause with
      | some k => some (s.replyTrap p k r.va)
      | none => some s
    | none =>
      if s.rounds.any fun y => y.same q && y.ordinal = t.ordinal then none
      else if c.free r.access then some { s with rounds := s.rounds ++ [q] }
      else none
  | _, _ =>
    if r.failed || !c.free r.access || s.lineLocked r.pa then none
    else if s.poisoned r.pa then some (s.failAmo p r .uncorrectable)
    else match s.farLink r.pa with
      | .wait => none
      | .fail k => some (s.failAmo p r k)
      | .ok => match s.nearTurn p r.pa r.seq r.served with
      | some t => t
      | none =>
        let m := s.readNat r.pa (r.width / 8)
        let s := (s.setCr p (c.amoDone r (amoResult r.width m))).keepLate r (amoResult r.width m) none
        some (s.writeBytes r.pa (valBytes (r.width / 8) (r.op.apply r.width m r.b.toNat r.cmp.toNat)))

/-- The effect of AMO_RESULT_RETURN: the first atomic that is due and can go on. -/
def amoEff (s : State) (p : Nat) : Option State :=
  ((s.cr p).amos.filter (·.due ≤ s.now)).findSome? fun r => s.amoStep p r

/-! ### Rounds -/

/-- Every task of the phase has sent its request to the round or has committed; in a serialised re-run every other task
counts as AMO.NULL (R38). -/
def State.roundFull (s : State) (q : RoundReq) : Bool :=
  match s.launch? q.launch with
  | none => false
  | some l => l.rerun || (List.range (l.size q.phase)).all fun n =>
      (s.rounds.any fun y => y.same q && y.ordinal = n) || l.commits.any fun k => k.1 = q.phase && k.2.1 = n

/-- The word of a request in the bytes from its address, and those bytes with another word there: each request of a round acts at its
own width (R120, R121, R122). -/
def RoundReq.word (r : RoundReq) (m : Nat) : Nat := m % 2 ^ r.width
def RoundReq.put (r : RoundReq) (m v : Nat) : Nat := m - r.word m + v

/-- The prefixes of a round of R121 in ascending walk ordinal, the bytes after it and the overflow mark. -/
def roundAdd : List RoundReq → Nat → Bool → List (Nat × DWord) × Nat × Bool
  | [], m, o => ([], m, o)
  | r :: rs, m, o =>
    let p := r.word m
    let sum := p + if r.op = .null then 0 else r.b.toNat
    let sat := 2 ^ r.width ≤ sum
    let (xs, v, o) := roundAdd rs (r.put m (if sat then 2 ^ r.width - 1 else sum)) (o || sat)
    ((r.ordinal, BitVec.ofNat 64 p) :: xs, v, o)

/-- The values of a round of R122, each request applied in turn by R120. -/
def roundApply : List RoundReq → Nat → List (Nat × DWord) × Nat
  | [], m => ([], m)
  | r :: rs, m =>
    let p := r.word m
    let (xs, v) := roundApply rs (r.put m (r.op.apply r.width p r.b.toNat r.cmp.toNat))
    ((r.ordinal, amoResult r.width p) :: xs, v)

/-- The answer of a round to each task that sent a request. -/
def answer (q : RoundReq) (x : Nat × DWord) (c : Option Cause) : RoundDone :=
  ⟨q.launch, q.phase, q.kind, q.va, q.round, x.1, x.2, c⟩

/-- Where the word of a round stands now. -/
def State.roundPlace (s : State) (q : RoundReq) : Reach :=
  match s.launch? q.launch with
  | some l => match s.ctx? l.ctx with
    | some c => s.reachOf q.core .amo c q.va
    | none => .fail .accessViolation none
  | none => .fail .accessViolation none

/-- The effect of ROUND_CLOSE on the round of request `i`. A poisoned word answers with 0 and UNCORRECTABLE; one that is no
longer reached with the exception and a value that the spec does not state (DESIGN CHOICE, log 39). -/
def roundEff (s : State) (i : Nat) : Option State :=
  match s.rounds[i]? with
  | none => none
  | some q =>
    if !s.roundFull q then none
    else
      let rs := sortBy (·.ordinal) (s.rounds.filter (·.same q))
      let rest := s.rounds.filter fun y => !y.same q
      let w := (rs.map (·.width)).foldl max q.width
      let fails := fun (c : Cause) (l : Option LogRec) =>
        let v := if c = .uncorrectable then 0 else Config.roundAnswer s.choices
        let ctx := match s.launch? q.launch with | some l => l.ctx | none => 0
        { s.logRefused c l ctx 0 q.core with
          rounds := rest, roundsDone := s.roundsDone ++ rs.map fun r => answer q (r.ordinal, v) (some c)
          choices := s.choices + 1 }
      match s.roundPlace q with
      | .wait => none
      | .fail c l => some (fails c l)
      | .at pa _ =>
        if s.poisoned pa then some (fails .uncorrectable (some ⟨s.unitOf pa, 0x08, q.va, false⟩))
        else
          let m := s.readNat pa (w / 8)
          let (xs, v, o) := if q.kind then let (xs, v) := roundApply rs m; (xs, v, false) else roundAdd rs m false
          let xs := xs.map fun x => if o then (x.1, x.2 ||| (1#64 <<< 63)) else x
          let c := if o then some Cause.routeOverflow else none
          let s := s.writeBytes pa (valBytes (w / 8) v)
          some { s with rounds := rest, roundsDone := s.roundsDone ++ xs.map fun x => answer q x c }

/-! ### Group barriers -/

/-- The word of a group barrier lies in yard memory (R141). -/
def barrierWord (acc : Acc) (va : DWord) : Act Target := do
  let t ← resolve acc va 8
  let s ← get
  if !inYard t.pa then refuse .accessViolation va (s.unitOf t.pa) 0x03
  return t

/-- BAR ARV of a group barrier: the arrival leaves the core, releasing. -/
def execBarArvGroup (w : BitVec 2) (a : BitVec 5) (s : State) : Host.Outcome State Fault Refusal :=
  run (.barArvGroup w a) w (do
    let va ← readS a
    let t ← barrierWord .amo va
    let pos ← here
    let seq ← nextSeq
    modify fun s =>
      let (n, s) := s.delay
      let x : GbArrive := { va := va, pa := t.pa, due := s.now + n, pos := pos, seq := seq, level := t.level, win := t.win }
      s.setMe { s.me with gbArrives := s.me.gbArrives ++ [x] }) s

/-- BAR WAIT of a group barrier: it proceeds on a read of the word whose phase differs from `PH`. -/
def execBarWaitGroup (w : BitVec 2) (a : BitVec 5) (ph : BitVec 1) (s : State) : Host.Outcome State Fault Refusal :=
  run (.barWaitGroup w a ph) w (do
    let va ← readS a
    let t ← barrierWord .load va
    let s ← get
    let poll := wait (.object 4 0) (some (.poll va t.pa t.win))
    let mine := fun (g : GbPoll) => g.lane = s.laneNo && g.va = va
    match (s.me.gbPolls.find? mine).bind (·.reply) with
    | some v =>
      if s.poisoned t.pa then refuse .uncorrectable va (s.unitOf t.pa) 0x08
      else if v.getLsbD 32 = (ph = 1) then poll
      else modCore fun c => { c with gbPolls := c.gbPolls.filter (!mine ·) }
    | none => poll) s

/-- A barrier word that R141 allows. -/
def barrierOk (v : Nat) : Bool := bits v 33 31 = 0 && bits v 0 16 ≠ 0 && bits v 16 16 < bits v 0 16

/-- One arrival at a barrier word (R339). -/
def barrierArrive (v : Nat) : Nat :=
  if bits v 16 16 + 1 = bits v 0 16 then (if bit v 32 then 0 else 2 ^ 32) + bits v 0 16 else v + 2 ^ 16

/-- The effect of GROUP_BARRIER_UPDATE: the first arrival that is due and that nothing holds back. A malformed word stays as
it is and is reported, and so is a poisoned one. -/
def barrierEff (s : State) (p : Nat) : Option State :=
  let c := s.cr p
  match c.gbArrives.find? fun x => x.due ≤ s.now && c.free x.access && !s.lineLocked x.pa with
  | none => none
  | some x =>
    let s := s.setCr p { c with gbArrives := c.gbArrives.filter (·.seq ≠ x.seq) }.dropFences
    let v := s.readNat x.pa 8
    let task := if c.counts x.seq x.gone then c.task else x.gone
    let fails := fun (s : State) (k : Cause) => match task with
      | some t => s.asyncTrap p 0 t x.pos k x.va
      | none => s
    if s.poisoned x.pa then some (fails (s.logFail p .uncorrectable x.pa x.va) .uncorrectable)
    else if barrierOk v then some (s.writeDw x.pa (BitVec.ofNat 64 (barrierArrive v)))
    else some (fails s .accessViolation)

/-- The read of a WAIT as a load of the core after every access that has issued. -/
def Core.pollLoad (c : Core) (g : GbPoll) : LinLoad :=
  { dst := none, va := g.va, pa := g.pa, size := 8, signed := false, kind := 0, seq := c.seq, due := g.due, issued := c.clk }

/-- The effect of GROUP_BARRIER_POLL_REPLY: each read is a load of the word, which sees the core's own earlier stores. -/
def pollEff (s : State) (p : Nat) : Option State :=
  let c := s.cr p
  match c.gbPolls.find? fun g => g.reply.isNone && g.due ≤ s.now && c.free (c.pollLoad g).access with
  | none => none
  | some g =>
    let v := loadValue 8 false (s.loadBytes p (c.pollLoad g))
    some (s.setCr p { c with gbPolls := c.gbPolls.map fun x => if x = g then { x with reply := some v } else x })

/-! ### The steps -/

/-- AMO_RESULT_RETURN (R120). -/
def execAmoResultReturn (p : Nat) (s : State) : Host.Outcome State Fault Refusal := event (amoEff s p) s

/-- ROUND_CLOSE (R121). -/
def execRoundClose (i : Nat) (s : State) : Host.Outcome State Fault Refusal := event (roundEff s i) s

/-- GROUP_BARRIER_UPDATE (R339). -/
def execGroupBarrierUpdate (p : Nat) (s : State) : Host.Outcome State Fault Refusal := event (barrierEff s p) s

/-- GROUP_BARRIER_POLL_REPLY (R141). -/
def execGroupBarrierPollReply (p : Nat) (s : State) : Host.Outcome State Fault Refusal := event (pollEff s p) s

end Sys2Proof.Machine
end

