-- ==== Sys2Proof/Machine/Snapshot.lean ====
section
/-! DEFINITION. FREEZE and THAW of a core (R155, R366, R367), the snapshot words (R368-R371), the operations of word 1 (R372,
R373), and the yardmaster instructions that name a core (R155, R156). -/

namespace Sys2Proof.Machine

/-! ### Freeze and thaw -/

/-- Changes the groups of every context that hold a core. -/
def State.mapGroups (s : State) (p : Nat) (f : Nat → Nat → Group → Group) : State :=
  { s with ctxs := s.ctxs.map fun x => (x.1, { x.2 with
      groups := x.2.groups.map fun g =>
        (g.1, if (groupCores g.2.desc).contains p then f x.1 g.1 g.2 else g.2) }) }

/-- Every core of a group is stopped by FREEZE (R359). -/
def State.allFrozen (s : State) (g : Group) : Bool := (groupCores g.desc).all fun q => (s.cr q).freezeHeld

/-- A group whose every core is stopped by FREEZE is FROZEN. With one that is not it is RUNNING (R359, R360), but for a level-3
pre-emption whose launch is still ACCEPTING, and BOUND where its launch was aborted while it was FROZEN (DEDUCED, log 97). -/
def State.regroup (s : State) (p : Nat) : State :=
  s.mapGroups p fun ctx n g =>
    let all := s.allFrozen g
    let with_ := fun (f : Launch → Bool) => s.launches.any fun l => l.ctx = ctx && l.group = n && f l
    let deep := !with_ (·.st = .running) && with_ fun l => l.st = .accepting && l.level = 3
    if g.st = .running && all then { g with st := .frozen }
    else if g.st = .frozen && !all && !deep then
      { g with st := if with_ fun l => l.st = .running || l.st = .accepting || l.st = .preempted then .running else .bound }
    else g

/-- FREEZE takes hold of a core. -/
def State.freezeCore (s : State) (p : Nat) : State :=
  (s.setCr p { s.cr p with freezeHeld := true }).regroup p

/-- The first of the increments and tokens held for the task of a core, which FREEZE does not stop, applies (R179, R340). A token whose
queue stands at 63 waits, and what follows it with it (R138). -/
def State.giveHeld (s : State) (p : Nat) : Option State :=
  let c := s.cr p
  let fits := fun (h : Held) => c.runsTask h.task && (h.sigt = 7 || (c.tokens.getD h.sigt.toNat []).length < 63)
  (s.held.find? fits).map fun h =>
    { s.setCr p (c.complete h.st h.seq h.sigt h.cnt h.inc h.err h.records) with held := s.held.erase h }

/-- Those that can apply do. -/
def State.applyHeld (s : State) (p : Nat) : State := s.held.foldl (fun s _ => (s.giveHeld p).getD s) s

/-- A trap stop ends: its stream is no longer halted, and issues again a JOIN at which it has stood (R343). -/
def Core.endStop (c : Core) (x : TrapStop) : Core :=
  match x.st with
  | some st => c.setSt st { c.st st with hlt := false, jn := none }
  | none => c

/-- A load of stream A is to be performed again: it looks up its blocks, whose entries a port may hold (R256), and a BFXCFG its record. -/
def State.againA (s : State) (p : Nat) (xs : List ALoad) : List ALoad × Nat :=
  xs.foldl (fun (r : List ALoad × Nat) l =>
    let lay := s.layOf p l.kind.where_.1
    let reqs := l.kind.requests lay
    let known := ((List.range reqs.length).zip reqs).all fun q =>
      q.2.all fun x => ((s.cr p).heldTile ((r.2 + q.1) % 2) (lay.entry x.1)).isSome
    (r.1 ++ [{ l with look := some (if known then s.now else s.now + 24, r.2 % 2), reads := [], got := [], failed := false }],
      r.2 + reqs.length)) ([], 0)

/-- The loads of a restored record are performed again, and read memory as it stands then (R110, R179, R331). -/
def State.reissue (s : State) (p : Nat) : Option State :=
  let c := s.cr p
  if !c.restored || c.frozen then none
  else some (s.setCr p { c with
    aloads := (s.againA p c.aloads).1, loads := c.loads.map fun l => { l with again := true, bound := none }, restored := false })

/-- The lines of a BFXCFG's record by its address (R164). -/
def recordLines (va : DWord) : List DWord :=
  let first := 256 - va.toNat % 256
  if first < 72 then [va, va + BitVec.ofNat 64 first] else [va]

/-- A restored BFXCFG looks up its record and reads it (R164, R179); none while a block, a granule or a link makes it wait. -/
def State.bfxAgain (s : State) (p : Nat) (ctx : Context) (l : ALoad) : Option State :=
  let put := fun (s : State) (xs : List ALoad) =>
    let c := s.cr p
    s.setCr p { c with aloads := c.aloads.flatMap fun y => if y.id = l.id then xs else [y] }
  match l.kind with
  | .bfx x va .. =>
    let rs := (recordLines va).map fun v => s.reachOf p .load ctx v
    match rs.findSome? fun r => match r with | .fail c log => some (c, log) | _ => none with
    | some (c, log) => some (((put s []).logRefused c log (s.cr p).ctxId 0 p).trapAt p .a l.pos c va)
    | none =>
      if rs.contains .wait then none
      else
        let pas := rs.filterMap fun r => match r with | .at pa _ => some pa | _ => none
        let (due, s) := pas.foldl (fun (r : Nat × State) pa =>
          if (r.2.peer? pa).isSome then r
          else
            let (d, s) := r.2.loadDue true p pa (.aload p l.id) s.now 1
            (max r.1 d, s)) (s.now, s)
        let kind := ALoadKind.bfx x va (pas.getD 0 0) (pas.getD 1 0) (s.windowAt p ctx va)
        some (put s [s.readParts p { l with kind := kind, due := due, reads := [s.now], got := [], look := none, failed := false }])
  | _ => none

/-- A load of C that is performed again looks up its address (R110); none while a block, a granule or a link makes it wait. -/
def State.linAgain (s : State) (p : Nat) (ctx : Context) (l : LinLoad) : Option State :=
  let put := fun (s : State) (l' : LinLoad) =>
    let c := s.cr p
    s.setCr p { c with loads := c.loads.map fun y => if y.seq = l.seq then l' else y }
  match s.reachOf p .load ctx l.va with
  | .wait => none
  | .fail c log => some (((put s { l with again := false, failed := true }).logRefused c log (s.cr p).ctxId 0 p).replyTrap p c l.va)
  | .at pa kind =>
    let (due, s) := s.loadDue true p pa (.load p l.seq) s.now 1
    some (put s { l with again := false, pa := pa, kind := kind, due := due, win := s.windowAt p ctx l.va, level := s.level pa })

/-- What a core that has been restored, or goes on after a fault, performs again: its loads first, then the lookups of those that have
an address of their own. -/
def State.performAgain (s : State) (p : Nat) : Option State :=
  s.reissue p <|>
  let c := s.cr p
  if c.restored || c.frozen then none
  else match s.ctx? c.ctxId with
  | none => none
  | some x =>
    ((c.aloads.filter fun l => l.look.isSome && (match l.kind with | .bfx .. => true | _ => false)).findSome? (s.bfxAgain p x)) <|>
    ((c.loads.filter (·.again)).findSome? (s.linAgain p x))

/-- THAW of a core (R155, R367): none of it without FREEZE. FREEZE and the trap stops whose records have been placed end,
replies that failed are asked for again, and so are the loads of a restored record. The core runs on from the next cycle, where a
yardmaster's instruction thaws it. -/
def State.thawCore (s : State) (p : Nat) : State :=
  let c := s.cr p
  if !c.freezeHeld then s
  else
    let c := (c.stops.filter (·.placed)).foldl Core.endStop c
    let c := { c with
      freezeHeld := false, freezeAsk := false, thawed := s.turn ≠ .start, snapWords := []
      stops := c.stops.filter (!·.placed)
      aloads := c.aloads.map fun l => if l.look.isSome then { l with failed := false } else l
      loads := c.loads.map fun l => { l with failed := false, again := l.again || l.failed }
      amos := c.amos.map fun a => { a with failed := false } }
    ((s.setCr p c).applyHeld p).regroup p

/-! ### Snapshot words -/

/-- Replaces 64-bit word `i` of a vector of bits. -/
def putWord {n : Nat} (x : BitVec n) (i : Nat) (v : DWord) : BitVec n :=
  (x &&& ~~~(BitVec.ofNat n (2 ^ 64 - 1) <<< (64 * i))) ||| (v.setWidth n <<< (64 * i))

/-- The stream of a snapshot index. -/
def streamAt (i : Nat) : Stream := allStreams.getD i .c

/-- Word `k` of a stream's block (R370). -/
def Core.streamWord (c : Core) (st : Stream) (k : Nat) : DWord :=
  let x := c.st st
  match k with
  | 0 =>
    let y := c.st (c.lead st)
    posWord y.line false (if c.forked || c.heldLine then y.lane else 0)
  | 1 => (x.target &&& ~~~0x1F) ||| (if x.bp then 1 else 0)
  | 2 =>
    let jn := match x.jn with | some f => 2 + 4 * f.toNat | none => 0
    BitVec.ofNat 64 ((if x.out then 1 else 0) + jn + (if x.hlt then 32 else 0) + (if x.ended then 64 else 0))
  | 3 => BitVec.ofNat 64 x.wdog
  | 4 => x.digest
  | _ => 0

/-- Writes word `k` of a stream's block. -/
def Core.setStreamWord (c : Core) (st : Stream) (k : Nat) (v : DWord) : Core :=
  let x := c.st st
  match k with
  | 0 =>
    -- A stream at the end of its line (lane 8), and C after TEND, reads as lane 0; a word that names the same line leaves it there.
    let same := x.line &&& ~~~0x1F = v &&& ~~~0x1F
    let lane := if same && (x.lane = 8 || c.c.ended) && v.toNat % 8 = 0 then x.lane else v.toNat % 8
    let skip := if same then x.skip else none
    let c := c.setSt st { x with line := v &&& ~~~0x1F, lane := lane, buf := none, skip := skip }
    if c.forked || st ≠ .c || c.c.ended then c else { c with heldLine := lane ≠ 0 }
  | 1 => c.setSt st { x with target := v &&& ~~~0x1F, bp := v.getLsbD 0 }
  | 2 => c.setSt st { x with
      out := v.getLsbD 0, jn := if v.getLsbD 1 then some (v.extractLsb' 2 3) else none,
      hlt := v.getLsbD 5, ended := v.getLsbD 6 && st = .c }
  | 3 => c.setSt st { x with wdog := v.toNat }
  | 4 => c.setSt st { x with digest := v }
  | _ => c

/-- Word `k` of a loop level (R371). -/
def LoopLevel.word (l : LoopLevel) (k : Nat) : DWord :=
  match k with
  | 0 => l.count ++ l.index
  | 1 => (l.start &&& ~~~0x1F) ||| (if l.active then 1 else 0)
  | 2 => l.endLine &&& ~~~0x1F
  | 3 => 0
  | _ =>
    let x := l.strides.getD (k - 4) {}
    BitVec.ofNat 64 (x.imm.toNat * 2 ^ 32 + (if x.used then 256 else 0) + (if x.pair then 128 else 0) +
      (if x.coord then 64 else 0) + x.reg.toNat)

/-- Writes word `k` of a loop level. -/
def LoopLevel.setWord (l : LoopLevel) (k : Nat) (v : DWord) : LoopLevel :=
  match k with
  | 0 => { l with count := v.extractLsb' 32 32, index := v.extractLsb' 0 32 }
  | 1 => { l with start := v &&& ~~~0x1F, active := v.getLsbD 0 }
  | 2 => { l with endLine := v &&& ~~~0x1F }
  | 3 => l
  | _ =>
    let full := l.strides ++ List.replicate (4 - l.strides.length) ({} : Stride)
    let x := full.getD (k - 4) {}
    let y : Stride := { x with
      imm := v.extractLsb' 32 32, used := v.getLsbD 8, pair := v.getLsbD 7, coord := v.getLsbD 6,
      reg := v.extractLsb' 0 5 }
    { l with strides := setAt full (k - 4) y }

/-! #### The words 0x1400 to 0x17FF

R368 names what these sections hold and leaves its places open: those here are the model's (DESIGN CHOICE, log 12). -/

/-- The queue and the place in it of an entry of sq0-sq2, oq0, oq1 (8 words each), fq (32) and iq (64), from 0x1400. -/
def smallEntry (w : Nat) : Nat × Nat :=
  let i := w - 0x1400
  if i < 40 then (7 + i / 8, i % 8) else if i < 72 then (12, i - 40) else (13, i - 72)

/-- The word of an entry: its value where it is READY, else zero. -/
def QEntry.word (e : QEntry) (k : Nat) : DWord := (e.val.getD 0).extractLsb' (64 * k) 64

/-- Writes a word of a READY entry of a queue. -/
def Core.setEntry (c : Core) (q j k : Nat) (v : DWord) : Core :=
  let cq := c.q q
  match cq.entries[j]? with
  | some ⟨some l, t, id, h⟩ => c.setQ q { cq with entries := setAt cq.entries j ⟨some (putWord l k v), t, id, h⟩ }
  | _ => c

/-- The entries of a queue by state, from the read position: bit `j` for entry `j`. -/
def CoreQueue.mask (q : CoreQueue) (f : QEntry → Bool) : DWord :=
  BitVec.ofNat 64 (((q.entries.zipIdx.filter fun x => f x.1).map fun x => 2 ^ x.2).sum)

/-- The READY entries become those of a mask: a RESERVED entry stays, one that was FREE holds zero, and the first that is neither ends
the queue. -/
def CoreQueue.setReady (q : CoreQueue) (depth : Nat) (v : DWord) : CoreQueue :=
  let at_ := fun (j : Nat) => match v.getLsbD j, q.entries[j]? with
    | true, some e => some (if e.val.isSome then e else { val := some 0 })
    | true, none => some { val := some 0 }
    | false, some e => if e.val.isSome then none else some e
    | false, none => none
  { q with entries := (((List.range depth).map at_).takeWhile (·.isSome)).filterMap id }

/-- The read and the write position of a queue (R331). -/
def CoreQueue.positions (q : CoreQueue) (depth : Nat) : DWord :=
  BitVec.ofNat 64 (q.rpos % depth + (q.rpos + q.entries.length) % depth * 2 ^ 16)

/-- The tokens of a token queue become `n`, the oldest leaving first. -/
def setTokens (xs : List Token) (n : Nat) : List Token :=
  if n ≤ xs.length then xs.drop (xs.length - n) else xs ++ List.replicate (n - xs.length) ⟨0, true⟩

/-- Words of the objects of R337. -/
def Bar.word (b : Bar) : DWord := BitVec.ofNat 64 (b.count + b.arrivals * 2 ^ 16 + if b.phase then 2 ^ 32 else 0)
def Bar.ofWord (v : DWord) : Bar := ⟨bits v.toNat 0 16, bits v.toNat 16 16, v.getLsbD 32⟩
def Rdv.word : Rdv → DWord
  | .disarmed => 0
  | .armed m e => BitVec.ofNat 64 (1 + m.toNat * 4 + e.toNat * 128)
  | .fired => 2
def Rdv.ofWord (v : DWord) : Rdv :=
  if bits v.toNat 0 2 = 1 then .armed (v.extractLsb' 2 5) (v.extractLsb' 7 5) else if bits v.toNat 0 2 = 2 then .fired else .disarmed

/-- The spill-area word of a record (R374): [63] an area stands, [15:8] its images, [7:0] its first frame. -/
abbrev areaWord : Nat := 0x1700

/-- The policy, the warm state and the hint target (R193, R197): the target as the cycles that are left to it. -/
def Core.rampWord (c : Core) : DWord :=
  let m := c.matrix
  BitVec.ofNat 64 ((if m.polFault then 1 else 0) + (if m.warm then 2 else 0) + match m.hint with
    | some t => 4 + (t - c.clk) % 2 ^ 32 * 2 ^ 32
    | none => 0)

/-- The word of a spill image: its label, and its place in the order of all images, which is the spill order of each label (R277). -/
def Matrix.imageWord (m : Matrix) (i : Nat) : DWord :=
  match m.images.zipIdx.find? fun x => x.1.idx = i with
  | some x => BitVec.ofNat 64 (2 ^ 63 + x.2 * 2 ^ 8 + x.1.label.toNat)
  | none => 0

/-- A spill image belongs to no label, or to one at a place in the order. -/
def Matrix.setImage (m : Matrix) (i : Nat) (v : DWord) : Matrix :=
  let rest := m.images.filter (·.idx ≠ i)
  let n := bits v.toNat 8 32
  { m with images := if v.msb then rest.take n ++ [⟨i, v.extractLsb' 0 6⟩] ++ rest.drop n else rest }

/-- A word from 0x1400 on: the entries, positions and states of the queues and the token counts; the objects of R337; the counts of the
reducing writes; the spill area, the ramp state, the slot map, the last uses and the images. None for what has no layout here: what is
in flight and in progress. -/
def Core.tailWord (c : Core) (w : Nat) : Option DWord :=
  let m := c.matrix
  if w < 0x1488 then
    let (q, j) := smallEntry w
    some (((c.q q).entries.getD j {}).word 0)
  else if w < 0x1496 then some ((c.q (w - 0x1488)).positions (queueDepth (w - 0x1488)))
  else if w < 0x14A4 then some ((c.q (w - 0x1496)).mask (·.val.isSome))
  else if w < 0x14B2 then some ((c.q (w - 0x14A4)).mask (·.val.isNone))
  else if w < 0x14B8 then some (BitVec.ofNat 64 (c.tokens.getD (w - 0x14B2) []).length)
  else if w < 0x1500 then none
  else if w = 0x1500 then some (c.flags.setWidth 64)
  else if w < 0x1511 then some ((c.counters.getD (w - 0x1501) 0).setWidth 64)
  else if w < 0x1521 then some (c.bars.getD (w - 0x1511) {}).word
  else if w < 0x1529 then some (c.rdvs.getD (w - 0x1521) .disarmed).word
  else if w < 0x152E then some ((c.retired.getD (w - 0x1529) 0).setWidth 64)
  else if w < 0x1600 then none
  else if w < 0x1603 then some (BitVec.ofNat 64 (c.drain.rwr.getD (w - 0x1600) 0))
  else if w < 0x1700 then none
  else if w = areaWord then some (match m.area with
    | some (first, n) => BitVec.ofNat 64 (2 ^ 63 + n % 256 * 256 + first % 256)
    | none => 0)
  else if w = 0x1701 then some c.rampWord
  else if w = 0x1702 then some (BitVec.ofNat 64 m.idle)
  else if w = 0x1703 then some (match m.rampEnd with | some t => BitVec.ofNat 64 (2 ^ 63 + (t - c.clk) % 2 ^ 63) | none => 0)
  else if w < 0x1710 then none
  else if w < 0x1750 then some (match m.map.find? fun x => x.1 = w - 0x1710 with
    | some x => BitVec.ofNat 64 (2 ^ 63 + x.2)
    | none => 0)
  else if w < 0x1770 then some (BitVec.ofNat 64 (Sparse.get 0 m.use (w - 0x1750)))
  else if w < 0x17F0 then some (m.imageWord (w - 0x1770))
  else none

/-- Writes such a word. The states of RESERVED entries belong to their loads, and the write position follows the entries. -/
def Core.setTailWord (c : Core) (w : Nat) (v : DWord) : Core :=
  let m := c.matrix
  if w < 0x1488 then
    let (q, j) := smallEntry w
    c.setEntry q j 0 v
  else if w < 0x1496 then
    let q := w - 0x1488
    c.setQ q { c.q q with rpos := v.toNat % 2 ^ 16 }
  else if w < 0x14A4 then
    let q := w - 0x1496
    c.setQ q ((c.q q).setReady (queueDepth q) v)
  else if w < 0x14B2 then c
  else if w < 0x14B8 then
    let t := w - 0x14B2
    { c with tokens := c.tokens.setIfInBounds t (setTokens (c.tokens.getD t []) (v.toNat % 64)) }
  else if w < 0x1500 then c
  else if w = 0x1500 then { c with flags := v.setWidth 8 }
  else if w < 0x1511 then { c with counters := c.counters.setIfInBounds (w - 0x1501) (v.setWidth 32) }
  else if w < 0x1521 then { c with bars := c.bars.setIfInBounds (w - 0x1511) (.ofWord v) }
  else if w < 0x1529 then { c with rdvs := c.rdvs.setIfInBounds (w - 0x1521) (.ofWord v) }
  else if w < 0x152E then { c with retired := c.retired.setIfInBounds (w - 0x1529) (v.setWidth 32) }
  else if w < 0x1600 then c
  else if w < 0x1603 then { c with drain := { c.drain with rwr := c.drain.rwr.setIfInBounds (w - 0x1600) v.toNat } }
  else if w < 0x1700 then c
  else if w = areaWord then
    { c with matrix := { m with area := if v.msb then some (v.toNat % 256, bits v.toNat 8 8) else none } }
  else if w = 0x1701 then
    { c with matrix := { m with
      polFault := v.getLsbD 0, warm := v.getLsbD 1, hint := if v.getLsbD 2 then some (c.clk + bits v.toNat 32 32) else none } }
  else if w = 0x1702 then { c with matrix := { m with idle := v.toNat } }
  else if w = 0x1703 then { c with matrix := { m with rampEnd := if v.msb then some (c.clk + v.toNat % 2 ^ 63) else none } }
  else if w < 0x1710 then c
  else if w < 0x1750 then
    let l := w - 0x1710
    { c with matrix := { m with
      map := m.map.filter (·.1 ≠ l) ++ if v.msb then [(l, v.toNat % 32)] else [] } }
  else if w < 0x1770 then { c with matrix := { m with use := Sparse.set 0 m.use (w - 0x1750) v.toNat } }
  else if w < 0x17F0 then { c with matrix := m.setImage (w - 0x1770) v }
  else c

/-- A word of the snapshot that R369 to R371 lay out, or that stands in a register section, in READY entries, or where the model places
it; none for a word that has no layout (DESIGN CHOICE, log 12). Reserved words read zero. -/
def Core.snapWord (c : Core) (w : Nat) : Option DWord :=
  let r := c.regs
  if w = 0 then
    some (BitVec.ofNat 64 (c.ctxWord % 65536 * 2 ^ 48 + 8192 * 2 ^ 32 + (if c.forked then 2 ^ 17 else 0) +
      (if c.task.isSome then 2 ^ 16 else 0) + 1))
  else if w < 8 then some 0
  else if w < 0x20 then some (c.streamWord (streamAt ((w - 8) / 6)) ((w - 8) % 6))
  else if w < 0xE0 then
    let k := w - 0x20
    some (((c.st (streamAt (k / 48))).loops.getD (k % 48 / 8) {}).word (k % 8))
  else if w < 0xE6 then some ((r.i.getD (w - 0xE0) 0).setWidth 64)
  else if w = 0xE6 then some r.wid
  else if w = 0xE7 then some r.tcycle
  else if w = 0xE8 then some (r.lcore.setWidth 64)
  else if w = 0xE9 then some (r.phase.setWidth 64)
  else if w = 0xEA then some (BitVec.ofNat 64 c.freezeDog)
  else if w < 0x100 then some 0
  else if w < 0x120 then some (c.getS (BitVec.ofNat 5 (w - 0x100)))
  else if w < 0x130 then some (r.a.getD (w - 0x120) 0)
  else if w < 0x140 then some (r.d.getD (w - 0x130) 0)
  else if w < 0x144 then some (r.k.getD (2 * (w - 0x140) + 1) 0 ++ r.k.getD (2 * (w - 0x140)) 0)
  else if w < 0x164 then some ((r.p.getD ((w - 0x144) / 4) 0).extractLsb' (64 * ((w - 0x144) % 4)) 64)
  else if w < 0x188 then some ((r.x.getD ((w - 0x164) / 9) {}).record.extractLsb' (64 * ((w - 0x164) % 9)) 64)
  else if w < 0x200 then none
  else if w < 0x600 then some ((r.v.getD ((w - 0x200) / 32) 0).extractLsb' (64 * (w % 32)) 64)
  else if w < 0x1400 then some (((c.q ((w - 0x600) / 512)).entries.getD (w % 512 / 32) {}).word (w % 32))
  else c.tailWord w

/-- Writes such a word (R156); a word that is reserved ignores it, and read-only fields stay. Nothing is checked (R372). -/
def Core.putSnapWord (c : Core) (w : Nat) (v : DWord) : Core :=
  let r := c.regs
  if w = 0 then
    let ctx := bits v.toNat 48 16
    { c with
      ctxWord := ctx, forked := v.getLsbD 17,
      task := if v.getLsbD 16 then some { c.task.getD { ({} : TaskId) with wid := r.wid } with ctx := ctx } else none }
  else if w < 8 then c
  else if w < 0x20 then c.setStreamWord (streamAt ((w - 8) / 6)) ((w - 8) % 6) v
  else if w < 0xE0 then
    let k := w - 0x20
    let st := streamAt (k / 48)
    let x := c.st st
    c.setSt st (x.setLevel (k % 48 / 8) ((x.loops.getD (k % 48 / 8) {}).setWord (k % 8) v))
  else if w < 0xE6 then { c with regs := { r with i := r.i.setIfInBounds (w - 0xE0) (v.setWidth 32) } }
  else if w = 0xE6 then
    { c with regs := { r with wid := v }, task := c.task.map fun t => { t with wid := v } }
  else if w = 0xE7 then { c with regs := { r with tcycle := v } }
  else if w = 0xE8 then { c with regs := { r with lcore := v.setWidth 9 } }
  else if w = 0xE9 then { c with regs := { r with phase := v.setWidth 8 } }
  else if w = 0xEA then { c with freezeDog := v.toNat }
  else if w < 0x100 then c
  else if w < 0x120 then c.putS (BitVec.ofNat 5 (w - 0x100)) v
  else if w < 0x130 then { c with regs := { r with a := r.a.setIfInBounds (w - 0x120) v } }
  else if w < 0x140 then { c with regs := { r with d := r.d.setIfInBounds (w - 0x130) v } }
  else if w < 0x144 then
    let i := 2 * (w - 0x140)
    { c with regs := { r with
      k := (r.k.setIfInBounds i (v.extractLsb' 0 32)).setIfInBounds (i + 1) (v.extractLsb' 32 32) } }
  else if w < 0x164 then
    let i := (w - 0x144) / 4
    { c with regs := { r with p := r.p.setIfInBounds i (putWord (r.p.getD i 0) ((w - 0x144) % 4) v) } }
  else if w < 0x188 then
    let i := (w - 0x164) / 9
    let x := r.x.getD i {}
    { c with regs := { r with x := r.x.setIfInBounds i { x with record := putWord x.record ((w - 0x164) % 9) v } } }
  else if w < 0x200 then c
  else if w < 0x600 then
    let i := (w - 0x200) / 32
    { c with regs := { r with v := r.v.setIfInBounds i (putWord (r.v.getD i 0) (w % 32) v) } }
  else if w < 0x1400 then c.setEntry ((w - 0x600) / 512) (w % 512 / 32) (w % 32) v
  else c.setTailWord w v

/-- A word that is written as it reads changes nothing; those of the status and the spill area are taken over in any case. -/
def Core.setSnapWord (c : Core) (w : Nat) (v : DWord) : Core :=
  if w ≠ 0 && w ≠ areaWord && c.snapWord w = some v then c else c.putSnapWord w v

/-- Reads a word of a core's snapshot. One without a layout reads what has been read or written there before, else a free value (DESIGN
CHOICE, log 12). -/
def State.readSnap (s : State) (p w : Nat) : DWord × State :=
  match (s.cr p).snapWord w with
  | some v => (v, s)
  | none => match (s.cr p).snapWords.find? (·.1 = w) with
    | some x => (x.2, s)
    | none =>
      let v := Config.snapWord s.choices
      let c := s.cr p
      (v, { s.setCr p { c with snapWords := Sparse.put c.snapWords w v } with choices := s.choices + 1 })

/-- Writes a word of a core's snapshot. -/
def State.writeSnap (s : State) (p w : Nat) (v : DWord) : State :=
  let c := s.cr p
  match c.snapWord w with
  | some _ => s.setCr p (c.setSnapWord w v)
  | none => s.setCr p { c with snapWords := Sparse.put c.snapWords w v }

/-! ### The operations of word 1 -/

/-- The slot map of the running context, and a matrix engine with another. -/
def Matrix.slotMap (m : Matrix) : SlotMap := ⟨m.map, m.use, m.images, m.polFault, m.area⟩
def Matrix.withMap (m : Matrix) (x : SlotMap) : Matrix :=
  { m with map := x.map, use := x.use, images := x.images, polFault := x.polFault, area := x.area }

/-- A context's own slot map takes its place in the matrix engine, as its last task on the core left it (R28). -/
def Core.enterCtx (c : Core) (ctx : Nat) : Core :=
  if c.mapCtx = ctx then c
  else
    let x := Sparse.get {} c.kept ctx
    let kept := Sparse.set {} (Sparse.set {} c.kept c.mapCtx c.matrix.slotMap) ctx {}
    { c with matrix := c.matrix.withMap x, mapCtx := ctx, kept := kept }

/-- The accesses of C that have left a core run to completion (R110): stores, atomics and barrier arrivals that nothing
holds back take place, round requests reach their units, and a store that has been sent to a peer goes on by itself. -/
def State.flushC (s : State) (p : Nat) : State :=
  let go := fun (s : State) (x : Pending) =>
    let c := s.cr p
    match c.amos.find? (·.seq = x.seq) with
    | some r => ((s.dropPort3 (· = .store p x.seq)).amoStep p { r with served := true }).getD s
    | none =>
      if c.gbArrives.any (·.seq = x.seq) then
        (barrierEff (s.setCr p { c with gbArrives := c.gbArrives.map fun g => { g with due := s.now } }) p).getD s
      else if x.load then s
      else if c.stores.any fun y => y.seq = x.seq && y.served && (s.peer? y.pa).isSome then
        s.setCr p { c with stores := c.stores.filter (·.seq ≠ x.seq) }
      else s.performNow p x
  (s.cr p).inOrder.foldl go s

/-- D's lines that have left the write buffer, in order: they reach their destinations (R110). -/
def State.flushD (s : State) (p : Nat) : State :=
  ((s.cr p).drain.buf.filter (·.remote.isSome)).foldl (fun s l =>
    match s.dest p l.lay l.blk (256 * l.line) l.resolved with
    | .at pa => match s.peer? pa with
      | none => (s.writeLine 3 pa l).dropLine p l
      | some e =>
        if s.peerSent (.wline p l.seq l.lay l.blk l.line) then s
        else if l.full then (s.peerSend (.wline p l.seq l.lay l.blk l.line) e 1 pa 256 []
          (mergeLine (List.replicate 256 0) l.bytes)).dropLine p l
        else s
    | _ => s) s

/-- What has left a core runs to completion (R110). -/
def State.flushCore (s : State) (p : Nat) : State := (s.flushC p).flushD p

/-- What a core waits for from peers and at the ports of near stores is forgotten: a later reply is discarded (R372). -/
def State.dropWaits (s : State) (p : Nat) (keep line : Nat → Bool) : State :=
  let port := fun (o : PortOwner) => match o with
    | .load q _ | .aload q _ => q = p
    | .wline q n .. => q = p && !line n
    | .store q n => q = p && !keep n
    | _ => false
  { s.dropPort3 port with
    peerReqs := s.peerReqs.filter fun r => match r.owner with
      | .load q _ | .aload q _ _ | .fetch q _ => q ≠ p
      | .wline q n .. => q ≠ p || line n
      | .store q n => q ≠ p || keep n
      | _ => true }

/-- An atomic outside a round runs on when its core loses its task. -/
def AmoReq.leave (t : TaskId) (r : AmoReq) : Option AmoReq :=
  match r.late with
  | .here => if r.round.isSome || r.failed then none else some { r with late := .sent t, dst := none }
  | .sent _ => some r
  | .awaited _ => none

/-- As the record of its task holds it: one that has been sent is awaited. -/
def AmoReq.stay (t : TaskId) (r : AmoReq) : Option AmoReq :=
  match r.late with
  | .here => some (if r.round.isSome || r.failed then r else { r with late := .awaited t })
  | .sent _ => none
  | .awaited _ => some r

/-- A core without its task: nothing of it is in flight but what has left the core and cannot yet take place (R110); the slots, the
planes and the translation caches stay. -/
def Core.vacate (c : Core) : Core :=
  let t := c.task.getD {}
  { c with
    task := none, loads := [], gbPolls := [], amos := c.amos.filterMap fun r => r.leave t
    stores := c.stores.map fun x => { x with gone := some (x.gone.getD t) }
    gbArrives := c.gbArrives.map fun x => { x with gone := some (x.gone.getD t) }
    pend := [], first := c.seq, restored := false
    queues := .replicate 14 {}, tokens := .replicate 6 [], aloads := [], aq := [], dq := [], digests := [], deferred := []
    drain := { away := c.drain.away ++ (c.drain.buf.filter (·.remote.isSome)).map fun l => (t, l) }
    markers := [], conts := [], stops := [], wrote := [], roundCounts := [], heldLine := false, freezeDog := 0
    c := {}, a := {}, k := {}, d := {}, snapWords := []
    matrix := { c.matrix with queue := [], rows := [], claims := [], landed := [], freeAt := 0, busyTo := 0 }
    lookups := { c.lookups with walks := [], walkFaults := [], tileReqs := [], tileDone := [] } }

/-- The requests of what has left a core stay (R110). -/
def State.keepSent (s : State) (p : Nat) : State :=
  let c := s.cr p
  s.dropWaits p (fun n => c.stores.any (·.seq = n) || c.amos.any (·.seq = n)) fun n => c.drain.away.any (·.2.seq = n)

/-- The task of a core is discarded (R40): what has left the core runs to completion (R110, R344). -/
def State.dropTask (s : State) (p : Nat) : State :=
  let s := s.flushCore p
  (s.setCr p (s.cr p).vacate).keepSent p

/-- A word of a record that has no layout: what it has been read or written as, else free (DESIGN CHOICE, log 12). -/
def Core.looseWord (c : Core) (choices w : Nat) : DWord :=
  match c.snapWords.find? fun (x : Nat × DWord) => x.1 = w with
  | some x => x.2
  | none => Config.snapWord (choices + w)

/-- The bytes of line `i` of a snapshot record: 32 words. -/
def Core.recordLine (c : Core) (choices i : Nat) : List Byte :=
  (List.range 32).flatMap fun j => valBytes 8 ((c.snapWord (32 * i + j)).getD (c.looseWord choices (32 * i + j))).toNat

/-- How a record, or a save area, stands at an address: outside the control region and the windows of peers, in mapped memory behind a
link that carries accesses (R384, R399). -/
def State.recordStand (s : State) (addr : Nat) : FarState :=
  if place addr = .control || (s.peer? addr).isSome then .fail .accessViolation else s.farState addr

/-- A record can be written or read at an address: 64 KiB aligned, where accesses reach it. -/
def State.recordPlace (s : State) (addr : Nat) : Bool := addr % 65536 = 0 && addr < 2 ^ 56 && s.recordStand addr = .ok

/-- What a record describes of a core: what has left the core is not of it (R110), and its lines on their way are written. -/
def Core.image (c : Core) : Core :=
  let t := c.task.getD {}
  let x : Core := { c with
    stops := c.stops.map fun x => { x with placed := true }
    stores := [], gbArrives := [], amos := c.amos.filterMap fun r => r.stay t
    drain := { c.drain with buf := c.drain.buf.filter (·.remote.isNone), away := [] } }
  x.finishStores

/-- STORE: the record goes to memory, and what the words without a layout stand for is kept by their values (DESIGN CHOICE, log 12); the
core then holds no task. -/
def State.storeRecord (s : State) (p addr : Nat) : State :=
  let s := s.flushCore p
  let c := s.cr p
  let t := (List.range 256).foldl (fun (t : State) i => t.writeBytes (addr + 256 * i) (c.recordLine s.choices i)) s
  { (t.setCr p c.vacate).keepSent p with snaps := (s.choices, c.image) :: t.snaps, choices := t.choices + 8192 }

/-- A word of the record at an address. -/
def State.recordWord (s : State) (addr w : Nat) : DWord := BitVec.ofNat 64 (s.readNat (addr + 8 * w) 8)

/-- The record at an address holds, in the words without a layout, what a STORE put there for an image. -/
def State.imageAt (s : State) (addr : Nat) (x : Nat × Core) : Bool :=
  (List.range 8192).all fun w => (x.2.snapWord w).isSome || s.recordWord addr w = x.2.looseWord x.1 w

/-- The core that those words stand for: the image that a STORE put there, an idle core where they are all zero, and of words that no
STORE wrote a free choice (DESIGN CHOICE, log 12). -/
def State.recordImage (s : State) (addr : Nat) : Core :=
  match s.snaps.find? (s.imageAt addr) with
  | some x => x.2
  | none =>
    let none_ := (List.range 8192).all fun w => ((({} : Core).snapWord w).isSome || s.recordWord addr w = 0)
    if none_ then {} else ((s.snaps.map (·.2))[(Config.snapWord s.choices).toNat % (s.snaps.length + 1)]?).getD {}

/-- The words of a record that have a layout, in the order in which they are taken over: which entries are READY before their values,
and the spill images in their order. -/
def State.recordWords (s : State) (addr : Nat) : List Nat :=
  let at_ := fun (n k : Nat) => (List.range k).map (· + n)
  let rank := fun (w : Nat) => let v := s.recordWord addr w; if v.msb then min (1 + bits v.toNat 8 32) 129 else 0
  at_ 0 0x188 ++ at_ 0x200 0x400 ++ at_ 0x1488 0x2A ++ at_ 0x600 0xE88 ++ at_ 0x14B2 0x2BE ++
    (List.range 130).flatMap fun k => (at_ 0x1770 128).filter fun w => rank w = k

/-- The core that a record describes: the words that have a layout, over what the others stand for. -/
def State.readRecord (s : State) (addr : Nat) : Core :=
  let c := (s.recordWords addr).foldl (fun c w => c.setSnapWord w (s.recordWord addr w)) (s.recordImage addr)
  { c with snapWords := (List.range 8192).filterMap fun w => match c.snapWord w with
      | some _ => none
      | none => some (w, s.recordWord addr w) }

/-- The frames of the spill area that a record names belong to its context (R372). -/
def State.areaOwned (s : State) (p : Nat) (c : Core) : Bool :=
  match c.matrix.area with
  | none => true
  | some (first, n) => (List.range n).all fun i =>
      (s.tag (Config.nearBase + p * 2 ^ 22 + (first + i) * 2 ^ 15)).owner = c.ctxWord

/-- A record holds the version that the core supports. -/
def State.recordVersion (s : State) (addr : Nat) : Bool := s.readNat addr 2 = 1

/-- Image frames of a queued spill or BIND after the spill area of `n` frames has moved from `old` to `new` (R374); those of an area
before it stay. -/
def MKind.moved (old n new : Nat) (k : MKind) : MKind :=
  let go := fun (f : Nat) => if old ≤ f && f < old + n then f - old + new else f
  match k with
  | .spill slot f own => .spill slot (go f) own
  | .bind slot q srcs => .bind slot q (srcs.map fun x => (x.1, x.2.map go))
  | k => k

/-- LOAD: the core holds the recorded task with its own slot map; slots, planes, caches, the port's round and what has left the core
before stay the core's. Commands of the task at their engines complete on this core from now on. The core's sequence numbers do not go
back, so that uses of slots keep their order (R275). -/
def State.loadRecord (s : State) (p addr : Nat) : State :=
  let c := (s.cr p).vacate
  let old := (s.recordImage addr).matrix.area
  let k := s.readRecord addr
  let n := max c.seq k.seq
  let m := c.matrix
  let kept := if c.mapCtx = k.ctxWord then c.kept else Sparse.set {} c.kept c.mapCtx m.slotMap
  let queue := match old, k.matrix.area with
    | some (f, n), some (g, _) => k.matrix.queue.map fun h => { h with kind := h.kind.moved f n g }
    | _, _ => k.matrix.queue
  let here := fun (x : EngCmd) => { x with core := p }
  let k := { k with
    matrix := { k.matrix with
      plane0 := m.plane0, plane1 := m.plane1, active1 := m.active1, slots := m.slots, poison := m.poison, owner := m.owner
      queue := queue, claims := [] }
    lookups := c.lookups, freezeHeld := c.freezeHeld, freezeAsk := c.freezeAsk, thawed := c.thawed
    port3 := c.port3, port3Q := c.port3Q, port3Busy := c.port3Busy, ports := c.ports, portHold := 0
    mapCtx := k.ctxWord, kept := Sparse.set {} kept k.ctxWord {}, aReqs := 0, stalled := none, issued := 0, gbPolls := []
    seq := n, first := n, stores := c.stores, gbArrives := c.gbArrives, amos := c.amos ++ k.amos, fences := c.fences ++ k.fences
    uoFence := max c.uoFence k.uoFence, fenceI := max c.fenceI k.fenceI
    drain := { k.drain with away := c.drain.away }, aq := k.aq.map here, dq := k.dq.map here, restored := true }
  let s := { (s.setCr p k).pinArea p k.matrix.area true with choices := s.choices + 1 }
  let mine := fun (x : EngCmd) => k.task = some x.task
  { s with
    engines := s.engines.map fun x => if mine x then here x else x
    shunters := s.shunters.map fun x => (x.1, { x.2 with run := x.2.run.map fun r =>
      { r with cmd := r.cmd.map fun y => if mine y then here y else y } }) }

/-- Uses of the matrix engine that a context's contents stand in: slots 0-31 and the plane pair. -/
def Core.owned (c : Core) (ctx : Nat) : List Nat := (List.range 33).filter fun w => Sparse.get 0 c.matrix.owner w = ctx

/-- EVICT: every slot and the plane pair of a context are saved, their owner becomes 0, and the pin bits of the context's
frames on the core are cleared. -/
def State.evict (s : State) (p ctx : Nat) : State :=
  let drop := fun (s : State) (w : Nat) =>
    let s := s.saveOut p w
    let m := (s.cr p).matrix
    s.setMatrix p { m with owner := Sparse.set 0 m.owner w 0 }
  let s := if ctx = 0 then s else ((s.cr p).owned ctx).foldl drop s
  (List.range 128).foldl (fun s f =>
    let a := Config.nearBase + p * 2 ^ 22 + f * 2 ^ 15
    let t := s.tag a
    if ctx ≠ 0 && t.owner = ctx then s.setTag a { t with pin := false } else s) s

/-- How the save area that EVICT writes stands (R399); there is none where it saves nothing. -/
def State.evictStand (s : State) (p ctx : Nat) : FarState :=
  match s.ctx? ctx with
  | some x => if ctx = 0 || ((s.cr p).owned ctx).isEmpty then .ok else s.recordStand x.savea
  | none => .ok

/-- CLEAR: the same slots and plane pair stand in the creation state with owner 0; nothing is saved. -/
def State.clearCtx (s : State) (p ctx : Nat) : State :=
  let c := s.cr p
  if ctx = 0 then s
  else
    let m := (c.owned ctx).foldl (fun (m : Matrix) w =>
      let m := m.create w
      { m with owner := Sparse.set 0 m.owner w 0 }) c.matrix
    s.setCr p { c with matrix := m }

/-- A line of the record at an address is poisoned (R393). -/
def State.recordPoisoned (s : State) (addr : Nat) : Bool := (List.range 256).any fun i => s.poisoned (addr + 256 * i)

/-- The effects of the SNAPSHOT steps: each needs the core stopped by FREEZE. -/
def snapStoreEff (s : State) (p addr : Nat) : Option State :=
  if (s.cr p).freezeHeld && s.recordPlace addr then some (s.storeRecord p addr) else none
def snapLoadEff (s : State) (p addr : Nat) : Option State :=
  if (s.cr p).freezeHeld && s.recordPlace addr && !s.recordPoisoned addr && s.recordVersion addr &&
      s.areaOwned p (s.readRecord addr) then
    some (s.loadRecord p addr)
  else none
def snapEvictEff (s : State) (p : Nat) : Option State :=
  if (s.cr p).freezeHeld && s.evictStand p (s.cr p).ctxWord = .ok then some (s.evict p (s.cr p).ctxWord) else none
def snapClearEff (s : State) (p : Nat) : Option State :=
  if (s.cr p).freezeHeld then some (s.clearCtx p (s.cr p).ctxWord) else none

/-! ### Instructions -/

/-- The physical core that a register names (R155). -/
def readCore (a : BitVec 5) : Act Nat := do
  let x ← readS a
  require (x.toNat < 512) .accessViolation
  return x.toNat

/-- FREEZE (R155): the core is asked to stop at the next cycle boundary, and the instruction waits until it has stopped; s[d]
tells whether FREEZE held it already. R108 gives s[d] no ready time: 0 (DESIGN CHOICE, log 120). -/
def execFreeze (w : BitVec 2) (d a : BitVec 5) (s : State) : Host.Outcome State Fault Refusal :=
  run (.freeze w d a) w (do
    let p ← readCore a
    let s ← get
    if !(s.cr p).freezeHeld then wait .fixed (some (.freeze p))
    let asked := (s.cr p).freezeAsk
    set (s.setCr p { s.cr p with freezeAsk := false })
    writeS d (if asked then 0 else 1)) s

/-- THAW (R155, R367). -/
def execThaw (w : BitVec 2) (a : BitVec 5) (s : State) : Host.Outcome State Fault Refusal :=
  run (.thaw w a) w (do
    let p ← readCore a
    modify fun s => s.thawCore p) s

/-- The core and word of SNAPR and SNAPW: stopped by FREEZE, and within the snapshot. -/
def snapTarget (a b : BitVec 5) : Act (Nat × Nat) := do
  let p ← readCore a
  let i ← readS b
  let s ← get
  require ((s.cr p).freezeHeld && i.toNat < 8192) .accessViolation
  return (p, i.toNat)

/-- SNAPR (R156). R108 gives s[d] no ready time: 0 (DESIGN CHOICE, log 120). -/
def execSnapr (w : BitVec 2) (d a b : BitVec 5) (s : State) : Host.Outcome State Fault Refusal :=
  run (.snapr w d a b) w (do
    let (p, i) ← snapTarget a b
    let (v, s) := (← get).readSnap p i
    set s
    writeS d v) s

/-- A record or save area at an address is reached, or waits for a link, or is refused and logged (R384, R392, R399). -/
def reachRecord (addr : Nat) (x : FarState) : Act Unit := do
  let a := BitVec.ofNat 64 addr
  match x with
  | .ok => pure ()
  | .wait => wait .memory
  | .fail c => refuse c a ((← get).unitOf addr) (if c = .accessViolation then 0x03 else 0) a

/-- The operation of a write of word 1 (R372): it completes before the SNAPW does. -/
def snapOperation (p : Nat) (v : DWord) : Act Unit := do
  let s ← get
  let addr := bits v.toNat 16 40 * 65536
  match v.toNat % 4 with
  | 0 => pure ()
  | 1 =>
    reachRecord addr (s.recordStand addr)
    set (s.storeRecord p addr)
  | 2 =>
    reachRecord addr (s.recordStand addr)
    if s.recordPoisoned addr then
      refuse .uncorrectable (BitVec.ofNat 64 addr) (s.unitOf addr) 0x08
    require (s.recordVersion addr && s.areaOwned p (s.readRecord addr)) .accessViolation
    set (s.loadRecord p addr)
  | _ =>
    if v.getLsbD 16 then set (s.clearCtx p (s.cr p).ctxWord)
    else
      reachRecord (match s.ctx? (s.cr p).ctxWord with | some x => x.savea | none => 0) (s.evictStand p (s.cr p).ctxWord)
      set (s.evict p (s.cr p).ctxWord)

/-- SNAPW (R156): a version in word 0 that the core does not support raises ACCESS_VIOLATION. -/
def execSnapw (w : BitVec 2) (d a b : BitVec 5) (s : State) : Host.Outcome State Fault Refusal :=
  run (.snapw w d a b) w (do
    let (p, i) ← snapTarget a b
    let v ← readS d
    require (i ≠ 0 || v.toNat % 65536 = 1) .accessViolation
    if i = 1 then snapOperation p v else modify fun s => s.writeSnap p i v) s

/-! ### The steps -/

/-- SNAPSHOT_STORE (R372). -/
def execSnapshotStore (p addr : Nat) (s : State) : Host.Outcome State Fault Refusal := event (snapStoreEff s p addr) s

/-- SNAPSHOT_LOAD (R372). -/
def execSnapshotLoad (p addr : Nat) (s : State) : Host.Outcome State Fault Refusal := event (snapLoadEff s p addr) s

/-- SNAPSHOT_EVICT (R372). -/
def execSnapshotEvict (p : Nat) (s : State) : Host.Outcome State Fault Refusal := event (snapEvictEff s p) s

/-- SNAPSHOT_CLEAR (R372). -/
def execSnapshotClear (p : Nat) (s : State) : Host.Outcome State Fault Refusal := event (snapClearEff s p) s

end Sys2Proof.Machine
end

