-- ==== Sys2Proof/Machine/Tasks.lean ====
section
/-! DEFINITION. The walker: the start of a task (R23, R25-R30), its commit (R33, R34, R37), the start and end of phases
(R29, R36, R38, R351), and the end of a launch (R350, R354). -/

namespace Sys2Proof.Machine

/-! ### The end of a launch -/

/-- Sends an MSI, if an address is given (R349, R390). -/
def State.msi (s : State) (addr : DWord) (data : Word) : State :=
  if addr = 0 then s else { s with msis := s.msis ++ [(addr.toNat, data)] }

/-- The cores that hold a task of a launch. -/
def State.coresOf (s : State) (id : Nat) : List Nat :=
  (s.cores.filter fun x => match x.2.task with | some t => t.launch = id | none => false).map (·.1)

/-- Discards the tasks of a launch that its cores hold (R40). -/
def State.dropTasks (s : State) (id : Nat) : State := (s.coresOf id).foldl State.dropTask s

/-- A launch of a state that is still to end. -/
def Launch.active (l : Launch) : Bool := l.st = .accepting || l.st = .running || l.st = .preempted

/-- A queue that waits for its launch to end closes (R334). -/
def State.closeQueue (s : State) (q : Nat) : State :=
  let x := Sparse.get {} s.lqs q
  if x.st = .quiescing && !s.launches.any (fun l => l.active && l.queue = q) then
    { s with lqs := Sparse.put s.lqs q { x with st := .closed } }
  else s

/-- The pre-empted launch of a group that resumes: the one at the highest level (R353). -/
def State.toResume (s : State) (ctx g : Nat) : Option Launch :=
  let ls := s.launches.filter fun l => l.ctx = ctx && l.group = g && l.st = .preempted
  ls.find? fun l => ls.all fun k => k.level ≤ l.level

/-- No task of a launch is left on a core or in its record. -/
def State.noTasks (s : State) (l : Launch) : Bool := (s.coresOf l.id).isEmpty && l.parked.isEmpty

/-- The units forget a launch whose tasks are all gone: the reduce units drop its windows (R243), the round units its rounds, but for a
launch that its group may still re-run (R360, R361). -/
def State.forget (s : State) (id : Nat) (contain : Bool) : State :=
  { s with
    windows := if contain then s.windows else s.windows.filter (·.launch ≠ id)
    rounds := s.rounds.filter (·.launch ≠ id)
    roundsDone := if contain then s.roundsDone else s.roundsDone.filter (·.launch ≠ id)
    held := s.held.filter (·.task.launch ≠ id)
    lateAmos := s.lateAmos.filter (·.task.launch ≠ id) }

/-- Ends a launch (R350, R351, R354): its tasks are discarded, the status word is written, then the MSI is sent. A launch is COMPLETE
with the last commit of its last phase; under OVERLAP tasks of earlier phases then run on to their commits (R29, R354; DEDUCED, log
118). The launch that resumes is given back. -/
def State.endLaunch (s : State) (l : Launch) (code : Nat) (st : LaunchState) (contain : Bool) : State × Option Nat :=
  let s := if st = .complete then s else s.dropTasks l.id
  let s := if inYard l.stat then s.writeDw l.stat (BitVec.ofNat 64 (code + l.phase % 256 * 256)) else s
  let s := s.msi (BitVec.ofNat 64 l.msia) l.msid
  let l := { l with st := st, parked := if st = .complete then l.parked else [] }
  let s := s.setLaunch l
  let s := if s.noTasks l then s.forget l.id contain else s
  let s := s.closeQueue l.queue
  let g := s.group l.ctx l.group
  let mine := g.st = .running || g.st = .frozen
  -- A launch of the group that runs, or whose checks run, goes on: nothing resumes before it has ended (R352, R353).
  let busy := s.launches.any fun k => k.ctx = l.ctx && k.group = l.group && (k.st = .running || k.st = .accepting)
  let frozen := s.allFrozen g
  if contain then (if mine then s.setGroup l.ctx l.group { g with st := .contained, lost := some l.id } else s, none)
  else if busy || !mine then (s, none)
  else match s.toResume l.ctx l.group with
    | some k =>
      let t := s.setLaunch { k with st := .running }
      (t.setGroup l.ctx l.group { g with st := if frozen then .frozen else .running }, some k.id)
    | none => (if g.st = .frozen && frozen then s else s.setGroup l.ctx l.group { g with st := .bound }, none)

/-! ### Phases -/

/-- A walker's trap (R388): `STRM` 101 and no position; the address of what it has read, if that is its cause. -/
def State.walkerTrap (s : State) (l : Launch) (p : Nat) (wid : DWord) (c : Cause) (info : DWord) : State :=
  s.report ⟨p, [trapWord0 l.ctx p 0 0 5 0 c, wid, 0, info], none⟩

/-- PHASE_START (R29, R336, R348): the phase's plane is cleared, and a continuation walk takes the queue as it stands. -/
def State.startPhase (s : State) (l : Launch) (p base : Nat) : State :=
  let r := l.record p
  let g := s.group l.ctx l.group
  let walk := if phCont r then g.queue else []
  let n := if phCont r then walk.length else walkSize r
  let l' : Launch := { l with
    phase := p, base := base, next := 0, delta := 0, halted := false, sizes := l.sizes.take p ++ [n], digests := []
    heldConts := [], repaired := []
    walkConts := l.walkConts.filter (·.1 ≠ p) ++ (if phCont r then [(p, walk, g.gone + walk.length)] else []) }
  (s.setLaunch l').clearPlane l' p

/-- The digest of a phase (R37). -/
def Launch.phaseDigest (l : Launch) : DWord :=
  crcBytes 0 ((sortBy (·.1) l.digests).flatMap fun x => valBytes 8 x.2.toNat)

/-- A phase has ended: the records of its walk leave the queue (R336), and its digest is compared (R38). A mismatch is raised
before the next phase starts; in the serialised re-run both digests are reported, and the launch must be aborted. -/
def State.closePhase (s : State) (l : Launch) (p wcore : Nat) (wid : DWord) : State × Bool :=
  let g := s.group l.ctx l.group
  let s := match l.walkConts.find? (·.1 = p) with
    | some x => s.setGroup l.ctx l.group { g with queue := g.queue.drop (x.2.2 - g.gone), gone := max g.gone x.2.2 }
    | none => s
  let done := { s with roundsDone := s.roundsDone.filter fun r => !(r.launch = l.id && r.phase = p) }
  let d := l.phaseDigest
  if !hdrDig l.hdr || l.recorded[p]? = some d then
    (done.setLaunch { l with rerun := false, mismatched := false, wrote := [] }, false)
  else if l.rerun then
    ({ done with reports := done.reports ++ [(l.ctx, [l.firstDigest, d])] }, true)
  else ((s.setLaunch { l with mismatched := true, firstDigest := d }).walkerTrap l wcore wid .digestMismatch 0, false)

/-- The walker goes on with a launch: it starts the next phase under its boundary, passes over phases without tasks, and ends
the launch after its last phase; then with the launch that resumes. `t` is the cycle that counts as the last commit's
observation. -/
def State.walkOn : Nat → Nat → Nat → State → State
  | 0, _, _, s => s
  | f + 1, t, id, s =>
    match s.launch? id with
    | none => s
    | some l =>
      let p := l.phase
      let last := p + 1 = hdrPhases l.hdr
      let passed := if l.overlaps p then l.next = l.size p else l.phaseDone p
      if l.st ≠ .running || l.mismatched then s
      else if last then
        if l.phaseDone p then
          match s.endLaunch l 0 .complete false with
          | (s, some k) => State.walkOn f s.now k s
          | (s, none) => s
        else s
      else if passed then
        let base := if l.overlaps p && l.size p ≠ 0 then l.lastStart else t
        let s := s.startPhase l (p + 1) base
        match s.launch? id with
        | some k =>
          if k.size (p + 1) = 0 then
            match s.closePhase k (p + 1) 0 0 with
            | (s, false) => State.walkOn f t id s
            | (s, true) => match s.endLaunch k 6 .aborted false with
              | (s, some j) => State.walkOn f s.now j s
              | (s, none) => s
          else s
        | none => s
      else s

/-- Phases that one commit can pass over, over the launches that may resume. -/
def walkFuel : Nat := 2048

/-- The walker goes on with a launch. -/
def State.goOn (s : State) (t id : Nat) : State := State.walkOn walkFuel t id s

/-- Ends a launch and goes on with the one that resumes. -/
def State.finish (s : State) (l : Launch) (code : Nat) (st : LaunchState) (contain : Bool) : State :=
  match s.endLaunch l code st contain with
  | (s, some k) => s.goOn s.now k
  | (s, none) => s

/-- A phase starts, and the walker passes over it if it has no tasks. -/
def State.beginPhase (s : State) (l : Launch) (p base : Nat) : State :=
  let s := s.startPhase l p base
  match s.launch? l.id with
  | none => s
  | some k =>
    if k.size p ≠ 0 then s
    else match s.closePhase k p 0 0 with
      | (s, false) => s.goOn base k.id
      | (s, true) => s.finish k 6 .aborted false

/-! ### The start of a task -/

/-- The core is free for a task (R25, R358): it holds none, and neither FREEZE nor a loss stops it. -/
def State.coreFree (s : State) (p : Nat) : Bool := (s.cr p).task.isNone && !(s.cr p).freezeHeld && !s.coreLost p

/-- The logical core on which walk ordinal `n` of the running phase starts now, if it is free (R25); a serialised re-run
takes logical core 0 alone, after every earlier task has committed (R38), and a re-run after a rebind the core of the first run
(R361). -/
def State.pickCore (s : State) (l : Launch) (n : Nat) : Option Nat :=
  let d := s.binding l
  let free := fun k => s.coreFree (physical d k)
  let at_ := fun k => if free k then some k else none
  if l.rerun then (if free 0 && l.committed l.phase = n then some 0 else none)
  else if phFree (l.record l.phase) then
    match (if l.rebound then l.placed.find? fun x => x.1 = l.phase && x.2.1 = n else none) with
    | some x => at_ x.2.2
    | none => (List.range (groupN d)).find? free
  else at_ (n % groupN d)

/-- The registers of a task at its start (R23, R28, R33). Pattern registers keep their records, but none counts as loaded. -/
def startRegs (old : Regs) (h : BitVec 512) (wid : DWord) (payload : Option ContRec) (lcore phase : Nat) : Regs :=
  let f := fieldsOf h wid
  let s0 : Vector DWord 32 := .replicate 32 0
  { x := old.x.map fun x => { x with loaded := false }
    s := match payload with
      | some r => ((s0.setIfInBounds 1 r.p0).setIfInBounds 2 r.p1).setIfInBounds 3 r.p2
      | none => s0
    i := Vector.ofFn fun (k : Fin 6) => BitVec.ofNat 32 (f.getD k.val 0)
    wid := wid, tcycle := 0, lcore := BitVec.ofNat 9 lcore, phase := BitVec.ofNat 8 phase }

/-- The state of a core at the start of a task (R28, R142, R196): joined at the entry line, with empty queues and cleared
objects; the engine state stays, with the slot map of the context. -/
def Core.start (c : Core) (t : TaskId) (entry : DWord) (regs : Regs) : Core :=
  let c := c.vacate.enterCtx t.ctx
  let x : StreamState := { line := entry &&& ~~~0x1F }
  { c with
    regs := regs, c := x, a := x, k := x, d := x, forked := false, forkMask := 0
    tokens := .replicate 6 [], flags := 0, counters := .replicate 16 0, bars := .replicate 16 {}
    rdvs := .replicate 8 .disarmed, retired := .replicate 5 0xFFFFFFFF
    matrix := { c.matrix with idle := 0, warm := true, hint := none, rampEnd := none }
    task := some t, ctxWord := t.ctx, hold := 0, vnext := 0, stalled := none, issued := 0 }

/-- What the walker learns of a predecessor's commit bit that lies in a poisoned line (R29, R393): the read is logged, UNCORRECTABLE
reported with its address, and the walker is halted (DEDUCED, log 119). -/
def State.predFails (s : State) (l : Launch) (n pa : Nat) : State :=
  let d := s.binding l
  let a := BitVec.ofNat 64 pa
  let s := s.logError (s.unitOf pa) Cause.uncorrectable.code 0x08 l.ctx 5 (s.primary - 512) a
  (s.setLaunch { l with halted := true, slipped := n }).walkerTrap l (physical d (n % groupN d)) (l.widAt l.phase n) .uncorrectable a

/-- The place of a stored task in the snapshot area (R374). -/
def State.parkPlace (s : State) (l : Launch) (p : Nat) : Nat :=
  match s.ctx? l.ctx with
  | some c => c.snapa + 65536 * (512 * l.level + p)
  | none => 0

/-- The blocks of two RESIDENT entries of a context change frames, as a service XCHG.P lets them (R258, R270). -/
def State.moveBlock (s : State) (ctx a b : Nat) : State :=
  let x : Exchange :=
    { placement := true, e1 := a, e2 := b, f1 := tBase (s.tileEntry a), f2 := tBase (s.tileEntry b), cursor := 0, rollback := false
      marked := true, drained := true, due := 0, per := 0, tail := 0, ctx := ctx, cmd := none, inc := 0, done := 0, linkLost := false }
  ((List.range 128).foldl (fun s l => s.swapLine x l) ((s.invalidate a).invalidate b)).settleEntries x true

/-- The RESIDENT entry of a layout whose block holds a frame. -/
def State.entryIn (s : State) (l : Lay) (pa : Nat) : Option Nat :=
  if 14 ≤ l.fmt then none
  else ((List.range (l.nblkm1 + 1)).map l.entry).find? fun ea =>
    let e := s.tileEntry ea
    tileOk e && tState e = 0 && tBase e = pa && !s.poisoned ea

/-- The entry of a context whose block holds a frame, and that of its void block in a frame that an exchange may take (R257, R362). -/
def State.entryOf (s : State) (c : Context) (pa : Nat) : Option Nat :=
  (List.range c.nlt).findSome? fun i => s.entryIn (Lay.of (s.layRaw c i)) pa
def State.voidIn (s : State) (id : Nat) (c : Context) (pa : Nat) : Option Nat :=
  (s.entryIn (Lay.of (s.layRaw c c.voidt)) pa).filter fun ea => (s.refusesBlock id (s.tileEntry ea)).isNone

/-- The image frames of a stored task move from core `p` to consecutive void frames of the context on core `q`, the lowest that there
are, and its record names them (R374); none where there are none. -/
def State.moveImages (s : State) (id p q addr : Nat) : Option State :=
  match s.ctx? id, (s.readRecord addr).matrix.area with
  | some _, none => some s
  | none, _ => none
  | some c, some (f, n) =>
    let void := fun (g i : Nat) => s.voidIn id c (nearFrame q (g + i))
    match (List.range (129 - n)).find? fun g => (List.range n).all fun i => (void g i).isSome with
    | none => none
    | some g =>
      let step := fun (s : State) (i : Nat) => match s.entryOf c (nearFrame p (f + i)), void g i with
        | some a, some b => s.moveBlock id a b
        | _, _ => s
      let s := (List.range n).foldl step s
      some (s.writeBytes (addr + 8 * areaWord) (valBytes 8 (2 ^ 63 + n % 256 * 256 + g % 256)))

/-- A record of the snapshot area cannot be loaded: it is poisoned, or a link to it is lost (R393, R399). -/
def State.recordFault (s : State) (addr : Nat) : Option (Cause × Nat) :=
  match s.recordStand addr with
  | .fail c => some (c, addr)
  | _ => (((List.range 256).map fun i => addr + 256 * i).find? s.poisoned).map fun a => (.uncorrectable, a)

/-- A stored task comes back to core `q` from core `p`; none while a core or a link is not free (R353, R374). Another core than its own
first has the old one stopped, evicted and thawed, and its images moved. -/
def State.restoreTask (s : State) (l : Launch) (p q : Nat) : Option State :=
  let addr := s.parkPlace l p
  let load := fun (s : State) =>
    if s.areaOwned q (s.readRecord addr) then some (((s.freezeCore q).loadRecord q addr).thawCore q) else none
  let s := s.setLaunch { l with parked := l.parked.filter (· ≠ p) }
  if !s.coreFree q || s.recordStand addr ≠ .ok then none
  else if p = q then load s
  else if s.evictStand p l.ctx ≠ .ok || !(s.cr p).stops.isEmpty then none
  else
    let t := if (s.cr p).freezeHeld then s.evict p l.ctx else ((s.freezeCore p).evict p l.ctx).thawCore p
    (t.moveImages l.ctx p q addr).bind load

/-- A task that a pre-emption has stored is restored once its core is free. A record that cannot be read is given up: its failure is
logged and reported by the walker (R393; DEDUCED, log 119). -/
def State.unpark (s : State) (l : Launch) : Option State :=
  l.parked.findSome? fun p =>
    let addr := s.parkPlace l p
    match s.recordFault addr with
    | some (c, a) =>
      let info := BitVec.ofNat 64 a
      let s := s.logError (s.unitOf a) c.code (if c = .uncorrectable then 0x08 else if c = .accessViolation then 0x03 else 0) l.ctx 5
        (s.primary - 512) info
      some ((s.setLaunch { l with parked := l.parked.filter (· ≠ p) }).walkerTrap l p 0 c info)
    | none => s.restoreTask l p (physical (s.binding l) (s.readRecord addr).regs.lcore.toNat)

/-- Starts walk ordinal `n` of the running phase on a logical core. -/
def State.startTask (s : State) (l : Launch) (n k : Nat) : State :=
  let p := physical (s.binding l) k
  let wid := l.widAt l.phase n
  let t : TaskId := { ctx := l.ctx, launch := l.id, phase := l.phase, ordinal := n, wid := wid, attempt := l.attempt }
  let payload := if phCont (l.record l.phase) then (l.walkOf l.phase)[n]? else none
  let c := s.cr p
  let s := s.setCr p (c.start t (hdrEntry l.hdr) (startRegs c.regs l.hdr wid payload k l.phase))
  let first := if l.rerun || l.placed.any (fun x => x.1 = l.phase && x.2.1 = n) then [] else [(l.phase, n, k)]
  (s.setLaunch { l with next := n + 1, lastStart := s.now, placed := l.placed ++ first }).goOn s.now l.id

/-- The effect of TASK_START: the walker of a running launch restores a stored task, or starts the next task of the phase if
its core is free, its predecessors have committed and its start cycle has come (R26, R27, R29, R30). Start offsets and slack hold in
a serialised re-run too (DESIGN CHOICE, log 100). -/
def startEff (s : State) (id : Nat) : Option State :=
  match s.launch? id with
  | none => none
  | some l =>
    if l.st ≠ .running && l.st ≠ .complete then none
    else match s.unpark l with
      | some t => some t
      | none =>
        if l.st ≠ .running then none
        else
        let n := l.next
        let time := match l.timed n with
          | some t => t ≤ s.now && s.now ≤ t + phSlack (l.record l.phase)
          | none => true
        if l.halted || l.mismatched || l.size l.phase ≤ n || !time then none
        else match s.predPoison l n with
          | some pa => some (s.predFails l n pa)
          | none => if s.predsCommitted l n then (s.pickCore l n).map fun k => s.startTask l n k else none

/-- The walk ordinal of the first timed task that has not started by the end of its slack (R30), for any reason of R27: an earlier task
that has not started is one. -/
def Launch.slip (l : Launch) (now : Nat) : Option Nat :=
  ((List.range (l.size l.phase)).drop l.next).find? fun n => match l.timed n with
    | some t => t + phSlack (l.record l.phase) < now
    | none => false

/-- The effect of SCHEDULE_SLIP (R30): a timed task that has not started by the end of its slack halts the walker. -/
def slipEff (s : State) (id : Nat) : Option State :=
  match s.launch? id with
  | none => none
  | some l =>
    if l.st ≠ .running || l.halted then none
    else (l.slip s.now).map fun n =>
      let d := s.binding l
      (s.setLaunch { l with halted := true, slipped := n }).walkerTrap l (physical d (n % groupN d)) (l.widAt l.phase n)
        .scheduleSlip 0

/-- The effect of WALKER_RESUME (R30): the rest of the walk is re-timed by the firmware's delta; the shipped firmware chooses the
lateness of the task that slipped. -/
def resumeEff (s : State) (id : Nat) : Option State :=
  match s.launch? id with
  | none => none
  | some l =>
    if !l.halted || l.st ≠ .running then none
    else
      let delta := match s.deltas, l.timed l.slipped with
        | d :: _, _ => d.toNat
        | [], some t => s.now - t
        | [], none => 0
      some { s.setLaunch { l with halted := false, delta := l.delta + delta } with deltas := s.deltas.tail }

/-! ### The commit of a task -/

/-- Engine commands of a task have still to deliver their increments (R34). -/
def State.cmdsOpen (s : State) (p : Nat) (t : TaskId) : Bool :=
  let c := s.cr p
  !c.aq.isEmpty || !c.dq.isEmpty || s.engines.any (·.task = t) || s.held.any (·.task = t)

/-- Stores and arrivals of a task that have left a core which no longer holds it (R110): its commit releases them too. -/
def State.leftBehind (s : State) (t : TaskId) : Bool :=
  s.cores.any fun x => x.2.stores.any (·.gone = some t) || x.2.gbArrives.any (·.gone = some t) || x.2.drain.away.any (·.1 = t)

/-- Work of a task in ENDING that is still to come (R34): D's rows, the increments of commands, returned values, and the stores that
its commit releases. -/
def State.outstanding (s : State) (p : Nat) (t : TaskId) : Bool :=
  let c := s.cr p
  !c.settled .d c.seq || (c.stores.any fun x => c.counts x.seq x.gone) || c.amos.any c.ownAmo ||
    (c.gbArrives.any fun x => c.counts x.seq x.gone) || s.cmdsOpen p t || s.leftBehind t

/-- An entry of a queue is present once every engine command has completed (R34). -/
def State.leftOver (s : State) (p : Nat) (t : TaskId) : Bool :=
  !s.cmdsOpen p t && (List.range 14).any fun q => !((s.cr p).q q).entries.isEmpty

/-! #### What the matrix engine still holds

R34 names none of it among the conditions of a commit, so it takes effect no later than the commit (DEDUCED, log 29). -/

/-- A slot or the plane pair that a use at the commit finds foreign is claimed at once (R280). -/
def State.claimNow (s : State) (p : Nat) (what : Option Nat) : State :=
  match (s.cr p).mustClaim what with
  | some w => match s.claimFault p w with
    | some (c, a) => s.logFail p c a (BitVec.ofNat 64 a)
    | none => ((s.saveOut p w).loadIn p w (s.cr p).ctxId).applyWrites
  | none => s

/-- A row in the array lands. -/
def State.landNow (s : State) (p : Nat) (r : ArrayRow) : State :=
  let s := s.claimNow p (some r.slot)
  let m := (s.cr p).matrix
  if ((s.cr p).mustClaim (some r.slot)).isSome then s
  else s.setMatrix p (match r.land with
    | .sums row x cols zero => m.addRow r.slot row x cols zero
    | .zeros => m.zeroSlot r.slot)

/-- A BIND reads its images to the end, at most `n` lines, and writes its rows. -/
def State.bindNow (s : State) (p slot : Nat) (srcs : List (Option Nat × List Nat)) : Nat → MCmd → State
  | 0, _ => s
  | n + 1, h =>
    if h.label < srcs.length then s.bindNow p slot srcs n (h.readImage s p 0 srcs)
    else
      let m := (s.cr p).matrix
      s.setMatrix p (((List.range 64).drop h.rows).foldl (fun (x : Matrix) r =>
        let (row, bad) := h.bindRow m r srcs
        let x := x.setRow slot r row
        if bad then { x with poison := (slot * 64 + r) :: x.poison } else x) m)

/-- A command of the matrix queue takes effect at once; none where it lacks queue entries, which it and what stands behind it never
get. -/
def State.commandNow (s : State) (p : Nat) (h : MCmd) : Option State :=
  let s := h.kind.uses.foldl (fun s w => s.claimNow p (some w)) s
  let m := (s.cr p).matrix
  match h.kind with
  | .stream .. => none
  | .free => some s
  | k =>
    if ((s.cr p).headClaim k).isSome then some s
    else match k with
      | .flip => some (s.setMatrix p { m with active1 := !m.active1 })
      | .zeroSlot x => some (s.setMatrix p (m.zeroSlot x))
      | .zero x => some (s.setMatrix p (match x with | some x => m.zeroSlot x | none => m))
      | .spill slot f _ =>
        some (((List.range 128).drop h.lines).foldl (fun s k => s.writeSlotLine m slot (nearFrame p f) k) s).applyWrites
      | .bind slot _ srcs => if h.start.isSome || srcs.isEmpty then some (s.bindNow p slot srcs 16500 h) else none
      | _ => some s

/-- The commands of the matrix queue take effect in order. -/
def State.commandsNow (s : State) (p : Nat) : List MCmd → State
  | [] => s
  | h :: hs => match s.commandNow p h with
    | some t => t.commandsNow p hs
    | none => s

/-- The rows in the array land, and the commands behind them take effect. -/
def State.finishMatrix (s : State) (p : Nat) : State :=
  let m := (s.cr p).matrix
  (m.rows.foldl (fun s r => s.landNow p r) s).commandsNow p m.queue

/-- A claim that the commit must make would read a save area behind a link that retrains (R399). -/
def State.claimWaits (s : State) (p : Nat) : Bool :=
  let m := (s.cr p).matrix
  (m.rows.map (·.slot) ++ m.queue.flatMap (·.kind.uses)).any fun w =>
    ((s.cr p).mustClaim (some w)).isSome && (s.claimAreas p w).any fun a => s.farLink a = .wait

/-- The plane loads of a task that commits reach their plane. -/
def State.finishPlanes (s : State) (p : Nat) : State :=
  ((s.cr p).aloads.filter (·.kind.planes)).foldl (fun s l =>
    match s.loadArrives p l with
    | some t => if (t.cr p).stops.isEmpty then t else s
    | none => s) s

/-- The records that the commit of a task adds find no room in its group's queue (R33, R336): every record of the group counts, those
that are held for walk order among them. -/
def State.contsBlocked (s : State) (l : Launch) (n : Nat) : Bool :=
  let ls := s.launches.filter fun k => k.ctx = l.ctx && k.group = l.group
  let held := (ls.map fun k => (k.heldConts.map (·.2.length)).sum).sum
  n ≠ 0 && 65536 < (s.group l.ctx l.group).queue.length + held + n

/-- What keeps a task in ENDING from its commit, as an object of R343. -/
def State.commitWait (s : State) (p : Nat) : Option Wait :=
  let c := s.cr p
  match c.task with
  | none => none
  | some t =>
    if !c.c.ended || c.c.bp then none
    else if s.outstanding p t || s.claimWaits p then some (.object 0 17)
    else match s.launch? t.launch with
      | some l => if s.contsBlocked l c.conts.length then some (.object 0 16) else none
      | none => none

/-- The digest of a task (R37). -/
def Core.taskDigest (c : Core) : DWord :=
  crcBytes 0 ([c.c.digest, c.a.digest, c.k.digest, c.d.digest].flatMap fun d => valBytes 8 d.toNat)

/-- Appends the records of committed tasks to the group's queue: in commit order, or in determinism mode in walk order, once
every earlier task has committed (R33). -/
def State.appendConts (s : State) (l : Launch) (phase n : Nat) (rs : List ContRec) : Launch × State :=
  let add := fun (s : State) (rs : List ContRec) =>
    let g := s.group l.ctx l.group
    let rs := rs.map fun r => { r with launch := l.id, phase := phase }
    if rs.isEmpty then s else s.setGroup l.ctx l.group { g with queue := g.queue ++ rs }
  if !hdrDet l.hdr then (l, add s rs)
  else
    let held := sortBy (·.1) (l.heldConts ++ [(n, rs)])
    let done := fun (k : Nat) => (List.range k).all fun j => l.commits.any fun x => x.1 = l.phase && x.2.1 = j
    let go := held.takeWhile fun x => done x.1
    ({ l with heldConts := held.drop go.length }, go.foldl (fun s x => add s x.2) s)

/-- Commits the task of a core in the order of R34. -/
def State.commitTask (s : State) (p : Nat) (t : TaskId) (l : Launch) : State :=
  let c := s.cr p
  let l := { l with
    commits := l.commits ++ [(t.phase, t.ordinal, s.now)], wrote := l.wrote ++ c.wrote
    digests := if hdrDet l.hdr then l.digests ++ [(t.ordinal, c.taskDigest)] else l.digests }
  let (l, s) := s.appendConts l t.phase t.ordinal c.conts
  let s := (s.setLaunch l).setCommitBit l t.phase t.ordinal true
  let s := ((s.finishPlanes p).finishMatrix p).dropTask p
  let s := if l.st = .complete && s.noTasks l then s.forget l.id false else s
  if l.phaseDone t.phase then
    match s.closePhase l t.phase p t.wid with
    | (s, false) => s.goOn (s.now + 1) l.id
    | (s, true) => match s.launch? l.id with
      | some l => s.finish l 6 .aborted false
      | none => s
  else s.goOn (s.now + 1) l.id

/-- The effect of TASK_COMMIT: a task in ENDING whose conditions hold commits; an entry left in a queue raises QUEUE_MISUSE
at its TEND, and the task stays in ENDING (R34, R330, R396). -/
def taskCommitEff (s : State) (p : Nat) : Option State :=
  let c := s.cr p
  match c.task with
  | none => none
  | some t =>
    if !c.c.ended || c.c.bp || c.frozen || !c.stops.isEmpty then none
    else if s.leftOver p t then some (s.takeTrap p .c c.c.lane .queueMisuse 0 0 0 0)
    else if s.outstanding p t || s.claimWaits p then none
    else match s.launch? t.launch with
      | none => none
      | some l => if s.contsBlocked l c.conts.length then none else some (s.commitTask p t l)

/-! ### The steps -/

/-- TASK_START (R28). -/
def execTaskStart (l : Nat) (s : State) : Host.Outcome State Fault Refusal := event (startEff s l) s

/-- SCHEDULE_SLIP (R30). -/
def execScheduleSlip (l : Nat) (s : State) : Host.Outcome State Fault Refusal := event (slipEff s l) s

/-- WALKER_RESUME (R30). -/
def execWalkerResume (l : Nat) (s : State) : Host.Outcome State Fault Refusal := event (resumeEff s l) s

/-- TASK_COMMIT (R34). -/
def execTaskCommit (p : Nat) (s : State) : Host.Outcome State Fault Refusal := event (taskCommitEff s p) s

end Sys2Proof.Machine
end

