-- ==== Sys2Proof/Machine/Launches.lean ====
section
/-! DEFINITION. Launch queues (R332-R335) and the LAUNCH instruction (R148), the acceptance of a launch (R349-R352),
pre-emption (R353), and the yardmaster's recovery: abort, roll-back and serialised re-run (R38, R354, R394). -/

namespace Sys2Proof.Machine

/-! ### The checks of a launch (R350, R351) -/

/-- Goes on with what a check has given. -/
def Check.bind {α β : Type} (x : Check α) (f : α → Check β) : Check β :=
  match x with
  | .ok v => f v
  | .wait => .wait
  | .fail c p => .fail c p

/-- The machine as a kernel's reads change it, with what they have given: a read that has been made is not made again, so that a later
store changes nothing of it (R310, R351). -/
abbrev Reader := State × Reads

/-- Who reads for a launch: the shed, the context's number and the context. -/
abbrev ReadFor := Nat × Nat × Context

/-- A read of `n` bytes for the walker: status 3 where it fails. -/
def Reader.check (x : Reader) (w : ReadFor) (va : DWord) (n phase : Nat) : Check Nat × Reader :=
  match x.2.find? fun r => r.1 = va && r.2.1 = n with
  | some r => (match r.2.2 with | some v => .ok v | none => .fail 3 phase, x)
  | none => match x.1.readVa w.1 w.2.1 w.2.2 va n with
    | (.data bs, s) => (.ok (bytesVal bs), (s, (va, n, some (bytesVal bs)) :: x.2))
    | (.wait, s) => (.wait, (s, x.2))
    | (.fail, s) => (.fail 3 phase, (s, (va, n, none) :: x.2))

/-- What follows a read that has not failed is read too, so that only what waits is read later; the first wait or failure counts. -/
def Check.andThen {α β : Type} (x : Check α × Reader) (f : Reader → Check β × Reader) : Check (α × β) × Reader :=
  match x.1 with
  | .fail c p => (.fail c p, x.2)
  | .wait => (.wait, (f x.2).2)
  | .ok v => let (w, r) := f x.2; (w.bind fun w => .ok (v, w), r)

/-- Reads `n` words of `k` bytes each. -/
def Reader.table (w : ReadFor) (k phase : Nat) : Nat → DWord → Reader → Check (List Nat) × Reader
  | 0, _, x => (.ok [], x)
  | n + 1, va, x =>
    let (v, x) := Check.andThen (x.check w va k phase) (Reader.table w k phase n (va + BitVec.ofNat 64 k))
    (v.bind fun y => .ok (y.1 :: y.2), x)

/-- The header's own rules (R345, R350 code 1). -/
def headerOk (h : BitVec 512) : Bool :=
  bits h.toNat 320 192 = 0 && bits h.toNat 56 8 = 0 && bits h.toNat 37 3 = 0 &&
  ((List.range 6).all fun k => hdrWidth h k ≤ 32) && hdrLow h 6 ≤ 64 && hdrBinds h ≤ 64 &&
  (!hdrDig h || hdrDet h) && (hdrDig h || hdrDtab h = 0) &&
  (hdrEntry h).toNat % 32 = 0 && (hdrBtab h).toNat % 2 = 0 && (hdrPtab h).toNat % 128 = 0 && (hdrDtab h).toNat % 8 = 0

/-- A binding-table entry (R346). -/
def bindOk (b : Nat) : Bool := bits b 12 2 = 0 && !(bit b 14 && (bits b 0 12 ≠ 0 || bit b 15))

/-- A phase record's own rules (R24, R347, R350 code 2). -/
def phaseOk (h : BitVec 512) (p : Nat) (r : BitVec 1024) : Bool :=
  let order := (List.range 6).map (phOrder r)
  bits r.toNat 246 10 = 0 && bits r.toNat 640 384 = 0 && phPreds r ≤ 4 &&
  bits r.toNat (320 + 3 * phPreds r) (64 - 3 * phPreds r) = 0 &&
  ((List.range (phPreds r)).all fun i => phDist r i ≠ 0 && phDist r i ≤ p) &&
  (phCont r ||
    (((List.range 6).all fun k => phCount r k ≤ 2 ^ hdrWidth h k && order.contains k) && walkSize r ≤ 2 ^ 24 &&
      (phOfftab r).toNat % 4 = 0))

/-- A check of what has been read: a failure with its code where it breaks a rule. -/
def Check.rule {α : Type} (x : Check α × Reader) (f : α → Bool) (code phase : Nat) : Check α × Reader :=
  (x.1.bind fun v => if f v then .ok v else .fail code phase, x.2)

/-- A phase record with its offsets. -/
def Reader.phase (w : ReadFor) (h : BitVec 512) (p : Nat) (x : Reader) : Check (BitVec 1024 × List Nat) × Reader :=
  let (v, x) := Check.rule (x.check w (hdrPtab h + BitVec.ofNat 64 (128 * p)) 128 p) (fun n => phaseOk h p (BitVec.ofNat 1024 n)) 2 p
  match v with
  | .ok n =>
    let r : BitVec 1024 := BitVec.ofNat 1024 n
    let m := if phCont r || phFree r || phOfftab r = 0 then 0 else walkSize r
    let (os, x) := Reader.table w 4 p m (phOfftab r) x
    (os.bind fun os => .ok (r, os), x)
  | .wait => (.wait, x)
  | .fail c q => (.fail c q, x)

/-- The phase records from `p` on, each with its offsets. -/
def Reader.phases (w : ReadFor) (h : BitVec 512) : Nat → Nat → Reader → Check (List (BitVec 1024 × List Nat)) × Reader
  | 0, _, x => (.ok [], x)
  | n + 1, p, x =>
    let (v, x) := Check.andThen (Reader.phase w h p x) (Reader.phases w h n (p + 1))
    (v.bind fun y => .ok (y.1 :: y.2), x)

/-- What a launch of the header at an address is to run: the steps 2 and 3 of R351, and the digest table that a header with
`DIG` set names (R348), read with them (DEDUCED, log 24). -/
def Reader.kernel (w : ReadFor) (khdr : DWord) (x : Reader) : Check KernelText × Reader :=
  let (v, x) := Check.rule (x.check w khdr 64 0) (fun n => headerOk (BitVec.ofNat 512 n)) 1 0
  match v with
  | .ok n =>
    let h : BitVec 512 := BitVec.ofNat 512 n
    let binds := Check.rule (Reader.table w 2 0 (hdrBinds h) (hdrBtab h) x) (·.all bindOk) 1 0
    let (y, x) := Check.andThen binds fun x => Check.andThen (Reader.phases w h (hdrPhases h) 0 x) fun x =>
      Reader.table w 8 0 (if hdrDig h then hdrPhases h else 0) (hdrDtab h) x
    (y.bind fun y => .ok ⟨h, y.1.map (BitVec.ofNat 16), y.2.1.map (·.1), y.2.1.map (·.2), y.2.2.map (BitVec.ofNat 64)⟩, x)
  | .wait => (.wait, x)
  | .fail c p => (.fail c p, x)

/-! ### Queues -/

/-- A launch queue by number. -/
def State.lq (s : State) (q : Nat) : LaunchQueue := Sparse.get {} s.lqs q
def State.setLq (s : State) (q : Nat) (x : LaunchQueue) : State := { s with lqs := Sparse.put s.lqs q x }

/-- The effective level of a queue's head (R335): `PRIO` and the levels it has risen, at most 3. -/
def LaunchQueue.level (x : LaunchQueue) : Nat := min 3 (x.prio.toNat + x.elev)

/-- A launch record is well formed (R349). -/
def recordOk (r : BitVec 512) : Bool :=
  bits r.toNat 96 32 = 0 && bits r.toNat 288 224 = 0 && bits r.toNat 0 6 = 0 && bits r.toNat 128 3 = 0 &&
    inYard (bits r.toNat 128 64)

/-- The 64 bytes at an address. -/
def State.record64 (s : State) (pa : Nat) : BitVec 512 := BitVec.ofNat 512 (s.readNat pa 64)

/-- The shed of a group's logical core 0, whose TLB its launches' walker reads through (DESIGN CHOICE, log 95). -/
def State.walkerShed (s : State) (ctx g : Nat) : Nat := shedOf (physical (s.group ctx g).desc 0)

/-- What a kernel reads as for a group of a context, whose reads go on from those made: each at the push, or in the first cycle after it
in which it waits for no block, so that a store made after the push changes nothing (R310, R351; DEDUCED, log 40). -/
def State.readText (s : State) (ctx g : Nat) (khdr : DWord) (got : Reads) : Check KernelText × Reader :=
  match s.ctx? ctx with
  | none => (.wait, s, got)
  | some c => Reader.kernel (s.walkerShed ctx g, ctx, c) khdr (s, got)
def State.kernelPushed (s : State) (r : BitVec 512) (got : Reads) : Check KernelText × Reader :=
  s.readText (bits r.toNat 64 16) (bits r.toNat 80 16) (r.extractLsb' 0 64) got

/-- The accesses that the push of a record releases have taken place (R148, R308). -/
def State.released (s : State) (h : Option (Nat × Nat)) : Bool :=
  match h with
  | some (p, seq) => (s.cr p).settled .c seq
  | none => true

/-- Pushes a record, `none` where it is malformed or unreadable: its status, which `LAST` keeps (R333). A push with status 0
rings the primary yardmaster's doorbell. Its kernel is read now, or once what a LAUNCH releases has taken place. -/
def State.push (s : State) (q : Nat) (r : Option (BitVec 512)) (hold : Option (Nat × Nat)) : Nat × State :=
  let x := s.lq q
  let put := fun (n : Nat) => (n, s.setLq q { x with last := BitVec.ofNat 2 n })
  match r with
  | none => put 3
  | some r =>
    if !recordOk r then put 3
    else if x.st ≠ .opened then put 2
    else if 16 ≤ x.recs.length then put 1
    else
      let (v, t, got) := if s.released hold then s.kernelPushed r [] else (.wait, s, [])
      (0, (t.setLq q { x with last := 0, recs := x.recs ++ [⟨r, v, got, hold⟩] }).raiseYip 1)

/-- A pushed value names a record that can be read: bits [63:56] and the low `k` bits are zero (R333, R381, R415). -/
def State.pushed (s : State) (v : DWord) (k : Nat) : Option Nat :=
  let pa := v.toNat
  if 2 ^ 56 ≤ pa || pa % 2 ^ k ≠ 0 || !s.readable pa || (s.peer? pa).isSome || s.poisoned pa then none else some pa

/-- The effect of LAUNCH_QUEUE_PUSH: an 8-byte store to `LQPUSH` of a queue. -/
def State.queuePush (s : State) (q : Nat) (v : DWord) : State := (s.push q ((s.pushed v 6).map s.record64) none).2

/-- The reads of a record that has waited for blocks, or for what its push releases, go on; none where nothing more has come. -/
def State.rereadOne (s : State) (r : LqRecord) : Option (LqRecord × State) :=
  if r.text ≠ .wait || !s.released r.hold then none
  else match s.kernelPushed r.bits r.got with
    | (v, t, got) => if v = .wait && got.length = r.got.length then none else some ({ r with text := v, got := got, hold := none }, t)

/-- The first record of a queue whose reads go on. -/
def State.reread (s : State) : List LqRecord → Option (List LqRecord × State)
  | [] => none
  | r :: rest => match s.rereadOne r with
    | some (x, t) => some (x :: rest, t)
    | none => (State.reread s rest).map fun x => (r :: x.1, x.2)

/-- The reads of a pushed record that waited go on. -/
def rereadEff (s : State) (q : Nat) : Option State :=
  let x := s.lq q
  (s.reread x.recs).map fun r => r.2.setLq q { x with recs := r.1 }

/-- The launch record at an address as core `p` sees it: with the stores that it has made (R310). -/
def State.launchRecord (s : State) (p : Nat) (t : Target) : BitVec 512 :=
  let load := fun (i : Nat) => ({ dst := none, va := 0, pa := t.pa + 8 * i, size := 8, signed := false, kind := t.kind
                                  seq := (s.cr p).seq, due := s.now, issued := (s.cr p).clk } : LinLoad)
  BitVec.ofNat 512 (bytesVal ((List.range 8).flatMap fun i => s.loadBytes p (load i)))

/-- LAUNCH (R148): the record lies at a virtual address of the task, so its checks are exceptions. It never waits: the record is read at
once, with C's own stores, and the push releases at system scope, for the launch is taken only when C's earlier accesses have taken
place (R308, R310). A record in a poisoned line or in a peer's window could not be read (DESIGN CHOICE, log 99: status 3, as R333 has
it for `LQPUSH`). The ready time of s[d] is 0 (DESIGN CHOICE, log 120). -/
def execLaunch (w : BitVec 2) (d a b : BitVec 5) (s : State) : Host.Outcome State Fault Refusal :=
  run (.launch w d a b) w (do
    let va ← readS a
    let v ← readS b
    require (va.toNat % 64 = 0) .alignment va
    let t ← resolve .load va 8
    let s ← get
    let q := v.toNat % 64
    require ((s.lq q).ctx.toNat = s.me.ctxId) .accessViolation
    let r := if 64 ≤ v.toNat || s.poisoned t.pa || (s.peer? t.pa).isSome then none else some (s.launchRecord s.core t)
    let (n, s) := s.push q r (if s.me.settled .c s.me.seq then none else some (s.core, s.me.seq))
    set s
    writeS d (BitVec.ofNat 64 n)) s

/-- The commands of `LQCTL` (R334); a command that the table does not list for the state is ignored. -/
def State.openQueue (s : State) (q : Nat) : State :=
  let x := s.lq q
  if x.st = .disabled || x.st = .closed then s.setLq q { x with st := .opened } else s
def State.quiesceQueue (s : State) (q : Nat) : State :=
  let x := s.lq q
  if x.st ≠ .opened then s
  else
    let runs := s.launches.any fun l => l.active && l.queue = q
    s.setLq q { x with st := if runs then .quiescing else .closed }
def State.disableQueue (s : State) (q : Nat) : State :=
  let x := s.lq q
  if x.st ≠ .closed then s else s.setLq q { x with st := .disabled, recs := [], elev := 0, aged := 0 }

/-- The effect of LAUNCH_AGING_TICK: the head of an OPEN queue has waited another 2^24 cycles. -/
def agingEff (s : State) (q : Nat) : Option State :=
  let x := s.lq q
  if x.st = .opened && !x.recs.isEmpty && 2 ^ 24 ≤ x.aged && x.level < 3 then
    some (s.setLq q { x with elev := x.elev + 1, aged := 0 })
  else none

/-! ### Taking a record -/

/-- The context and group that a record names, if the group is bound (R350 code 4, R359). -/
def State.recordGroup (s : State) (q : Nat) (r : BitVec 512) : Option (Nat × Nat) :=
  let ctx := bits r.toNat 64 16
  let g := bits r.toNat 80 16
  match s.ctx? ctx with
  | none => none
  | some c =>
    let st := (c.group g).st
    if ctx = (s.lq q).ctx.toNat && !c.destroying && g < c.ngrp && (st = .bound || st = .running || st = .frozen) then
      some (ctx, g)
    else none

/-- The launches of a group that are not ended. -/
def State.launchesOf (s : State) (ctx g : Nat) : List Launch :=
  s.launches.filter fun l => l.ctx = ctx && l.group = g && l.active

/-- The head record of an OPEN queue can be taken: what its push releases has taken place, and its group holds no launch at the same or
a higher level (R352). -/
def State.takeable (s : State) (q : Nat) : Bool :=
  let x := s.lq q
  x.st = .opened && match x.recs with
    | [] => false
    | r :: _ => s.released r.hold && match s.recordGroup q r.bits with
      | none => true
      | some (ctx, g) => (s.launchesOf ctx g).all fun l => l.level < x.level

/-- The queue that is served next (R335): the highest effective level, round-robin after the queue last served at it. -/
def State.nextQueue (s : State) : Option Nat :=
  let qs := (List.range 64).filter s.takeable
  match (List.range 4).reverse.find? fun v => qs.any fun q => (s.lq q).level = v with
  | none => none
  | some v =>
    let at_ := qs.filter fun q => (s.lq q).level = v
    let last := s.lastServed.getD v 63
    match at_.find? fun q => last < q with
    | some q => some q
    | none => at_.head?

/-- The primary yardmaster runs its firmware (R17). -/
def State.firmwareRuns (s : State) : Bool := !(s.yard s.primary).inReset && !(s.yard s.primary).halted

/-- A record at level 3 stops the running launch of its group: its tasks are frozen and their snapshots taken (R353). -/
def State.parkTasks (s : State) (l : Launch) : State :=
  let cs := s.coresOf l.id
  let s := cs.foldl (fun s p => s.storeRecord p (s.parkPlace l p)) s
  s.setLaunch { l with st := .preempted, parked := l.parked ++ cs }

/-- Pre-empts the running launch of a group for a record at a level (R353, R360). -/
def State.preempt (s : State) (ctx g level : Nat) : State :=
  match (s.launchesOf ctx g).find? (·.st = .running) with
  | none => s
  | some l =>
    if level = 3 then
      let s := s.parkTasks l
      s.setGroup ctx g { s.group ctx g with st := .frozen }
    else s.setLaunch { l with st := .preempted }

/-- A launch from its record. -/
def launchOf (id q level : Nat) (r : BitVec 512) : Launch :=
  { id := id, queue := q, level := level, ctx := bits r.toNat 64 16, group := bits r.toNat 80 16
    stat := bits r.toNat 128 64, msia := bits r.toNat 192 64, msid := BitVec.ofNat 32 (bits r.toNat 256 32)
    khdr := r.extractLsb' 0 64, hdr := 0, binds := [], phases := [], offs := [] }

/-- The checks of a launch that has been taken: it is refused, or accepted in this cycle, or waits for a block (R351). One whose group
has been released since, or contained, or whose context is destroyed, is refused as its record would be: an ACCEPTING launch becomes
RUNNING or REFUSED and nothing else (R354, R360). -/
def State.accept (s : State) (l : Launch) : Option State :=
  let g := (s.group l.ctx l.group).st
  let dead := match s.ctx? l.ctx with | some c => c.destroying | none => true
  if dead || !(g = .bound || g = .running || g = .frozen) then some (s.finish l 4 .refused false)
  else
    let (v, s, got) : Check KernelText × Reader := match l.pushed with
      | .wait => s.readText l.ctx l.group l.khdr l.got
      | x => (x, s, l.got)
    match v with
    | .wait => if got.length = l.got.length then none else some (s.setLaunch { l with got := got })
    | .fail code p => some (s.finish { l with phase := p } code .refused false)
    | .ok x =>
      let l := { l with
        hdr := x.hdr, binds := x.binds, phases := x.phases, offs := x.offs, recorded := x.recorded, st := .running }
      let s := (s.setLaunch l).setGroup l.ctx l.group { s.group l.ctx l.group with st := .running }
      some (s.beginPhase l 0 s.now)

/-- A link to the places where a level-3 pre-emption stores the tasks of a group retrains (R399). -/
def State.parkWaits (s : State) (ctx g : Nat) : Bool :=
  match (s.launchesOf ctx g).find? (·.st = .running) with
  | some l => (s.coresOf l.id).any fun p => s.recordStand (s.parkPlace l p) = .wait
  | none => false

/-- The effect of LAUNCH_TAKE on a queue: its launch in ACCEPTING goes on with its checks, or the queue's head record is
taken in its turn. One launch is in ACCEPTING at a time. -/
def takeEff (s : State) (q : Nat) : Option State :=
  match s.launches.find? (·.st = .accepting) with
  | some l => if l.queue = q then s.accept l else none
  | none =>
    let x := s.lq q
    match x.recs with
    | [] => none
    | r :: rest =>
      let g := s.recordGroup q r.bits
      if !s.firmwareRuns || s.nextQueue ≠ some q || (x.level = 3 && g.any fun y => s.parkWaits y.1 y.2) then none
      else
        let l := { launchOf s.nextLaunch q x.level r.bits with pushed := r.text, got := r.got }
        let s := s.setLq q { x with recs := rest, elev := 0, aged := 0 }
        let s := { s with lastServed := s.lastServed.setIfInBounds x.level q, nextLaunch := s.nextLaunch + 1 }
        match g with
        | none => some (({ s with launches := s.launches ++ [l] }).finish l 4 .refused false)
        | some (ctx, g) =>
          let s := s.preempt ctx g x.level
          let s := { s with launches := s.launches ++ [l] }
          some ((s.accept l).getD s)

/-! ### Recovery -/

/-- The effect of LAUNCH_ABORT: a running or pre-empted launch ends with an abort status (R354). -/
def abortEff (s : State) (id code : Nat) : Option State :=
  match s.launch? id with
  | some l =>
    if (l.st = .running || l.st = .preempted) && 5 ≤ code && code ≤ 7 then some (s.finish l code .aborted false) else none
  | none => none

/-- The place in a group's queue, counted from its creation, of the first record that a continuation walk of a launch has enumerated. -/
def walkFirst (x : Nat × List ContRec × Nat) : Nat := x.2.2 - x.2.1.length

/-- A record that a launch's walks have enumerated, by its place. -/
def Launch.contAt (l : Launch) (n : Nat) : Option ContRec :=
  l.walkConts.findSome? fun x => if walkFirst x ≤ n && n < x.2.2 then x.2.1[n - walkFirst x]? else none

/-- A group's queue as a roll-back to the start of a phase leaves it (R336): what that phase and later ones have enumerated comes
back, what their commits have appended goes, and everything else stays. -/
def Launch.queueBack (l : Launch) (g : Group) (p : Nat) : Group :=
  let later := l.walkConts.filter (p ≤ ·.1)
  let closed := ((l.walkConts.filter (·.1 < p)).map (·.2.2)).foldl max 0
  let first := max closed ((later.map walkFirst).foldl min g.gone)
  let keep := fun (r : ContRec) => !(r.launch = l.id && p ≤ r.phase)
  let back := (List.range (g.gone - first)).filterMap fun i => l.contAt (first + i)
  { g with queue := (back ++ g.queue).filter keep, gone := min g.gone first }

/-- A phase starts again from its recovery point (R38, R394): tasks that have started are discarded, the commits and commit bits of
it and of later phases are taken back, and the continuation queue is restored. Its base cycle is that of the restart, for which the
spec lists no case (DESIGN CHOICE, log 101). -/
def State.restartPhase (s : State) (l : Launch) (p : Nat) : State :=
  let s := s.dropTasks l.id
  let s := s.setGroup l.ctx l.group (l.queueBack (s.group l.ctx l.group) p)
  let s := ((List.range l.sizes.length).drop p).foldl (fun s k => s.clearPlane l k) s
  let s := { s with
    rounds := s.rounds.filter fun r => !(r.launch = l.id && p ≤ r.phase)
    held := s.held.filter (·.task.launch ≠ l.id)
    lateAmos := s.lateAmos.filter (·.task.launch ≠ l.id) }
  let l := { l with
    commits := l.commits.filter (·.1 < p), parked := [], attempt := l.attempt + 1, wrote := []
    walkConts := l.walkConts.filter (·.1 < p) }
  (s.setLaunch l).beginPhase l p s.now

/-- The first phase with a task that has not committed: the recovery point is its start. -/
def Launch.runningPhase (l : Launch) : Nat := ((List.range l.sizes.length).find? fun p => !l.phaseDone p).getD l.phase

/-- Sixty-four bytes of a trap ring's entry. -/
def ringEntry (ws : List DWord) : List Byte := (List.range 8).flatMap fun i => valBytes 8 (ws.getD i 0).toNat

/-- The ring's producer and consumer indices; entry `i` stands at place `i` modulo the ring's size (DEDUCED, log 30). -/
def State.ringIndex (s : State) (c : Context) : Nat × Nat := (s.readNat c.ring 8, s.readNat (c.ring + 8) 8)

/-- The trap ring of a context has room for `n` entries (R419). -/
def State.ringRoom (s : State) (c : Context) (n : Nat) : Bool :=
  let (p, q) := s.ringIndex c
  (p + 2 ^ 64 - q) % 2 ^ 64 + n ≤ 2 ^ c.trl2

/-- Writes entries to a context's trap ring, advances the producer index, and sends the MSI (R390, R419). -/
def State.writeRing (s : State) (c : Context) (es : List (List Byte)) : State :=
  let (p, _) := s.ringIndex c
  let put := fun (s : State) (x : List Byte × Nat) => s.writeBytes (c.ring + 64 + 64 * ((p + x.2) % 2 ^ c.trl2)) x.1
  let s := (es.zipIdx).foldl put s
  let s := s.writeDw c.ring (BitVec.ofNat 64 (p + es.length))
  s.msi (BitVec.ofNat 64 c.msia) c.msid

/-- The entries of an error record (R394): the trap record, then up to 64 ranges, four to an entry. More than 64 are marked by bit 63
of the header word, word 0 of the record, which is clear otherwise (DEDUCED, log 98). -/
def errorRecord (r : List DWord) (ranges : List (DWord × DWord)) : List (List Byte) :=
  let xs := ranges.take 64
  let head := (r.getD 0 0 &&& 0x7FFFFFFFFFFFFFFF) ||| (if 64 < ranges.length then 0x8000000000000000 else 0)
  ringEntry (head :: r.drop 1) :: (List.range (ceilDiv xs.length 4)).map fun i =>
    ringEntry (((xs.drop (4 * i)).take 4).flatMap fun x => [x.1, x.2])

/-- The ranges that a launch has written since its recovery point (DEDUCED, log 31). -/
def State.wroteOf (s : State) (l : Launch) : List (DWord × DWord) :=
  l.wrote ++ (s.coresOf l.id).flatMap fun p => (s.cr p).wrote

/-- The frames that hold a block, two while an exchange moves it. -/
def State.blockFrames (s : State) (c : Context) (lay blk : Nat) : List Nat :=
  let e := s.tileEntry ((Lay.of (s.layRaw c lay)).entry blk)
  let base := fun (e : BitVec 128) => tBase e / 32768
  if tState e = 1 || tState e = 2 then [base e, base (s.tileEntry (tPartner e))] else [base e]

/-- The place of a virtual address of a context, if it can be reached. -/
def State.placeOf (s : State) (c : Context) (va : DWord) : Option Nat :=
  match s.reach .load (s.translate [] c.asid c.root va) [] (some c) 2094 va with
  | .at pa _ => some pa
  | _ => none

/-- A line lies in what a range of an error record names: in a frame of its blocks, or it is a line that its bytes touch. -/
def State.rangeHolds (s : State) (c : Context) (pa : Nat) (x : DWord × DWord) : Bool :=
  let start := bits x.1.toNat 0 56
  if bits x.1.toNat 62 2 = 1 then
    (List.range x.2.toNat).any fun k =>
      (s.blockFrames c (start / 2 ^ 44) (start % 2 ^ 24 + k)).contains (pa / 32768)
  else [start, start + x.2.toNat - 1].any fun va =>
    match s.placeOf c (BitVec.ofNat 64 va) with
    | some a => a / 256 = pa / 256
    | none => false

/-- The poison that a record reports lies in what the phase has written, in a slot, in a plane or in a snapshot: a re-run repairs it
(R394; which address names which, DEDUCED, log 31): the 96 MiB from `SNAPA` hold the snapshots (R362). A record of C gives a virtual
address, any other the logged one. -/
def State.repairable (s : State) (c : Context) (ranges : List (DWord × DWord)) (r : List DWord) : Bool :=
  let addr := r.getD 3 0
  let near := if bits (r.getD 0 0).toNat 20 3 = 0 then s.placeOf c addr else none
  let pa := near.getD (addr.toNat % 2 ^ 56)
  addr = 0 || (c.snapa ≤ pa && pa < c.snapa + 3 * 2 ^ 25) || ranges.any (s.rangeHolds c pa)

/-- What an UNCORRECTABLE is known by when it comes again (R394): its address, or its whole record where it names none, as for a slot or
a plane. -/
def poisonKey (r : List DWord) : List DWord := if r.getD 3 0 = 0 then r else [r.getD 3 0]

/-- The effect of PHASE_ROLL_BACK (R394). Poison in data committed before the phase, and a second UNCORRECTABLE at an address of the
same phase, abort the launch. The error record goes to the trap ring, once it has room. -/
def rollBackEff (s : State) (id : Nat) : Option State :=
  match s.launch? id with
  | none => none
  | some l =>
    if l.st ≠ .running then none
    else
      match s.ctx? l.ctx with
      | none => none
      | some c =>
        let key := poisonKey s.fwRecord
        let ranges := s.wroteOf l
        let es := errorRecord s.fwRecord ranges
        if !s.ringRoom c es.length then none
        else
          let t := s.writeRing c es
          if l.repaired.contains key || !s.repairable c ranges s.fwRecord then some (t.finish l 5 .aborted false)
          else
            let t := t.restartPhase l l.runningPhase
            match t.launch? id with
            | some k => some (t.setLaunch { k with repaired := key :: l.repaired })
            | none => some t

/-- The effect of SERIALISED_RE_RUN (R38). -/
def reRunEff (s : State) (id : Nat) : Option State :=
  match s.launch? id with
  | none => none
  | some l =>
    if l.st ≠ .running || !l.mismatched then none
    else some (s.restartPhase { l with rerun := true, mismatched := false } l.phase)

/-! ### The steps -/

/-- LAUNCH_TAKE (R351). -/
def execLaunchTake (q : Nat) (s : State) : Host.Outcome State Fault Refusal := event (takeEff s q) s

/-- LAUNCH_AGING_TICK (R335). -/
def execLaunchAgingTick (q : Nat) (s : State) : Host.Outcome State Fault Refusal := event (agingEff s q) s

/-- LAUNCH_QUEUE_PUSH (R333). -/
def execLaunchQueuePush (q : Nat) (v : BitVec 64) (s : State) : Host.Outcome State Fault Refusal := .next (s.queuePush q v)

/-- LAUNCH_QUEUE_OPEN (R334). -/
def execLaunchQueueOpen (q : Nat) (s : State) : Host.Outcome State Fault Refusal := .next (s.openQueue q)

/-- LAUNCH_QUEUE_QUIESCE (R334). -/
def execLaunchQueueQuiesce (q : Nat) (s : State) : Host.Outcome State Fault Refusal := .next (s.quiesceQueue q)

/-- LAUNCH_QUEUE_DISABLE (R334). -/
def execLaunchQueueDisable (q : Nat) (s : State) : Host.Outcome State Fault Refusal := .next (s.disableQueue q)

/-- LAUNCH_ABORT (R354). -/
def execLaunchAbort (l code : Nat) (s : State) : Host.Outcome State Fault Refusal := event (abortEff s l code) s

/-- PHASE_ROLL_BACK (R394). -/
def execPhaseRollBack (l : Nat) (s : State) : Host.Outcome State Fault Refusal := event (rollBackEff s l) s

/-- SERIALISED_RE_RUN (R38). -/
def execSerialisedReRun (l : Nat) (s : State) : Host.Outcome State Fault Refusal := event (reRunEff s l) s

end Sys2Proof.Machine
end

