-- ==== Sys2Proof/Machine/Sha.lean ====
section
/-! DEFINITION. SHA-512, which R413 and R414 name (PRESUMED, log 28: the function itself is FIPS 180-4's), and the signature scheme of
R413 over it (PRESUMED, log 121: RFC 8017's). The constants are computed from the primes that define them. -/

namespace Sys2Proof.Machine

/-- The `n`th root of `v`, rounded down, below `r + 2 ^ bits`: its bits from the highest on. -/
def rootFrom (n v : Nat) : Nat → Nat → Nat
  | 0, r => r
  | bits + 1, r => rootFrom n v bits (if (r + 2 ^ bits) ^ n ≤ v then r + 2 ^ bits else r)

/-- The first 64 bits behind the point of the `n`th root of a small number. -/
def rootFraction (n v : Nat) : DWord := BitVec.ofNat 64 (rootFrom n (v * 2 ^ (64 * n)) 69 0)

/-- The primes below a bound of at most 440. -/
def primesTo (bound : Nat) : List Nat :=
  (List.range bound).filter fun p => 1 < p && (List.range 21).all fun d => d < 2 || p ≤ d || p % d ≠ 0

/-- The constants of the 80 rounds: cube roots of the first 80 primes. -/
def shaConstants : List DWord := (primesTo 410).map (rootFraction 3)

/-- The hash before the first block: square roots of the first 8 primes. -/
def shaStart : List DWord := (primesTo 20).map (rootFraction 2)

/-- Two rotations of a word and a third part, added bit by bit. -/
def shaMix (x : DWord) (i j : Nat) (part : DWord) : DWord := x.rotateRight i ^^^ x.rotateRight j ^^^ part

/-- One round: the eight working words, and the sixteen next words of the message, the first of them the round's. -/
def shaRound (st : List DWord × List DWord) (k : DWord) : List DWord × List DWord :=
  let v := fun i => st.1.getD i 0
  let w := fun i => st.2.getD i 0
  let choice := v 6 ^^^ (v 4 &&& (v 5 ^^^ v 6))
  let most := (v 0 &&& (v 1 ||| v 2)) ||| (v 1 &&& v 2)
  let t := v 7 + shaMix (v 4) 14 18 ((v 4).rotateRight 41) + choice + k + w 0
  let new := w 0 + shaMix (w 1) 1 8 (w 1 >>> 7) + w 9 + shaMix (w 14) 19 61 (w 14 >>> 6)
  ((t + shaMix (v 0) 28 34 ((v 0).rotateRight 39) + most) :: (st.1.set 3 (v 3 + t)).take 7, st.2.drop 1 ++ [new])

/-- The number that a byte string is, its first byte the highest. -/
def bytesBig (bs : List Byte) : Nat := bytesVal bs.reverse

/-- The hash after one block of 128 bytes. -/
def shaBlock (h : List DWord) (block : List Byte) : List DWord :=
  let words := (List.range 16).map fun i => BitVec.ofNat 64 (bytesBig ((block.drop (8 * i)).take 8))
  List.zipWith (· + ·) h (shaConstants.foldl shaRound (h, words)).1

/-- The padding of a message of `n` bytes. -/
def shaPad (n : Nat) : List Byte :=
  0x80 :: List.replicate ((239 - n % 128) % 128) 0 ++ (valBytes 16 (8 * n)).reverse

/-- SHA-512 as 64 bytes. -/
def sha512 (bs : List Byte) : List Byte :=
  let m := bs ++ shaPad bs.length
  let blocks := (List.range (m.length / 128)).map fun i => (m.drop (128 * i)).take 128
  (blocks.foldl shaBlock shaStart).flatMap fun w => (valBytes 8 w.toNat).reverse

/-! ### RSASSA-PSS (R413) -/

/-- `b ^ e` modulo `n`, for an exponent of at most `f` bits. -/
def powMod (n : Nat) : Nat → Nat → Nat → Nat
  | 0, _, _ => 1 % n
  | f + 1, b, e =>
    let r := powMod n f (b * b % n) (e / 2)
    if e % 2 = 1 then r * b % n else r

/-- The mask of MGF1 with SHA-512: `n` bytes from a seed. -/
def mgf1 (seed : List Byte) (n : Nat) : List Byte :=
  ((List.range ((n + 63) / 64)).flatMap fun i => sha512 (seed ++ (valBytes 4 i).reverse)).take n

/-- An encoded message of 512 bytes is that of a digest: a salt of 64 bytes, and one unused bit. -/
def pssOk (em digest : List Byte) : Bool :=
  let h := (em.drop 447).take 64
  let db := List.zipWith (· ^^^ ·) (em.take 447) (mgf1 h 447)
  let db := ((db.getD 0 0) &&& 0x7F) :: db.drop 1
  em.getD 511 0 = 0xBC && (em.getD 0 0).toNat < 128 && (db.take 382).all (· = 0) && db.getD 382 0 = 1 &&
    h = sha512 (List.replicate 8 0 ++ digest ++ db.drop 383)

/-- A signature of 512 bytes is that of a digest under a key of modulus `n` and exponent `e` (RSA-4096, SHA-512, MGF1 with SHA-512, a
salt of 64 bytes). -/
def rsaPssOk (n e : Nat) (sig digest : List Byte) : Bool :=
  let s := bytesBig sig
  s < n && pssOk (valBytes 512 (powMod n 4096 s e)).reverse digest

/-- The bytes of a public key whose digest the fuses hold: the modulus, then the exponent, the highest byte of each first. -/
def keyBytes (n e : Nat) : List Byte := (valBytes 512 n).reverse ++ (valBytes 4 e).reverse

end Sys2Proof.Machine
end

