-- ==== Sys2Proof/Machine/Yardmaster.lean ====
section
/-! DEFINITION. The control and status registers (R109, R152), the yardmaster's own instructions (R153, R154), the trap FIFO
and what the shipped firmware does with the records that it reads (R387, R388, R390). -/

namespace Sys2Proof.Machine

/-! ### The trap FIFO -/

/-- The order in which records enter: by the cycle they arose in, the physical core, then the source within it (R388). -/
def TrapRec.key (x : Nat × TrapRec) : Nat :=
  x.1 * 2 ^ 16 + x.2.core % 2 ^ 10 * 8 + bits (x.2.words.getD 0 0).toNat 20 3

/-- The first unplaced stop of a source counts as placed. -/
def placeStop (st : Option Stream) : List TrapStop → List TrapStop
  | [] => []
  | x :: xs => if x.st = st && !x.placed then { x with placed := true } :: xs else x :: placeStop st xs

/-- The effect of TRAP_RECORD_PLACE (R388): the first waiting record enters the FIFO of 256 records when it has room. -/
def placeEff (s : State) : Option State :=
  match sortBy TrapRec.key s.trapWait with
  | [] => none
  | x :: _ =>
    if 1024 < s.trapFifo.length + 4 then none
    else
      let r := x.2
      let s := { s with trapWait := s.trapWait.erase x, trapFifo := s.trapFifo ++ r.words }
      match r.stop with
      | none => some s
      | some st =>
        let c := s.cr r.core
        some (s.setCr r.core { c with stops := placeStop st c.stops })

/-- Reads `TRAPQ`: the head word leaves the FIFO; zero where it is empty (R109). -/
def State.popTrapq (s : State) : DWord × State :=
  match s.trapFifo with
  | [] => (0, s)
  | w :: ws => (w, { s with trapFifo := ws })

/-- A yardmaster by its number 0 or 1, as a core. -/
def yardCore (y : Nat) : Nat := 512 + y

/-- The yardmaster runs. -/
def State.yardUp (s : State) (y : Nat) : Bool :=
  y < 2 && !(s.yard (yardCore y)).inReset && !(s.yard (yardCore y)).halted

/-- The causes whose records the shipped firmware forwards, and those that then await a reply (R387). -/
def forwards (code : Nat) : Bool :=
  [0x01, 0x02, 0x03, 0x04, 0x05, 0x06, 0x07, 0x09, 0x0A, 0x0B, 0x0C, 0x0D, 0x10, 0x12, 0x13, 0x14].contains code
def awaitsReply (code : Nat) : Bool := [0x09, 0x10, 0x13, 0x14].contains code

/-- The task that a record names: the one that its core holds, or one of a launch whose pre-emption has stored it. -/
def State.recordTask (s : State) (ctx p : Nat) (wid : DWord) : TaskId :=
  let stored := fun () => match s.launches.find? fun l => l.active && l.ctx = ctx && l.parked.contains p with
    | some l => { ctx := ctx, launch := l.id, wid := wid }
    | none => ({} : TaskId)
  match (s.cr p).task with
  | some t => if t.ctx = ctx && t.wid = wid then t else stored ()
  | none => stored ()

/-- The shipped firmware writes a record to the trap ring of its context (R390, R419); none while the ring has no room. -/
def State.forward (s : State) (r : List DWord) : Option State :=
  let w0 := (r.getD 0 0).toNat
  let code := bits w0 0 6
  if !forwards code then some s
  else match s.ctx? (bits w0 40 16) with
    | none => some s
    | some c =>
      if !s.ringRoom c 1 then none
      else
        let tseq := (s.ringIndex c).1 % 2 ^ c.trl2
        let s := s.writeRing c [ringEntry r]
        let p := bits w0 31 9
        let t := s.recordTask (bits w0 40 16) p (r.getD 1 0)
        if awaitsReply code then
          some (s.setCtx (bits w0 40 16) { c with forwarded := c.forwarded ++ [⟨tseq, p, t⟩] })
        else some s

/-- The effect of TRAPQ_POP (R388): the yardmaster's firmware reads one word; with the fourth it holds the record, and acts
by R387: it notes a TILE_FAULT, which `tileFaultEff` resolves. What follows the forwarding (abort, reply, roll-back, re-run,
re-timing) is a step of its own. -/
def trapqEff (s : State) (y : Nat) : Option State :=
  if !s.yardUp y || s.trapFifo.isEmpty then none
  else
    let (w, t) := s.popTrapq
    let r := (if 4 ≤ s.fwRecord.length then [] else s.fwRecord) ++ [w]
    let t := { t with fwRecord := r }
    let w0 := (r.getD 0 0).toNat
    if r.length < 4 then some t
    else if bits w0 0 6 = Cause.tileFault.code then
      some { t with tileFaults := t.tileFaults ++ [(t.recordTask (bits w0 40 16) (bits w0 31 9) (r.getD 1 0), r)] }
    else t.forward r

/-! ### The shipped firmware at a TILE_FAULT (R383) -/

/-- The layout-table entry and the tile-table entry that a record of a TILE_FAULT names: the entry's address itself, or the address of
a window access (R388). -/
def State.faultEntry (s : State) (c : Context) (info : DWord) : Option (Lay × Nat) :=
  let ls := (List.range c.nlt).map fun i => Lay.of (s.layRaw c i)
  let ea := if info.getLsbD 62 && !info.msb then some (info.toNat % 2 ^ 56)
    else match s.translate [] c.asid c.root info with
      | .leaf _ pte => match s.windowTile (some c) 2094 pte info with
        | .inr ea => some ea
        | .inl _ => none
      | _ => none
  ea.bind fun ea => (ls.find? fun l => l.fmt ≤ 13 && l.covers ea).map fun l => (l, ea)

/-- The level from which the firmware grants: the tensor's home, or the yard. -/
def homeLevel (l : Lay) : Nat := if l.home = 0 then 1 else l.home - 1

/-- The entries of a context's void tensor that satisfy a condition, the first in block order. -/
def State.voidEntry (s : State) (c : Context) (f : BitVec 128 → Bool) : Option Nat :=
  let l := Lay.of (s.layRaw c c.voidt)
  ((List.range (l.nblkm1 + 1)).map l.entry).find? fun ea => f (s.tileEntry ea)

/-- A RESIDENT block of a level. -/
def residentAt (level : Nat) (e : BitVec 128) : Bool := tileOk e && tState e = 0 && tLevel e = level

/-- A RESIDENT void block of a context at a level, if need be taken first by GRANT from another context, whose first void block there
passes to an ABSENT void identity of this one, or against a void block of another level (which block and which identity: the
firmware's choice, DESIGN CHOICE, log 81). -/
def State.voidBlock (s : State) (ctx level : Nat) (c : Context) : Option (Nat × State) :=
  match s.voidEntry c (residentAt level) with
  | some a => some (a, s)
  | none =>
    let mine := (s.voidEntry c fun e => tV e && tState e = 3).orElse fun _ => s.voidEntry c fun e => tileOk e && tState e = 0
    let theirs := (s.ctxs.filter (·.1 ≠ ctx)).findSome? fun x => s.voidEntry x.2 (residentAt level)
    match mine, theirs with
    | some b, some a => (s.grantFrames a b).map fun t => (b, t)
    | _, _ => none

/-- The shipped firmware resolves a TILE_FAULT (R383): it grants the block a frame from a void block of its context, unless the block
has one by now, then ends the trap stop by FREEZE and THAW. None while no void block can be granted; nothing where the record's
context or entry is gone. The GRANTs take effect in the step that pushes them (DEDUCED, log 81). -/
def State.resolveTile (s : State) (x : TaskId × List DWord) : Option State :=
  let w0 := (x.2.getD 0 0).toNat
  let ctx := bits w0 40 16
  let p := bits w0 31 9
  let t := { s with tileFaults := s.tileFaults.erase x }
  let again := fun (t : State) =>
    if (t.cr p).task = some x.1 && !(t.cr p).stops.isEmpty then (t.freezeCore p).thawCore p else t
  match s.ctx? ctx with
  | none => some t
  | some c => match s.faultEntry c (x.2.getD 3 0) with
    | none => some (again t)
    | some (l, ea) =>
      if tState (s.tileEntry ea) ≠ 3 then some (again t)
      else match t.voidBlock ctx (homeLevel l) c with
        | none => none
        | some (a, t) => (t.grantFrames a ea).map again

/-- The first noted TILE_FAULT that can be resolved. -/
def tileFaultEff (s : State) : Option State :=
  if s.firmwareRuns then s.tileFaults.findSome? s.resolveTile else none

/-! ### Registers -/

/-- `YIP` as read: bit 0 follows the trap FIFO (R109). -/
def State.yip (s : State) (p : Nat) : DWord :=
  ((s.yard p).yip.setWidth 64 <<< 1) ||| (if s.trapFifo.isEmpty then 0 else 1)

/-- Reads a register of a compute core, as C sees it (R109). -/
def Core.readCsr (c : Core) (p now n : Nat) : DWord :=
  if n ≤ 5 then (c.regs.i.getD n 0).setWidth 64
  else if n = 6 then c.regs.wid
  else if n ≤ 13 then c.loopIndex .c (n - 8)
  else if n = 0x10 then c.regs.tcycle
  else if n = 0x11 then (c.view .c now).flags.setWidth 64
  else if n = 0x12 then c.regs.lcore.setWidth 64
  else if n = 0x13 then BitVec.ofNat 64 p
  else if n = 0x14 then c.regs.phase.setWidth 64
  else if n < 0x30 then ((c.view .c now).counters.getD (n - 0x20) 0).setWidth 64
  else (c.st (streamAt (n - 0x30))).digest

/-- Reads a register of a yardmaster but `TRAPQ`; `HEARTBEAT` is write-only and reads zero (R5, R109). -/
def State.readYardCsr (s : State) (p n : Nat) : DWord :=
  let y := s.yard p
  match n with
  | 0x800 => y.ytvec
  | 0x801 => y.ytepc
  | 0x802 => y.ytcause
  | 0x803 => y.ytval
  | 0x804 => y.yscratch
  | 0x805 => (if y.pie then 2 else 0) + (if y.ie then 1 else 0)
  | 0x806 => s.yip p
  | _ => 0

/-- Any write of `HEARTBEAT` restarts the limit; the first of a started image ends the pending SWITCH (R417). -/
def State.beat (s : State) (p : Nat) : State :=
  let s := s.setYard p { s.yard p with hb := 0 }
  if p = s.primary then { s with plovelm := { s.plovelm with switch := none } } else s

/-- Writes a register of a yardmaster; reserved fields stay zero, and a read-only register ignores the write (R5, R109). The bits
[62:6] of `YTCAUSE`, which R109 names in no field, stay zero too, and a write of `YTEPC` names a position in no transfer's shadow
(both DESIGN CHOICE, log 102). -/
def State.writeYardCsr (s : State) (p n : Nat) (v : DWord) : State :=
  let y := s.yard p
  match n with
  | 0x800 => s.setYard p { y with ytvec := v &&& ~~~0x1F }
  | 0x801 => s.setYard p { y with ytepc := v &&& ~~~0x18, shadow := [] }
  | 0x802 => s.setYard p { y with ytcause := v &&& 0x800000000000003F }
  | 0x803 => s.setYard p { y with ytval := v }
  | 0x804 => s.setYard p { y with yscratch := v }
  | 0x805 => s.setYard p { y with pie := v.getLsbD 1, ie := v.getLsbD 0 }
  | 0x806 => s.setYard p { y with yip := y.yip &&& ~~~(v.extractLsb' 1 3) }
  | 0x810 => s.beat p
  | _ => s

/-- How a register changes: written, bits set, or bits cleared (R152). -/
inductive CsrOp where
  | write | set | clear
  deriving DecidableEq, Repr

def CsrOp.apply (op : CsrOp) (old v : DWord) : DWord :=
  match op with
  | .write => v
  | .set => old ||| v
  | .clear => old &&& ~~~v

/-- The flags that an access of `FLAGS` sets and clears: those that it does not name keep what they have when it takes effect
(R152, R341). -/
def csrFlags (op : CsrOp) (v : DWord) : Act Unit :=
  match op with
  | .write => defer true (.flags (v.extractLsb' 0 8))
  | .set => (List.range 8).forM fun i => if v.getLsbD i then defer true (.flag (BitVec.ofNat 3 i) true) else pure ()
  | .clear => (List.range 8).forM fun i => if v.getLsbD i then defer true (.flag (BitVec.ofNat 3 i) false) else pure ()

/-- Reads a register; reading `TRAPQ` pops it (R152). -/
def readCsr (n : Nat) : Act DWord := fun s =>
  if n = 0x811 then .ok s.popTrapq
  else if isYard s.core then .ok (s.readYardCsr s.core n, s)
  else .ok (s.me.readCsr s.core s.now n, s)

/-- CSRW, CSRS and CSRC (R152). The old value of a counter is ready after a variable delay (R108), every other, for which R108 gives no
ready time, at once (DESIGN CHOICE, log 120). -/
def changeCsr (i : Instr) (w : BitVec 2) (d a : BitVec 5) (csr : BitVec 12) (op : CsrOp) (s : State) :
    Host.Outcome State Fault Refusal :=
  run i w (do
    let v ← readS a
    let n := csr.toNat
    let old ← readCsr n
    let s ← get
    if isYard s.core then
      set (s.writeYardCsr s.core n (op.apply old v))
      writeS d old
    else if n = 0x11 then
      csrFlags op v
      writeS d old
    else if 0x20 ≤ n && n < 0x30 then
      defer false (.cntSet (BitVec.ofNat 4 (n - 0x20)) ((op.apply old v).setWidth 32))
      let (t, s) := (← get).delay
      set s
      writeSLate d old t
    else writeS d old) s

/-- CSRR (R152). -/
def execCsrr (w : BitVec 2) (d : BitVec 5) (csr : BitVec 12) (s : State) : Host.Outcome State Fault Refusal :=
  run (.csrr w d csr) w (do
    let v ← readCsr csr.toNat
    writeS d v) s

/-- CSRW (R152). -/
def execCsrw (w : BitVec 2) (d a : BitVec 5) (csr : BitVec 12) (s : State) : Host.Outcome State Fault Refusal :=
  changeCsr (.csrw w d a csr) w d a csr .write s

/-- CSRS (R152). -/
def execCsrs (w : BitVec 2) (d a : BitVec 5) (csr : BitVec 12) (s : State) : Host.Outcome State Fault Refusal :=
  changeCsr (.csrs w d a csr) w d a csr .set s

/-- CSRC (R152). -/
def execCsrc (w : BitVec 2) (d a : BitVec 5) (csr : BitVec 12) (s : State) : Host.Outcome State Fault Refusal :=
  changeCsr (.csrc w d a csr) w d a csr .clear s

/-! ### Return, wait and halt (R154) -/

/-- RTT: `IE` ← `PIE`, and the yardmaster resumes at `YTEPC`. -/
def execRtt (w : BitVec 2) (s : State) : Host.Outcome State Fault Refusal :=
  run (.rtt w) w (modify fun s => s.yardReturn s.core) s

/-- WFI: waits until a `YIP` bit is set. -/
def execWfi (w : BitVec 2) (s : State) : Host.Outcome State Fault Refusal :=
  run (.wfi w) w (do
    let s ← get
    ready (s.yip s.core ≠ 0) .fixed) s

/-- HALT: the yardmaster stops with this line. -/
def execHalt (w : BitVec 2) (s : State) : Host.Outcome State Fault Refusal :=
  run (.halt w) w (modify fun s => s.setYard s.core { s.yard s.core with halted := true }) s

/-! ### Interrupts -/

/-- The yardmaster stands at a line boundary: no line of it is in progress or waits. -/
def Core.atBoundary (c : Core) : Bool := c.c.lane = 0 && !c.heldLine && !c.c.bp && c.c.wait.isNone

/-- TAKING AN INTERRUPT (R153, R391, R438): with `IE` = 1 at a line boundary, a pending HEARTBEAT_MISSED ahead of every `YIP`
bit. The cause code and `YTVAL` of a `YIP` interrupt are not stated: free values, the code one that R387 lists (DESIGN CHOICE, log 26). -/
def interruptEff (s : State) (y : Nat) : Option State :=
  let p := yardCore y
  let r := s.yard p
  let c := s.cr p
  if !s.yardUp y || !r.ie || !c.atBoundary then none
  else match r.missed with
    | some slotB =>
      let s := s.setYard p { r with missed := none }
      some (s.yardTrap p c.c.line (BitVec.ofNat 64 (2 ^ 63 + Cause.heartbeatMissed.code)) (if slotB then 1 else 0))
    | none =>
      if s.yip p = 0 then none
      else
        let cause := BitVec.ofNat 64 (2 ^ 63 + 1 + (Config.interruptWord s.choices).toNat % 0x16)
        let val := Config.interruptWord (s.choices + 1)
        some ({ s with choices := s.choices + 2 }.yardTrap p c.c.line cause val)

/-! ### The steps -/

/-- TRAP_RECORD_PLACE (R388). -/
def execTrapRecordPlace (s : State) : Host.Outcome State Fault Refusal := event (placeEff s) s

/-- TRAPQ_POP (R388). -/
def execTrapqPop (y : Nat) (s : State) : Host.Outcome State Fault Refusal := event (trapqEff s y) s

/-- YARDMASTER_TRAP_ENTRY (R153). -/
def execYardmasterTrapEntry (y : Nat) (s : State) : Host.Outcome State Fault Refusal := event (interruptEff s y) s

/-- HEARTBEAT (R417). -/
def execHeartbeat (y : Nat) (s : State) : Host.Outcome State Fault Refusal :=
  event (if s.yardUp y then some (s.beat (yardCore y)) else none) s

end Sys2Proof.Machine
end

