-- ==== Sys2Proof/Machine/Plovelm.lean ====
section
/-! DEFINITION. The Plovelm root of trust (R411-R418, R437, R438): firmware images and their verification, the measurement
registers, the start of a yardmaster, the service FIFO, the heartbeat limit, package reset and the SPDM responder. -/

namespace Sys2Proof.Machine

/-! ### Images (R413) -/

/-- Bytes of a slot of the boot flash (false: slot A). -/
def Plovelm.slot (v : Plovelm) (b : Bool) (off n : Nat) : List Byte :=
  Mem.read v.flash ((if b then 2 ^ 24 else 0) + off) n

/-- A little-endian field of a slot's header. -/
def Plovelm.hdr (v : Plovelm) (b : Bool) (off n : Nat) : Nat := bytesVal (v.slot b off n)
def Plovelm.imageLen (v : Plovelm) (b : Bool) : Nat := v.hdr b 12 4
def Plovelm.entry (v : Plovelm) (b : Bool) : Nat := v.hdr b 16 8
def Plovelm.body (v : Plovelm) (b : Bool) : List Byte := v.slot b 1024 (v.imageLen b)

/-- A 64-byte digest as bits, byte 0 lowest, and back. -/
def digestBits (bs : List Byte) : BitVec 512 := BitVec.ofNat 512 (bytesVal bs)
def digestBytes (d : BitVec 512) : List Byte := valBytes 64 d.toNat

/-- The digest that an image's `SIG` covers. -/
def Plovelm.imageDigest (v : Plovelm) (b : Bool) : BitVec 512 := digestBits (sha512 (v.slot b 0 512 ++ v.body b))

/-- The header keeps the format of R413; the entry line lies in the body. -/
def Plovelm.imageOk (v : Plovelm) (b : Bool) : Bool :=
  v.hdr b 0 4 = 0x57464D59 && v.imageLen b % 32 = 0 && v.imageLen b ≤ 2 ^ 24 - 1024 && v.entry b % 32 = 0 &&
  v.entry b < v.imageLen b && v.hdr b 24 1 ≤ 3 && (v.slot b 25 487).all (· = 0)

/-- The signature of an image is good (R413): the key of its slot is the one that the fuses name, and `SIG` is its signature (PRESUMED,
log 121). -/
def Plovelm.signed (v : Plovelm) (b : Bool) : Bool :=
  let i := v.hdr b 24 1
  let (n, e) := Config.publicKey i
  v.keys.getD i 0 = digestBits (sha512 (keyBytes n e)) && rsaPssOk n e (v.slot b 512 512) (digestBytes (v.imageDigest b))

/-- VERIFY of a slot (R415): 0 done, 1 a bad signature or a revoked key, 2 `SVN` refused, 3 malformed (DEDUCED, log 32). -/
def Plovelm.verify (v : Plovelm) (b : Bool) : Nat :=
  if !v.imageOk b then 3
  else if v.hdr b 8 4 < v.svn then 2
  else if v.revoked.getLsbD (v.hdr b 24 1) || !v.signed b then 1
  else 0

/-- Bytes of the boot flash are written: a slot that they touch has passed no VERIFY since (R417). -/
def Plovelm.writeFlash (v : Plovelm) (addr : Nat) (bs : List Byte) : Plovelm :=
  let touches := fun (base : Nat) => !bs.isEmpty && addr < base + 2 ^ 24 && base < addr + bs.length
  { v with
    flash := Mem.write v.flash addr bs
    verifiedA := v.verifiedA && !touches 0, verifiedB := v.verifiedB && !touches (2 ^ 24) }

/-- Extends a measurement register and its log (R414). -/
def Plovelm.extend (v : Plovelm) (r : Nat) (d : BitVec 512) : Plovelm :=
  let m := v.meas.getD r 0
  { v with
    meas := v.meas.setIfInBounds r (digestBits (sha512 (digestBytes m ++ digestBytes d)))
    log := v.log ++ [(r, d)] }

/-! ### Starting and resetting a yardmaster -/

/-- A core right after reset, but for what has left it, which runs on to its end (R110). -/
def Core.afterReset (c : Core) : Core :=
  let k := c.vacate
  { stores := k.stores, amos := k.amos, gbArrives := k.gbArrives, fences := k.fences, seq := k.seq, first := k.seq }

/-- A yardmaster is held in reset. Its stores have been released by the request that leads here (R438), and take place. -/
def State.resetYard (s : State) (p : Nat) : State :=
  let s := s.flushCore p
  ((s.setCr p (s.cr p).afterReset).keepSent p).setYard p { s.yard p with inReset := true }

/-- Loads a slot's body at its place (R437). -/
def State.loadSlot (s : State) (b : Bool) : State :=
  let bs := s.plovelm.body b
  let first := Config.firmwareBase / 256
  { s with
    mem := Mem.write s.mem Config.firmwareBase bs
    poison := s.poison.filter fun x => !(first ≤ x && x < first + bs.length / 256)
    plovelm := { s.plovelm with activeB := b } }

/-- Starts a yardmaster on a slot at its `ENTRY` line in the state of R412. -/
def State.startYard (s : State) (p : Nat) (b : Bool) (s1 : DWord) (missed : Option Bool) : State :=
  let s := s.loadSlot b
  let regs : Regs := { s := (Vector.replicate 32 0).setIfInBounds 1 s1 }
  let line : DWord := BitVec.ofNat 64 (Config.firmwareBase + s.plovelm.entry b)
  (s.setCr p { (s.cr p).afterReset with regs := regs, c := { line := line } }).setYard p { inReset := false, missed := missed }

/-! ### The service FIFO (R415) -/

/-- Fields of a request record. -/
def RtsReq.op (r : RtsReq) : Nat := bits r.record.toNat 0 8
def RtsReq.arg (r : RtsReq) : Nat := bits r.record.toNat 8 8
def RtsReq.addr (r : RtsReq) : DWord := r.record.extractLsb' 64 64
def RtsReq.done (r : RtsReq) : Nat := bits r.record.toNat 128 64

/-- A record with its reserved bytes zero and an `ARG` of its `OP`. -/
def RtsReq.ok (r : RtsReq) : Bool :=
  bits r.record.toNat 16 48 = 0 && bits r.record.toNat 192 320 = 0 &&
  match r.op with
  | 1 | 3 => r.arg ≤ 1
  | 2 => 9 ≤ r.arg && r.arg ≤ 15 && r.digest.isSome
  | _ => false

/-- The oldest request, once the Plovelm takes it up, with no status yet. -/
def State.rtsHead (s : State) (op : Nat) : Option RtsReq :=
  match s.plovelm.requests with
  | r :: _ => if r.op = op && r.status.isNone && r.due ≤ s.now then some r else none
  | [] => none

/-- The oldest request receives its status. -/
def Plovelm.settle (v : Plovelm) (n : Nat) : Plovelm :=
  { v with requests := match v.requests with | r :: rs => { r with status := some n } :: rs | [] => [] }

/-- The slot that an `ARG` names has passed VERIFY since its last write. -/
def Plovelm.verified (v : Plovelm) (b : Bool) : Bool := if b then v.verifiedB else v.verifiedA

/-- The effect of RTS_VERIFY. -/
def verifyEff (s : State) : Option State :=
  (s.rtsHead 1).map fun r =>
    let v := s.plovelm
    let b : Bool := r.arg = 1
    let n := if r.ok then v.verify b else 3
    let v := if n ≠ 0 then v else if b then { v with verifiedB := true } else { v with verifiedA := true }
    { s with plovelm := v.settle n }

/-- The effect of RTS_EXTEND. -/
def extendEff (s : State) : Option State :=
  (s.rtsHead 2).map fun r =>
    let v := s.plovelm
    match r.ok, r.digest with
    | true, some d => { s with plovelm := (v.extend r.arg d).settle 0 }
    | _, _ => { s with plovelm := v.settle 3 }

/-- A request ends: its status is written, `YIP`[2] is set, and it leaves the FIFO. -/
def State.rtsDone (s : State) (r : RtsReq) (n : Nat) : State :=
  let s := (s.writeBytes r.done (valBytes 4 n)).raiseYip 2
  { s with plovelm := { s.plovelm with requests := s.plovelm.requests.drop 1 } }

/-- The effect of RTS_SWITCH (R417, R438): status 5 ahead of 3 and 4; an accepted SWITCH extends register 8, resets the
primary yardmaster, completes with status 0, and starts the slot with s1 = `ADDR`. -/
def switchEff (s : State) : Option State :=
  (s.rtsHead 3).map fun r =>
    let v := s.plovelm
    let b : Bool := r.arg = 1
    let refuse := fun (n : Nat) => { s with plovelm := v.settle n }
    if v.switch.isSome then refuse 5
    else if !r.ok then refuse 3
    else if !v.verified b then refuse 4
    else
      let p := s.primary
      let v' := { v.extend 8 (v.imageDigest b) with switch := some (v.activeB, r.addr) }
      let s := ({ s with plovelm := v' }.resetYard p).rtsDone r 0
      s.startYard p b r.addr none

/-- The effect of RTS_REQUEST_COMPLETE: a request whose `OP` is reserved is malformed. -/
def rtsCompleteEff (s : State) : Option State :=
  match s.plovelm.requests with
  | [] => none
  | r :: _ => match r.status with
    | some n => some (s.rtsDone r n)
    | none => if (r.op = 0 || 4 ≤ r.op) && r.due ≤ s.now then some (s.rtsDone r 3) else none

/-! ### The heartbeat limit (R417, R418) -/

/-- The limit in cycles. -/
abbrev heartbeatLimit : Nat := 32000000

/-- The effect of HEARTBEAT_LIMIT_EXPIRY. Before the first heartbeat after a SWITCH the slot left is restored, if it
verifies; at any other time the standby is promoted, if it has not failed itself (DEDUCED, log 32). -/
def heartbeatLimitEff (s : State) (y : Nat) : Option State :=
  let p := yardCore y
  let r := s.yard p
  if 2 ≤ y || r.inReset || r.hb < heartbeatLimit || p ≠ s.primary then none
  else
    let v := s.plovelm
    match v.switch with
    | some (from_, addr) =>
      let t := s.resetYard p
      if v.verify from_ ≠ 0 then some t
      else
        let v' := { v.extend 8 (v.imageDigest from_) with switch := none }
        some ({ t with plovelm := v' }.startYard p from_ addr (some v.activeB))
    | none =>
      let t := s.resetYard p
      let t := t.setYard p { t.yard p with failed := true }
      let q := 1025 - p
      if (s.yard q).failed then some t
      else some ({ t with primary1 := q = 513 }.startYard q v.activeB 0 (some v.activeB))

/-! ### Reset and attestation -/

/-- The package right after reset: the flash, the fuses and the outside inputs to come stay, and memory with its tags and
poison keeps what it held (DEDUCED, log 33). -/
def State.powerUp (s : State) : State :=
  let v := s.plovelm
  { State.reset with
    now := s.now, turn := s.turn, choices := s.choices, inputs := s.inputs, acts := s.acts, deltas := s.deltas, straps := s.straps
    mem := s.mem, poison := s.poison, tags := s.tags
    plovelm := { State.reset.plovelm with
      flash := v.flash, svn := v.svn, keys := v.keys, revoked := v.revoked, selectB := v.selectB } }

/-- The effect of PACKAGE_RESET (R411): the slot of the boot selector, then the other once; then the application-core boot
image. The ROM extends register 0 with the one and register 1 with the other (DEDUCED, log 32). -/
def State.bootPackage (s : State) : State :=
  let s := s.powerUp
  let v := s.plovelm
  let slot : Option Bool := if v.verify v.selectB = 0 then some v.selectB
    else if v.verify (!v.selectB) = 0 then some (!v.selectB)
    else none
  match slot with
  | none => { s with plovelm := { v with bootFailed := true } }
  | some b =>
    let s := { s with plovelm := v.extend 0 (v.imageDigest b) }.startYard 512 b 0 none
    match Config.appImage with
    | some d => { s with plovelm := { s.plovelm.extend 1 d with appReset := false } }
    | none => s

/-- The capability structures of every root port: those that R397 lists and no other. -/
def pcieCaps : List PcieCap := [.aer, .dpc, .acs, .l0p, .ptm, .doe]

/-- The protocols that the DOE mailbox of a port offers (R397). -/
def doeProtocols (port : Nat) : List DoeProtocol := if port = 0 then [.discovery, .cmaSpdm] else [.discovery]

/-- The widths of the links that a port is split into by its strap (R397). -/
def Bifurcation.widths : Bifurcation → List Nat
  | .x16 => [16]
  | .x8x8 => [8, 8]
  | .x4x4x4x4 => [4, 4, 4, 4]

/-- In endpoint mode, which the strap of port 0 alone selects, a port presents one function, with the SPDM DOE mailbox; otherwise it is
a root port and presents none (R397). -/
def Straps.functions (x : Straps) (port : Nat) : List (List DoeProtocol) :=
  if port = 0 && x.endpoint0 then [doeProtocols 0] else []

/-- The mailbox of a port takes a request of the SPDM responder. -/
def takesSpdm (port : Nat) : Bool := pcieCaps.contains .doe && (doeProtocols port).contains .cmaSpdm

/-- A report of the SPDM responder as one number: index, value, nonce. -/
def reportNumber (i : Nat) (m : BitVec 512) (nonce : BitVec 256) : Nat := i + 2 ^ 8 * m.toNat + 2 ^ 520 * nonce.toNat

/-- The effect of SPDM_REQUEST, which comes through the mailbox of port 0 (R397): register i is reported as index i + 1. -/
def spdmEff (s : State) (index : Nat) (nonce : BitVec 256) : Option State :=
  if index = 0 || 16 < index || !takesSpdm 0 then none
  else
    let v := s.plovelm
    let m := v.meas.getD (index - 1) 0
    some { s with plovelm := { v with
      spdm := v.spdm ++ [(index, m, nonce, Config.deviceSignature (reportNumber index m nonce))] } }

/-! ### The steps -/

/-- RTS_VERIFY (R415). -/
def execRtsVerify (s : State) : Host.Outcome State Fault Refusal := event (verifyEff s) s

/-- RTS_EXTEND (R414). -/
def execRtsExtend (s : State) : Host.Outcome State Fault Refusal := event (extendEff s) s

/-- RTS_SWITCH (R417). -/
def execRtsSwitch (s : State) : Host.Outcome State Fault Refusal := event (switchEff s) s

/-- RTS_REQUEST_COMPLETE (R415). -/
def execRtsRequestComplete (s : State) : Host.Outcome State Fault Refusal := event (rtsCompleteEff s) s

/-- HEARTBEAT_LIMIT_EXPIRY (R418). -/
def execHeartbeatLimitExpiry (y : Nat) (s : State) : Host.Outcome State Fault Refusal := event (heartbeatLimitEff s y) s

/-- PACKAGE_RESET (R411). -/
def execPackageReset (s : State) : Host.Outcome State Fault Refusal := .next s.bootPackage

/-- SPDM_REQUEST (R414). -/
def execSpdmRequest (index : Nat) (nonce : BitVec 256) (s : State) : Host.Outcome State Fault Refusal :=
  event (spdmEff s index nonce) s

end Sys2Proof.Machine
end

