-- ==== Sys2Proof/Machine/Pages.lean ====
section
/-! DEFINITION. TLB invalidation records (R381, R382) and the migration of far granules (R384-R386). -/

namespace Sys2Proof.Machine

/-! ### Invalidation records -/

/-- A pushed value breaks its format, or its record or result word does: the control region logs it (R392). -/
def State.logPush (s : State) (v : DWord) (rqk rqi : Nat) : State :=
  s.logError 2094 Cause.accessViolation.code 0x0C 0 rqk rqi v

/-- The bytes at an address, one by one. -/
def State.readEach (s : State) (pa n : Nat) : Nat := bytesVal ((List.range n).flatMap fun i => s.readBytes (pa + i) 1)

/-- The 32-byte record at an address: kind, page, ASID, and the address of the completion word. -/
def invKind (r : Nat) : Nat := bits r 0 2
def invVa (r : Nat) : DWord := BitVec.ofNat 64 (bits r 64 64)
def invAsid (r : Nat) : Nat := bits r 128 16
def invDone (r : Nat) : Nat := bits r 192 64

/-- A record that keeps its format. -/
def invOk (r : Nat) : Bool :=
  bits r 2 62 = 0 && bits r 144 48 = 0 && invKind r ≠ 3 && bits r 64 12 = 0 && (invKind r = 2 || invVa r = 0)

/-- The entries that a record drops. -/
def TlbEntry.dropped (e : TlbEntry) (r : Nat) : Bool :=
  match invKind r with
  | 0 => true
  | 1 => e.asid = invAsid r && !e.pte.getLsbD 5
  | _ => e.covers (invAsid r) (invVa r)

/-- The record that a pushed value names, if it can be read. -/
def State.invRecord (s : State) (v : DWord) : Option Nat :=
  let pa := bits v.toNat 5 51 * 32
  if !s.readable pa || (s.peer? pa).isSome || s.poisoned pa then none else some (s.readNat pa 32)

/-- The kind that a pushed value asks for; 0 also where it is malformed. -/
def State.invAsks (s : State) (v : DWord) : Nat :=
  match s.invRecord v with
  | some r => if invOk r && bits v.toNat 0 5 = 0 && bits v.toNat 56 8 = 0 then invKind r else 0
  | none => 0

/-- Drops the entries of a core's TLB; a lookup that an entry of the shed answers walks anew. -/
def Core.dropTlb (c : Core) (r : Nat) : Core :=
  let l := c.lookups
  let again := fun (w : WalkReq) => match w.hit with
    | some e => if e.dropped r then { w with hit := none } else w
    | none => w
  let polls := c.gbPolls.filter (·.reply.isSome)
  { c with gbPolls := polls, lookups := { l with tlb := l.tlb.filter (!·.dropped r), walks := l.walks.map again } }

/-- Accesses of a core that may have used an entry and have not resolved, before a sequence number. -/
def Core.unresolved (c : Core) (n : Nat) : Bool :=
  c.pending.any (·.seq < n) || c.aloads.any fun l => l.seq < n && match l.kind with | .bfx .. => true | _ => false

/-- A store to `TLBINV` (R381). -/
def State.tlbPush (s : State) (v : DWord) (rqk rqi : Nat) : State :=
  match s.invRecord v with
  | none => s.logPush v rqk rqi
  | some r =>
    if invDone r % 4 ≠ 0 || !inYard (invDone r) then s.logPush v rqk rqi
    else if !invOk r || bits v.toNat 0 5 ≠ 0 || bits v.toNat 56 8 ≠ 0 then
      { s with tlbInvs := s.tlbInvs ++ [⟨invDone r, 0x80000000, []⟩] }
    else
      let users := (s.cores.filter fun x => x.2.unresolved x.2.seq).map fun x => (x.1, x.2.seq)
      { s with
        cores := s.cores.map fun x => (x.1, x.2.dropTlb r)
        shedTlbs := (List.range 8).foldl (fun m i =>
          Sparse.set [] m i ((Sparse.get [] m i).filter (!·.dropped r))) s.shedTlbs
        tlbInvs := s.tlbInvs ++ [⟨invDone r, 1, users⟩] }

/-- The effects of TLBINV_ALL, TLBINV_ASID and TLBINV_PAGE: the record that the value names has that kind. A malformed one
counts as the first. -/
def invEff (s : State) (v : DWord) (kind : Nat) : Option State :=
  if s.invAsks v = kind then some (s.tlbPush v 5 (s.primary - 512)) else none

/-- The effect of TLB_INVALIDATION_DONE: the oldest record's users have resolved. -/
def invDoneEff (s : State) : Option State :=
  match s.tlbInvs with
  | [] => none
  | x :: xs =>
    if x.users.any fun u => (s.cr u.1).unresolved u.2 then none
    else some ({ s with tlbInvs := xs }.writeBytes x.done (valBytes 4 x.value.toNat))

/-! ### Migration of far granules -/

/-- Replaces word 0 of a granule's entry in the indirection table. -/
def State.setGranule (s : State) (pa v : Nat) : State :=
  { s with mem := Mem.write s.mem (Config.farTable + 16 * (pa / 2 ^ 21 % 2 ^ 25)) (valBytes 8 v) }

/-- The first byte of the granule that `FMMIG` names. -/
def Migration.base (m : Migration) : Nat := m.gran.toNat * 2 ^ 21

/-- `MST` of a granule. -/
def State.mst (s : State) (pa : Nat) : Nat := bits (s.granule pa 0) 1 2

/-- Replaces `MST`. -/
def State.setMst (s : State) (pa v : Nat) : State :=
  let w := s.granule pa 0
  s.setGranule pa (w - bits w 1 2 * 2 + v * 2)

/-- A store to `FMMIG` (R385): with `BUSY` = 0 it starts the granule's migration; a granule that is not STABLE starts none
(DEDUCED, log 34). -/
def State.migrate (s : State) (v : DWord) : State :=
  let m := s.migration
  if m.busy then s
  else
    let m := { m with gran := v.extractLsb' 21 35, fail := m.fail && !v.getLsbD 62 }
    let pa := m.base
    if place pa ≠ .far || !bit (s.granule pa 0) 0 || s.mst pa ≠ 0 then { s with migration := m }
    else
      let (d, s) := s.delay
      ({ s with migration := { m with busy := true, fail := false, due := s.now + d } }).setMst pa 1

/-- The state of the port of a granule's target. -/
def State.targetLink (s : State) (pa : Nat) : LinkState := s.cxl.getD (bits (s.granule pa 1) 5 3) .down

/-- The keys of memory at the old and the new place of a granule. -/
def granuleKey (w : Nat) : Nat := 2 ^ 72 * (1 + bits w 5 3) + bits w 21 43 * 2 ^ 21

/-- The effect of MIGRATION_COPY_COMPLETE (R386). -/
def copyDoneEff (s : State) : Option State :=
  let m := s.migration
  let up := fun (l : LinkState) => l = .up || l = .degraded
  if !m.busy || s.mst m.base ≠ 1 || s.now < m.due || !up (s.targetLink m.base) || s.farLink m.base ≠ .ok then none
  else some (s.setMst m.base 2)

/-- The frames that the accesses of a core's loads and write buffer, and of a started command, touch. -/
def State.loadBases (s : State) (p : Nat) (k : ALoadKind) : List Nat :=
  match k with
  | .bfx _ _ pa pa2 _ => [pa, pa2]
  | k =>
    let (i, v) := k.where_
    let l := s.layOf p i
    ((l.place (coords v)).1 :: (columnPlaces l v 64).map (·.1)).map fun b => tBase (s.tileEntry (l.entry b))
def State.cmdBases (s : State) (y : EngCmd) : List Nat :=
  let l := s.cmdLay y y.lay1
  let l2 := s.cmdLay y y.lay2
  let bases := fun (l : Lay) (b : Nat) => tBase (s.tileEntry (l.entry b))
  match y.kind with
  | .gather | .scatter | .xfer => (List.range y.n).flatMap fun j =>
      let r := s.copyRow y j
      [bases l r.blk, bases l2 r.blk2]
  | .stash | .restore => bases l (l.place (coords y.c1)).1 :: s.slotPlaces y
  | _ => [bases l (l.place (coords y.c1)).1]

/-- An access to a granule is in flight. -/
def State.granuleBusy (s : State) (pa : Nat) : Bool :=
  let here := fun (x : Nat) => x / 2 ^ 21 = pa / 2 ^ 21
  (s.cores.any fun (p, c) =>
    c.onWay.any (fun a => here a.pa) || c.gbPolls.any (fun g => here g.pa) ||
    c.aloads.any (fun a => a.look.isNone && !a.failed && !c.restored && (s.loadBases p a.kind).any fun x => here x) ||
    c.drain.buf.any (fun l => l.resolved && here (tBase (s.tileEntry ((s.layOf p l.lay).entry l.blk)))) ||
    c.drain.away.any fun x => x.2.resolved && here (tBase (s.tileEntry ((s.layIn x.1.ctx x.2.lay).entry x.2.blk)))) ||
  (s.engines.any fun y => y.started && !y.finished && (s.cmdBases y).any fun x => here x) ||
  s.shunters.any fun x => match x.2.run with | some r => here r.f1 || here r.f2 | none => false

/-- The bytes and the poison of a granule pass to another place. -/
def State.moveGranule (s : State) (a b : Nat) : State :=
  let inside := fun (base k : Nat) => base ≤ k && k < base + 2 ^ 21
  let data := s.mem.filter fun e => inside a e.1
  let marks := s.poison.filter fun x => inside a (256 * x)
  { s with
    mem := data.foldl (fun m e => Sparse.put m (e.1 - a + b) e.2) (s.mem.filter fun e => !inside b e.1)
    poison := marks.map (fun x => x - a / 256 + b / 256) ++ s.poison.filter fun x => !inside b (256 * x) }

/-- The effect of MIGRATION_FLIP (R386). The copy is made here, of the bytes as they then stand: no agent observes a
migration except through delay, and no write is lost. -/
def flipGranuleEff (s : State) : Option State :=
  let m := s.migration
  if !m.busy || s.mst m.base ≠ 2 || s.granuleBusy m.base then none
  else
    let w0 := s.granule m.base 0
    let w1 := s.granule m.base 1
    let s := s.moveGranule (granuleKey w0) (granuleKey w1)
    some ({ s with migration := { m with busy := false } }.setGranule m.base (w1 / 32 * 32 + 1))

/-- The source of a migration holds poison. -/
def State.granulePoison (s : State) (pa : Nat) : Bool :=
  let a := granuleKey (s.granule pa 0)
  s.poison.any fun x => a ≤ 256 * x && 256 * x < a + 2 ^ 21

/-- The target's link is lost. -/
def State.targetLost (s : State) (pa : Nat) : Bool := s.targetLink pa = .lost || s.targetLink pa = .down

/-- The effect of MIGRATION_ABANDON (R386): a poisoned read, or the loss of the target's link, while COPYING. The step itself
abandons for a lost link only; with poison it completes, as R386 says of the copy (DEDUCED, log 34). -/
def abandonEff (s : State) : Option State :=
  let m := s.migration
  if !m.busy || s.mst m.base ≠ 1 || !(s.targetLost m.base || s.granulePoison m.base) then none
  else some ({ s with migration := { m with busy := false, fail := true } }.setMst m.base 0)

/-! ### The steps -/

/-- TLBINV_ALL (R381). -/
def execTlbinvAll (v : BitVec 64) (s : State) : Host.Outcome State Fault Refusal := event (invEff s v 0) s

/-- TLBINV_ASID (R381). -/
def execTlbinvAsid (v : BitVec 64) (s : State) : Host.Outcome State Fault Refusal := event (invEff s v 1) s

/-- TLBINV_PAGE (R381). -/
def execTlbinvPage (v : BitVec 64) (s : State) : Host.Outcome State Fault Refusal := event (invEff s v 2) s

/-- TLB_INVALIDATION_DONE (R381). -/
def execTlbInvalidationDone (s : State) : Host.Outcome State Fault Refusal := event (invDoneEff s) s

/-- GRANULE_MIGRATION_START (R385). -/
def execGranuleMigrationStart (v : BitVec 64) (s : State) : Host.Outcome State Fault Refusal := .next (s.migrate v)

/-- MIGRATION_COPY_COMPLETE (R386). -/
def execMigrationCopyComplete (s : State) : Host.Outcome State Fault Refusal := event (copyDoneEff s) s

/-- MIGRATION_FLIP (R386). -/
def execMigrationFlip (s : State) : Host.Outcome State Fault Refusal := event (flipGranuleEff s) s

/-- MIGRATION_ABANDON (R386). -/
def execMigrationAbandon (s : State) : Host.Outcome State Fault Refusal := event (abandonEff s) s

end Sys2Proof.Machine
end

