-- ==== Sys2Proof/Machine/Links.lean ====
section
/-! DEFINITION. The links: port states (R399), the states of Vylum links (R400, R401), flits and retry (R402, R404), the
transaction units of R403, and the requests of peers (R407). -/

namespace Sys2Proof.Machine

/-! ### Ports -/

/-- The reported state of an LTSSM state (R399). -/
def ltssmState : Ltssm → LinkState
  | .detect => .down
  | .polling | .configuration => .training
  | .l0Best => .up
  | .l0Below => .degraded
  | .recovery => .retraining
  | .surpriseDown => .lost

/-- A port's state moves. -/
def State.portState (s : State) (p : PortId) (x : LinkState) : State :=
  match p with
  | .pcie n => { s with pcie := s.pcie.setIfInBounds n x }
  | .cxl n => { s with cxl := s.cxl.setIfInBounds n x }

/-! ### Vylum links -/

/-- A link by number. -/
def State.link (s : State) (k : Nat) : VLink := s.links.getD k {}
def State.setLink (s : State) (k : Nat) (l : VLink) : State := { s with links := s.links.setIfInBounds k l }

/-- The link carries flits. -/
def VLink.up (l : VLink) : Bool := l.st = .up || l.st = .degraded

/-- The lanes that a link may train with, and the least width that it accepts (R400). -/
def VLink.least (l : VLink) : Nat := 8 / 2 ^ l.wmin.toNat

/-- The width that a set of trained lanes gives: 8, 4, 2, 1 or 0. -/
def trainedWidth (lanes : BitVec 8) : Nat :=
  let n := ((List.range 8).filter lanes.getLsbD).length
  if n = 8 then 8 else if 4 ≤ n then 4 else if 2 ≤ n then 2 else n

/-- 100 ms and 10 ms in cycles of 1.6 GHz (DEDUCED, log 36). -/
abbrev trainingLimit : Nat := 160000000
abbrev retrainLimit : Nat := 16000000

/-- Requests on a link that have not completed fail with LINK_LOST (R404); what waits to be sent is dropped. -/
def State.failRequests (s : State) (k : Nat) : State :=
  let fail := fun (r : PeerReq) =>
    if r.link = k && r.data.isNone && r.error.isNone then { r with error := some .linkLost } else r
  ({ s with peerReqs := s.peerReqs.map fail }).setLink k { s.link k with backlog := [], partialUnit := [] }

/-- The device-source record of a lost link (R388, R401). -/
def State.linkTrap (s : State) : State := s.report ⟨0, [trapWord0 0 0 0 0 6 0 .linkLost, 0, 0, 0], none⟩

/-- Requests on a link that have not completed. -/
def State.linkBusy (s : State) (k : Nat) : Bool :=
  s.peerReqs.any fun r => r.link = k && r.data.isNone && r.error.isNone

/-- `CMD` enable: DOWN or LOST goes to TRAINING, and the sequence numbers start at 0 (DEDUCED, log 35). -/
def State.enableLink (s : State) (k : Nat) : State :=
  let l := s.link k
  if l.st = .down || l.st = .lost then
    s.setLink k { l with
      st := .training, since := s.now, txSeq := 0, rxSeq := 0, replay := [], wire := [], partialUnit := [], burst := false }
  else s

/-- A link goes to RETRAINING: new flits are held, the replay buffer is kept. -/
def VLink.retrain (l : VLink) (now : Nat) : VLink := { l with st := .retraining, since := now, width := 0, gen := 0, burst := false }

/-- `CMD` retrain. -/
def State.retrainLink (s : State) (k : Nat) : State :=
  let l := s.link k
  if l.up then s.setLink k (l.retrain s.now) else s

/-- `CMD` disable: as for LOST if requests are outstanding. -/
def State.disableLink (s : State) (k : Nat) : State :=
  let l := s.link k
  if l.st = .down then s
  else
    let t := (s.failRequests k).setLink k { (s.failRequests k).link k with st := .down, width := 0, gen := 0 }
    if s.linkBusy k then t.linkTrap else t

/-- `RETRY` counts a replay. -/
def VLink.countRetry (l : VLink) : VLink := { l with retry := if l.retry = 0xFFFF then l.retry else l.retry + 1 }

/-- The effect of LINK_TRAINED: training or retraining succeeds within its limit, at an accepted width. -/
def trainedEff (s : State) (k : Nat) (lanes : BitVec 8) (gen : BitVec 2) (peer : BitVec 16) (plink : BitVec 8) :
    Option State :=
  let l := s.link k
  let w := trainedWidth lanes
  let ok := l.least ≤ w && gen ≠ 0 && gen ≠ 3 && gen.toNat ≤ l.genmax.toNat && k < 16
  let new := { l with
    st := if w = 8 && gen = l.genmax then .up else .degraded, lanes := lanes, width := BitVec.ofNat 4 w, gen := gen }
  if !ok then none
  else if l.st = .training && s.now ≤ l.since + trainingLimit then
    some (s.setLink k { new with peer := peer, plink := plink, retry := 0 })
  else if l.st = .retraining && s.now ≤ l.since + retrainLimit then
    let new := { new with wire := new.wire ++ new.replay }
    some (s.setLink k (if new.replay.isEmpty then new else new.countRetry))
  else none

/-- The effects of LINK_TRAINING_TIMEOUT and LINK_RETRAIN_TIMEOUT. -/
def trainTimeoutEff (s : State) (k : Nat) : Option State :=
  let l := s.link k
  if l.st = .training && l.since + trainingLimit < s.now then some (s.setLink k { l with st := .down }) else none
def retrainTimeoutEff (s : State) (k : Nat) : Option State :=
  let l := s.link k
  if l.st = .retraining && l.since + retrainLimit < s.now then
    let t := s.failRequests k
    some (t.setLink k { t.link k with st := .lost }).linkTrap
  else none

/-- A flit has failed its CRC: with more than 16 such within the last 2^20 flits received it makes an error burst (R401). -/
def VLink.fail (l : VLink) : VLink :=
  let bad := (l.bad ++ [l.received]).filter fun n => l.received < n + 2 ^ 20
  { l with bad := bad, burst := l.burst || 16 < bad.length }

/-- The effect of ERROR_BURST. -/
def burstEff (s : State) (k : Nat) : Option State :=
  let l := s.link k
  if l.up && l.burst then some (s.setLink k (l.retrain s.now)) else none

/-- The effect of LANE_LOCK_LOSS. -/
def lockLossEff (s : State) (k : Nat) : Option State :=
  if (s.link k).up then some (s.retrainLink k) else none

/-! ### Flits (R402) -/

/-- Fields of a flit: `SEQ`, `ACK`, `TYPE`, payload words, CRC. -/
def flitSeq (f : Line) : Nat := bits f.toNat 52 12
def flitAck (f : Line) : Nat := bits f.toNat 40 12
def flitType (f : Line) : Nat := bits f.toNat 36 4
def flitWords (f : Line) : List DWord := (List.range 29).map fun i => f.extractLsb' (64 * (i + 1)) 64
def flitCrcOk (f : Line) : Bool := f.extractLsb' 1920 64 = crcBytes 0 ((lineBytes f).take 240)

/-! #### Error correction

A Reed–Solomon code of four parity bytes for the even and for the odd bytes of a flit (R402). Its generator has the roots 1, x, x^2, x^3,
and the first byte has the highest power (PRESUMED, log 27). -/

/-- Products, powers and inverses of the field of 256 elements, modulo x^8 + x^4 + x^3 + x^2 + 1. -/
def gfDouble (a : Byte) : Byte := (a <<< 1) ^^^ (if a.msb then 0x1D else 0)
def gfMul (a b : Byte) : Byte :=
  ((List.range 8).foldl (fun (r : Byte × Byte) i => (if b.getLsbD i then r.1 ^^^ r.2 else r.1, gfDouble r.2)) (0, a)).1
def gfPow (a : Byte) (n : Nat) : Byte := (List.replicate n a).foldl gfMul 1
def gfDiv (a b : Byte) : Byte := gfMul a (gfPow b 254)

/-- The coefficients of the generator below its leading 1, the highest first. -/
def rsGenerator : List Byte :=
  ([1, 2, 4, 8].foldl (fun (g : List Byte) r => List.zipWith (· ^^^ ·) (g ++ [0]) (0 :: g.map (gfMul r))) [1]).drop 1

/-- The parity bytes of an interleave's data. -/
def rsParity (data : List Byte) : List Byte :=
  data.foldl (fun r b => let f := b ^^^ r.getD 0 0
                         List.zipWith (· ^^^ ·) (r.drop 1 ++ [0]) (rsGenerator.map (gfMul f))) [0, 0, 0, 0]

/-- The value of an interleave at the root x^j: zero at each of the four where no byte is wrong. -/
def rsSyndrome (c : List Byte) (j : Nat) : Byte := c.foldl (fun s b => gfMul s (gfPow 2 j) ^^^ b) 0

/-- The errors at places `i` and `k` that leave the syndromes `s`; `k` = `i` is one error. -/
def rsErrors (s : List Byte) (i k : Nat) : Option (Byte × Byte) :=
  let x := gfPow 2 (127 - i)
  let y := gfPow 2 (127 - k)
  let s0 := s.getD 0 0
  let b := if i = k then 0 else gfDiv (s.getD 1 0 ^^^ gfMul s0 x) (x ^^^ y)
  let a := s0 ^^^ b
  if (List.range 4).all fun j => gfMul a (gfPow x j) ^^^ gfMul b (gfPow y j) = s.getD j 0 then some (a, b) else none

/-- An interleave of 128 bytes with up to two wrong bytes corrected; it stays as it is where more are wrong. -/
def rsCorrect (c : List Byte) : List Byte :=
  let s := (List.range 4).map (rsSyndrome c)
  if s.all (· = 0) then c
  else
    let at_ := (List.range 128).findSome? fun i => (List.range (i + 1)).findSome? fun k => (rsErrors s i k).map fun e => (i, k, e)
    match at_ with
    | some (i, k, a, b) => c.mapIdx fun n v => v ^^^ (if n = i then a else 0) ^^^ (if n = k then b else 0)
    | none => c

/-- The even or the odd bytes, and both put together again. -/
def interleave (odd : Bool) (bs : List Byte) : List Byte := (bs.zipIdx.filter fun x => x.2 % 2 = if odd then 1 else 0).map (·.1)
def weave (xs ys : List Byte) : List Byte := (List.zip xs ys).flatMap fun p => [p.1, p.2]

/-- A flit after error correction. -/
def flitCorrect (f : Line) : Line :=
  let bs := lineBytes f
  lineOf (weave (rsCorrect (interleave false bs)) (rsCorrect (interleave true bs)))

/-- A flit with its CRC and its parity bytes. -/
def makeFlit (seq ack type : Nat) (ws : List DWord) : Line :=
  let h : DWord := BitVec.ofNat 64 (seq % 4096 * 2 ^ 52 + ack % 4096 * 2 ^ 40 + type * 2 ^ 36)
  let body := (wordsBytes (h :: ws) ++ List.replicate 240 0).take 240
  let head := body ++ valBytes 8 (crcBytes 0 body).toNat
  lineOf (head ++ weave (rsParity (interleave false head)) (rsParity (interleave true head)))

/-- Idle and NAK flits have no `SEQ` of their own. -/
def VLink.idle (l : VLink) : VLink := { l with wire := l.wire ++ [makeFlit 0 l.rxSeq 0 []] }
def VLink.nak (l : VLink) : VLink := { l with wire := l.wire ++ [makeFlit 0 l.rxSeq 2 []] }

/-- One data flit leaves for the far end, if units wait, the link is up, and fewer than 512 flits are unacknowledged (R404):
units are packed without gaps, and one may go on in the next flit. -/
def VLink.send (l : VLink) : VLink :=
  if !l.up || l.backlog.isEmpty || 512 ≤ l.replay.length then l
  else
    let ws := l.backlog.flatten
    let f := makeFlit l.txSeq l.rxSeq 1 (ws.take 29)
    let rest := ws.drop 29
    { l with
      backlog := if rest.isEmpty then [] else [rest]
      txSeq := (l.txSeq + 1) % 4096, replay := l.replay ++ [f], wire := l.wire ++ [f] }

/-- The far end expects a sequence number: what it has received leaves the replay buffer. -/
def VLink.release (l : VLink) (ack : Nat) : VLink :=
  let first := (l.txSeq + 4096 - l.replay.length) % 4096
  let n := (ack + 4096 - first) % 4096
  if n ≤ l.replay.length then { l with replay := l.replay.drop n, acked := l.acked + 232 * n } else l

/-- A NAK: the flits from the named sequence onward are sent again, in order (R404). -/
def VLink.resend (l : VLink) (ack : Nat) : VLink :=
  let l := l.release ack
  if l.replay.isEmpty then l else { l with wire := l.wire ++ l.replay }.countRetry

/-! ### Transaction units (R403) -/

/-- `OP`, `LEN` and `TAG` of a header word, and the words of its unit. -/
def unitOp (h : DWord) : Nat := bits h.toNat 60 4
def unitLen (h : DWord) : Nat := bits h.toNat 54 6
def unitTag (h : DWord) : Nat := bits h.toNat 40 14
def unitSize (h : DWord) : Nat :=
  match unitOp h with
  | 0 => 2
  | 1 => 2 + unitLen h
  | 2 => 1 + unitLen h
  | 3 => 4 + unitLen h
  | _ => 1

/-- Cuts words into units: those that are complete, and the rest. A zero word is unused space. -/
def cutUnits : Nat → List DWord → List (List DWord) × List DWord
  | 0, ws => ([], ws)
  | _, [] => ([], [])
  | f + 1, h :: ws =>
    if h = 0 then cutUnits f ws
    else
      let n := unitSize h
      if ws.length + 1 < n then ([], h :: ws)
      else
        let (us, rest) := cutUnits f (ws.drop (n - 1))
        ((h :: ws.take (n - 1)) :: us, rest)

/-- The request of a unit; the operation of a reducing write is not carried (DESIGN CHOICE, log 37). -/
def unitRequest (u : List DWord) (choices : Nat) : PeerRequest :=
  let h := u.getD 0 0
  let op : PeerOp := if unitOp h = 0 then .read else if unitOp h = 1 then .write else .reduce
  let data := if unitOp h = 3 then u.drop 4 else u.drop 2
  { op := op, tag := BitVec.ofNat 14 (unitTag h), addr := (u.getD 1 0).extractLsb' 0 56, words := data,
    len := unitLen h, major := BitVec.ofNat 7 (0x10 + (Config.peerReduce choices).toNat)
    source := if unitOp h = 3 then u.getD 2 0 else 0, seq := if unitOp h = 3 then (u.getD 3 0).extractLsb' 0 32 else 0 }

/-- A complete unit: an answer goes to the request of its tag, a request waits to be carried out. An error response makes
the consumer raise ACCESS_VIOLATION (R407). -/
def State.takeUnit (s : State) (k : Nat) (u : List DWord) : State :=
  let h := u.getD 0 0
  let answer := fun (f : PeerReq → PeerReq) =>
    { s with peerReqs := s.peerReqs.map fun r =>
        if r.link = k && r.tag = unitTag h && r.data.isNone && r.error.isNone then f r else r }
  match unitOp h with
  | 0 | 1 | 3 =>
    let l := s.link k
    { s.setLink k { l with incoming := l.incoming ++ [unitRequest u s.choices] } with choices := s.choices + 1 }
  | 2 => answer fun r => { r with data := some (wordsBytes (u.drop 1)) }
  | 4 => answer fun r => { r with data := some [] }
  | 5 => answer fun r => { r with error := some .accessViolation }
  | _ => s

/-- The effect of FLIT_RECEIVE (R402, R404) on the flit as it comes from the wire. -/
def flitEff (s : State) (k : Nat) (wire : Line) : Option State :=
  let l := s.link k
  let f := flitCorrect wire
  if !l.up || 16 ≤ k then none
  else
    let l := { l with received := l.received + 1 }
    if !flitCrcOk f then some (s.setLink k l.fail.nak)
    else if flitType f = 2 then some (s.setLink k (l.resend (flitAck f)))
    else
      let l := l.release (flitAck f)
      if flitType f ≠ 1 || flitSeq f ≠ l.rxSeq then some (s.setLink k l)
      else
        let old := bytesWords (l.partialUnit.length / 8) l.partialUnit
        let (us, rest) := cutUnits 64 (old ++ flitWords f)
        let l := { l with rxSeq := (l.rxSeq + 1) % 4096, partialUnit := wordsBytes rest }.idle
        some (us.foldl (fun s u => s.takeUnit k u) (s.setLink k l))

/-- The effect of NAK_RECEIVE. -/
def nakEff (s : State) (k : Nat) (ack : BitVec 12) : Option State :=
  let l := s.link k
  if l.up && k < 16 then some (s.setLink k (l.resend ack.toNat)) else none

/-! ### Requests of peers (R407) -/

/-- The answer to a request. -/
def State.reply (s : State) (k op : Nat) (tag : BitVec 14) (ws : List DWord) : State :=
  s.sendUnit k (BitVec.ofNat 64 (op * 2 ^ 60 + ws.length * 2 ^ 54 + tag.toNat * 2 ^ 40) :: ws)

/-- An error response, logged by the link's unit. -/
def State.refusePeer (s : State) (k : Nat) (rq : PeerRequest) (cause : Cause) (rsn : Nat) : State :=
  (s.logError (2072 + k) cause.code rsn 0 4 k (BitVec.ofNat 64 rq.addr.toNat)).reply k 5 rq.tag []

/-- The operation of a reducing write by its major (R242). -/
def majorKind (m : BitVec 7) : EngKind :=
  if m = 0x11 then .rwrAddBf16 else if m = 0x12 then .rwrMaxF32 else if m = 0x13 then .rwrAddI32 else .rwrAddF32

/-- The bytes that a request touches. -/
def requestBytes (rq : PeerRequest) : Nat :=
  match rq.op with
  | .read => 8 * rq.len
  | _ => 8 * rq.words.length

/-- Writes bytes from an address on, line by line. -/
def State.writeEach (s : State) (pa : Nat) (bs : List Byte) : State :=
  let first := 256 - pa % 256
  (List.range (ceilDiv (pa % 256 + bs.length) 256)).foldl (fun s i =>
    let lo := if i = 0 then 0 else first + 256 * (i - 1)
    let n := if i = 0 then first else 256
    let part := (bs.drop lo).take n
    if part.isEmpty then s else s.writeBytes (pa + lo) part) s

/-- The turns of port 3 that an access from an I/O die or a peer takes in a near store: the request of them, or a wait; none once it has
been served, or elsewhere (R11). -/
def State.guestTurn (s : State) (o : PortOwner) (pa lines : Nat) : Option (Option State) :=
  match place pa with
  | .near q _ =>
    if s.served.contains o then none
    else if s.waitsPort3 o then some none
    else some (some (s.askPort3 q 6 o s.now lines 0))
  | _ => none

/-- The access goes on after its turns. -/
def State.unserve (s : State) (o : PortOwner) : State := { s with served := s.served.filter (· ≠ o) }

/-- Carries out a request: only frames with the landing bit may be addressed, and what a controller refuses it logs. None while it must
wait. -/
def peerEff (s : State) (k : Nat) (rq : PeerRequest) : Option State :=
  let pa := rq.addr.toNat
  let n := requestBytes rq
  let store := rq.op ≠ .read
  let places := (List.range (ceilDiv (pa % 256 + n) 256)).map fun i => if i = 0 then pa else pa / 256 * 256 + 256 * i
  let l := s.link k
  let s0 := s
  let s := (s.setLink k { l with incoming := l.incoming.erase rq }).unserve (.peer k)
  if 16 ≤ k then none
  else if place pa = .control || place pa = .firmware || !places.all fun a => (s.tag a).landing then
    some (s.refusePeer k rq .accessViolation 0x07)
  else match (places.map fun a => s.reachPa (if store then .store else .load) a 0 (BitVec.ofNat 64 a)).find? fun r =>
      match r with | .at _ _ => false | _ => true with
    | some .wait => none
    | some (.fail c log) => some ((s.logRefused c log 0 4 k).reply k 5 rq.tag [])
    | _ => match s0.guestTurn (.peer k) pa places.length with
    | some t => t
    | none =>
      let poison := places.any s.poisoned
      match rq.op with
      | .read =>
        if poison then some (s.refusePeer k rq .uncorrectable 0x08)
        else
          let v := s.readEach pa n
          some (s.reply k 2 rq.tag (bytesWords rq.len (valBytes n v)))
      | .write => some ((s.writeEach pa (wordsBytes rq.words)).reply k 4 rq.tag [])
      | .reduce =>
        if poison then some (s.refusePeer k rq .uncorrectable 0x08)
        else
          let kind := majorKind rq.major
          let w := if kind = .rwrAddBf16 then 16 else 32
          let data := wordsBytes rq.words
          let go := fun (s : State) => (List.range (8 * data.length / w)).foldl (fun s j =>
            let a := pa + w / 8 * j
            let x := bytesVal ((data.drop (w / 8 * j)).take (w / 8))
            s.writeBytes a (s.reduceBytes kind a w 1 (BitVec.ofNat 2048 x))) s
          (s.applyReduce (s.unitOf pa) rq.source 0 rq.seq.toNat go).map fun s => s.reply k 4 rq.tag []

/-! ### The steps -/

/-- VYLUM_ENABLE (R401). -/
def execVylumEnable (k : Nat) (s : State) : Host.Outcome State Fault Refusal := .next (s.enableLink k)

/-- VYLUM_RETRAIN (R401). -/
def execVylumRetrain (k : Nat) (s : State) : Host.Outcome State Fault Refusal := .next (s.retrainLink k)

/-- VYLUM_DISABLE (R401). -/
def execVylumDisable (k : Nat) (s : State) : Host.Outcome State Fault Refusal := .next (s.disableLink k)

/-- LINK_TRAINED (R401). -/
def execLinkTrained (k : Nat) (lanes : BitVec 8) (gen : BitVec 2) (peer : BitVec 16) (plink : BitVec 8) (s : State) :
    Host.Outcome State Fault Refusal := event (trainedEff s k lanes gen peer plink) s

/-- LINK_TRAINING_TIMEOUT (R401). -/
def execLinkTrainingTimeout (k : Nat) (s : State) : Host.Outcome State Fault Refusal := event (trainTimeoutEff s k) s

/-- LINK_RETRAIN_TIMEOUT (R401). -/
def execLinkRetrainTimeout (k : Nat) (s : State) : Host.Outcome State Fault Refusal := event (retrainTimeoutEff s k) s

/-- ERROR_BURST (R401). -/
def execErrorBurst (k : Nat) (s : State) : Host.Outcome State Fault Refusal := event (burstEff s k) s

/-- LANE_LOCK_LOSS (R401). -/
def execLaneLockLoss (k : Nat) (s : State) : Host.Outcome State Fault Refusal := event (lockLossEff s k) s

/-- FLIT_RECEIVE (R404). -/
def execFlitReceive (k : Nat) (flit : BitVec 2048) (s : State) : Host.Outcome State Fault Refusal := event (flitEff s k flit) s

/-- NAK_RECEIVE (R404). -/
def execNakReceive (k : Nat) (ack : BitVec 12) (s : State) : Host.Outcome State Fault Refusal := event (nakEff s k ack) s

/-- A request of a peer comes: it waits behind those that have come before it on the link. -/
def receiveEff (s : State) (k : Nat) (rq : PeerRequest) : Option State :=
  if 16 ≤ k then none
  else
    let l := s.link k
    let t := s.setLink k { l with incoming := l.incoming ++ [rq] }
    some (if l.incoming.isEmpty then (peerEff t k rq).getD t else t)

/-- PEER_REQUEST_RECEIVE (R407). -/
def execPeerRequestReceive (k : Nat) (rq : PeerRequest) (s : State) : Host.Outcome State Fault Refusal :=
  event (receiveEff s k rq) s

/-- PORT_LINK_STATE_CHANGE (R399). -/
def execPortLinkStateChange (port : PortId) (ltssm : Ltssm) (s : State) : Host.Outcome State Fault Refusal :=
  .next (s.portState port (ltssmState ltssm))

end Sys2Proof.Machine
end

