-- ==== Sys2Proof/Machine/Mailbox.lean ====
section
/-! DEFINITION. The firmware mailbox (R419): contexts (R362-R365), groups (R359-R361), launch queues, and the replies to
forwarded traps (R390). -/

namespace Sys2Proof.Machine

/-! ### Requests -/

/-- A store to `FWREQ`: a value that breaks the format is ignored and logged. -/
def State.mailPush (s : State) (v : DWord) (rqk rqi : Nat) : State :=
  if bits v.toNat 0 6 ≠ 0 || bits v.toNat 56 8 ≠ 0 then s.logPush v rqk rqi
  else { s with mailbox := s.mailbox ++ [v.toNat] }.raiseYip 3

/-- The request record that a mailbox entry names, if the firmware can use it. -/
def State.mailRecord (s : State) (pa : Nat) : Option (BitVec 512) :=
  if !s.readable pa || (s.peer? pa).isSome || s.poisoned pa then none
  else
    let r := s.record64 pa
    let done := bits r.toNat 128 64
    if done % 4 = 0 && inYard done then some r else none

/-- Fields of a request record. -/
def mOp (r : BitVec 512) : Nat := bits r.toNat 0 8
def mArg (r : BitVec 512) : Nat := bits r.toNat 8 8
def mAddr (r : BitVec 512) : Nat := bits r.toNat 64 64
def mDone (r : BitVec 512) : Nat := bits r.toNat 128 64
def mCtx (r : BitVec 512) : Nat := bits r.toNat 192 16
def mGrp (r : BitVec 512) : Nat := bits r.toNat 208 16
def mTseq (r : BitVec 512) : Nat := bits r.toNat 224 32
def mRing (r : BitVec 512) : Nat := bits r.toNat 256 64
def mMsia (r : BitVec 512) : Nat := bits r.toNat 320 64
def mMsid (r : BitVec 512) : Nat := bits r.toNat 384 32
def mTrl2 (r : BitVec 512) : Nat := bits r.toNat 416 8

/-- Every reserved byte and every field that the `OP` does not use is zero, and the used ones lie in their ranges. -/
def mailOk (r : BitVec 512) : Bool :=
  let op := mOp r
  bits r.toNat 16 48 = 0 && bits r.toNat 424 88 = 0 &&
  (op = 1 || (mAddr r = 0 && mRing r = 0 && mMsia r = 0 && mMsid r = 0 && mTrl2 r = 0)) &&
  (2 ≤ op || mCtx r = 0) && ((3 ≤ op && op ≤ 6) || mGrp r = 0) && (op = 8 || mTseq r = 0) &&
  (if op = 7 then mArg r < 64 else if op = 8 then mArg r ≤ 1 else mArg r = 0) &&
  (op ≠ 1 || (mRing r % 64 = 0 && mRing r < 2 ^ 56 && 4 ≤ mTrl2 r && mTrl2 r ≤ 16)) && 1 ≤ op && op ≤ 8

/-- The `OP` of the oldest request; requests that no `OP` names count with the first. -/
def State.mailOp (s : State) : Option Nat :=
  match s.mailbox with
  | [] => none
  | pa :: _ => match s.mailRecord pa with
    | some r => some (if 2 ≤ mOp r && mOp r ≤ 8 then mOp r else 1)
    | none => some 1

/-- The firmware takes the oldest request of an `OP`: one that it cannot read leaves no status, a malformed one receives 3, and
`act` answers the rest: none is a refusal, status 6. -/
def mailEff (s : State) (op : Nat) (act : State → BitVec 512 → Option State) : Option State :=
  if s.mailOp ≠ some op || !s.firmwareRuns then none
  else
    let pa := s.mailbox.headD 0
    let t := { s with mailbox := s.mailbox.drop 1 }
    match s.mailRecord pa with
    | none => some t
    | some r =>
      let put := fun (t : State) (n : Nat) => t.writeBytes (mDone r) (valBytes 4 n)
      if !mailOk r then some (put t 3)
      else match act t r with
        | some u => some (put u 0)
        | none => some (put t 6)

/-! ### Contexts -/

/-- A context that is LIVE. -/
def State.live (s : State) (id : Nat) : Option Context :=
  match s.ctx? id with
  | some c => if c.destroying then none else some c
  | none => none

/-- The identifier that a context record gives. -/
def Context.ctxid (c : Context) : Nat := c.field 64 2

/-- A context record keeps the rules of R363. -/
def Context.recordOk (c : Context) : Bool :=
  let at_ := fun (a n : Nat) => a % n = 0 && a < 2 ^ 56
  let limit := fun (x : Nat) => x = 0 || (12 ≤ x && x ≤ 32)
  bits c.record.toNat 544 480 = 0 && bits c.satp 60 4 = 10 &&
  at_ c.ltab 32 && at_ c.gtab 8 && at_ c.savea 32768 && at_ c.savew 8 && at_ c.snapa 65536 && at_ c.cbm (2 ^ 21) &&
  1 ≤ c.nlt && c.nlt ≤ 4096 && 1 ≤ c.ngrp && c.ngrp ≤ 64 && limit (c.field 66 1) && limit (c.field 67 1) && c.ctxid ≠ 0

/-- Sets the table bit of the frames of `n` bytes at an address (R378). -/
def State.markTable (s : State) (pa n : Nat) : State :=
  (List.range ((pa + n - 1) / 32768 - pa / 32768 + 1)).foldl (fun s i =>
    let f := (pa / 32768 + i) * 32768
    s.setTag f { s.tag f with table := true }) s

/-- Sets the table bit of the frames of a context's layout table and of the tile tables that its valid entries name (R253, R378). -/
def State.markTables (s : State) (c : Context) : State :=
  (List.range c.nlt).foldl (fun s i =>
    let x := s.layRaw c i
    let l := Lay.of x
    if l.ok x then s.markTable (l.entry 0) (16 * (l.nblkm1 + 1)) else s) (s.markTable c.ltab (32 * c.nlt))

/-- Creates a context (R363, R364): its record is read now, and its tables are marked. -/
def createCtx (s : State) (r : BitVec 512) : Option State :=
  let pa := mAddr r
  if 2 ^ 56 ≤ pa || !s.readable pa || (s.peer? pa).isSome || s.poisoned pa || s.poisoned (pa + 127) then none
  else
    let c : Context :=
      { record := BitVec.ofNat 1024 (s.readEach pa 128), ring := mRing r, msia := mMsia r
        msid := BitVec.ofNat 32 (mMsid r), trl2 := mTrl2 r }
    if !c.recordOk || (s.ctx? c.ctxid).isSome then none else some ((s.setCtx c.ctxid c).markTables c)

/-- Every group of a context that is not RELEASED becomes so; its queue is discarded (R336, R360). -/
def Context.releaseGroups (c : Context) : Context :=
  { c with groups := (List.range c.ngrp).foldl (fun m n =>
      Sparse.put m n { Sparse.get {} m n with st := .released, queue := [], lost := none }) c.groups }

/-- The tasks of a context that its cores still hold are discarded, those that a COMPLETE launch has left among them. -/
def State.dropCtx (s : State) (id : Nat) : State :=
  ((s.cores.filter fun x => x.2.task.any (·.ctx = id)).map (·.1)).foldl State.dropTask
    { s with launches := s.launches.map fun l => if l.ctx = id then { l with parked := [] } else l }

/-- A context enters DESTROYING (R364): its launch queues are DISABLED, its launches ABORTED with code 7, and commands that
have not started are discarded (R264). A launch that is still ACCEPTING is refused by its checks (R354). -/
def State.destroy (s : State) (id : Nat) (c : Context) : State :=
  let s := s.setCtx id { c with destroying := true }
  let close := fun (q : Nat × LaunchQueue) =>
    (q.1, if q.2.ctx.toNat = id then { q.2 with st := .disabled, recs := [], elev := 0, aged := 0 } else q.2)
  let s : State := { s with lqs := s.lqs.map close }
  let s := (s.launches.filter fun l => l.ctx = id && l.active).foldl
    (fun (s : State) (l : Launch) => match s.launch? l.id with
      | some k => if k.active && k.st ≠ .accepting then (s.endLaunch k 7 .aborted false).1 else s
      | none => s) s
  let s := s.dropCtx id
  let s := match s.ctx? id with | some c => s.setCtx id c.releaseGroups | none => s
  { s with
    engines := s.engines.filter fun x => x.task.ctx ≠ id || x.started
    windows := s.windows.filter fun w => !s.launches.any fun l => l.id = w.launch && l.ctx = id
    held := s.held.filter (·.task.ctx ≠ id) }

/-- An uncorrectable error in the tables of a LIVE context starts its destruction (R364). -/
def tableErrorEff (s : State) : Option State :=
  match s.tableErrors with
  | [] => none
  | id :: rest =>
    let t := { s with tableErrors := rest }
    some (match t.live id with
      | some c => t.destroy id c
      | none => t)

/-- A destroy request. -/
def destroyCtx (s : State) (r : BitVec 512) : Option State := (s.live (mCtx r)).map fun c => s.destroy (mCtx r) c

/-- A byte of memory, by the key under which it is kept, lies in the tile table of a layout, which far memory may hold: each granule's
part of the table stands together. -/
def State.tableKey (s : State) (l : Lay) (k : Nat) : Bool :=
  let first := l.entry 0
  let last := l.entry l.nblkm1 + 15
  (List.range (last / 2 ^ 21 - first / 2 ^ 21 + 1)).any fun i =>
    let lo := max first ((first / 2 ^ 21 + i) * 2 ^ 21)
    let hi := min last ((first / 2 ^ 21 + i) * 2 ^ 21 + (2 ^ 21 - 1))
    s.key lo ≤ k && k ≤ s.key lo + (hi - lo)

/-- The valid entries of a context's tile tables become invalid (R266): `V` is bit 0 of an entry, so a byte with it set is listed. -/
def State.clearEntries (s : State) (c : Context) : State :=
  let ls := ((List.range c.nlt).map fun i => (s.layRaw c i, Lay.of (s.layRaw c i))).filter fun x => x.2.ok x.1
  let mine := fun (e : Nat × Byte) => e.1 % 16 = 0 && e.2.getLsbD 0 && ls.any fun x => s.tableKey x.2 e.1
  { s with mem := (s.mem.filter mine).foldl (fun m e => Mem.write m e.1 [e.2 &&& 0xFE]) s.mem }

/-- The frames of a context pass to the yardmaster's pool, with every scrub bit set, no pin and no table bit (R257, R365). -/
def State.freeFrames (s : State) (id : Nat) : State :=
  { s with tags := s.tags.map fun t =>
      (t.1, if t.2.owner = id then { t.2 with owner := 0, scrub := BitVec.allOnes 128, pin := false, table := false } else t.2) }

/-- A core keeps no slot map of a context that is GONE: another that is given its identifier finds none (R193, R365). -/
def Core.forgetMap (c : Core) (id : Nat) : Core :=
  let c := { c with kept := Sparse.set {} c.kept id {} }
  if c.mapCtx = id then { c with matrix := c.matrix.withMap {} } else c

/-- The effect of CONTEXT_DESTRUCTION_COMPLETE (R365): no exchange of the context runs, its started commands are done; then
CLEAR on every core, and the frames pass. -/
def destroyedEff (s : State) (id : Nat) : Option State :=
  match s.ctx? id with
  | none => none
  | some c =>
    let busy := s.engines.any (·.task.ctx = id) ||
      s.shunters.any fun x => match x.2.run with | some r => r.ctx = id | none => false
    if !c.destroying || busy then none
    else
      let s := s.cores.foldl (fun s x => s.clearCtx x.1 id) s
      let s := { s with cores := s.cores.map fun (x : Nat × Core) => (x.1, x.2.forgetMap id) : State }
      let s := (s.clearEntries c).freeFrames id
      some { s with ctxs := Sparse.del s.ctxs id, kernels := s.kernels.filter (·.ctx ≠ id) }

/-! ### Groups -/

/-- The descriptor of a group in the context's group table; none where it cannot be read. -/
def State.descriptor (s : State) (c : Context) (g : Nat) : Option DWord :=
  let pa := c.gtab + 8 * g
  if !s.readable pa || (s.peer? pa).isSome || s.poisoned pa then none else some (BitVec.ofNat 64 (s.readNat pa 8))

/-- A group of a LIVE context in one of some states, with the descriptor that stands in the table. -/
def State.groupFor (s : State) (r : BitVec 512) (sts : List GroupState) : Option (Context × Group) :=
  match s.live (mCtx r) with
  | none => none
  | some c => if mGrp r < c.ngrp && sts.contains (c.group (mGrp r)).st then some (c, c.group (mGrp r)) else none

/-- A descriptor binds: it is valid, and names no core of a lost shed. -/
def State.binds (s : State) (d : DWord) : Bool := groupOk d && !(groupCores d).any s.coreLost

/-- Bind (R360). -/
def bindGroup (s : State) (r : BitVec 512) : Option State :=
  match s.groupFor r [.declared, .released] with
  | none => none
  | some (c, _) => match s.descriptor c (mGrp r) with
    | some d => if s.binds d then some (s.setGroup (mCtx r) (mGrp r) { st := .bound, desc := d }) else none
    | none => none

/-- Rebind (R360, R361): same width and height. -/
def rebindGroup (s : State) (r : BitVec 512) : Option State :=
  match s.groupFor r [.contained] with
  | none => none
  | some (c, g) => match s.descriptor c (mGrp r) with
    | some d =>
      if s.binds d && groupW d = groupW g.desc && groupH d = groupH g.desc then
        some (s.setGroup (mCtx r) (mGrp r) { g with desc := d })
      else none
    | none => none

/-- Resume (R360): the aborted phase re-runs from its recovery point on the group's binding. A group that held no launch has none to
re-run. -/
def resumeGroup (s : State) (r : BitVec 512) : Option State :=
  match s.groupFor r [.contained] with
  | none => none
  | some (_, g) => match g.lost.bind s.launch? with
    | none => some (s.setGroup (mCtx r) (mGrp r) { g with st := .running, lost := none })
    | some l =>
      let s := s.setGroup (mCtx r) (mGrp r) { g with st := .running, lost := none }
      let l := { l with st := .running, rebound := true }
      some ((s.setLaunch l).restartPhase l l.runningPhase)

/-- Release (R360). -/
def releaseGroup (s : State) (r : BitVec 512) : Option State :=
  match s.groupFor r [.bound, .contained] with
  | none => none
  | some (_, g) =>
    let s := { s with
      windows := s.windows.filter fun w => g.lost ≠ some w.launch
      roundsDone := s.roundsDone.filter fun x => g.lost ≠ some x.launch }
    some (s.setGroup (mCtx r) (mGrp r) { g with st := .released, queue := [], lost := none })

/-! ### Queues and replies -/

/-- Assigns a launch queue (R332): one that is DISABLED. -/
def assignQueue (s : State) (r : BitVec 512) : Option State :=
  let q := s.lq (mArg r)
  if (s.live (mCtx r)).isNone || q.st ≠ .disabled then none
  else some (s.setLq (mArg r) { q with ctx := BitVec.ofNat 16 (mCtx r) })

/-- Replies to a forwarded trap (R389, R390): resume is FREEZE, unless it holds, and THAW; abort ends the launch with code 5. -/
def replyTo (s : State) (r : BitVec 512) : Option State :=
  match s.live (mCtx r) with
  | none => none
  | some c => match c.forwarded.find? (·.tseq = mTseq r) with
    | none => none
    | some f =>
      let s := s.setCtx (mCtx r) { c with forwarded := c.forwarded.erase f }
      if mArg r = 0 then
        some (if (s.cr f.core).task = some f.task then (s.freezeCore f.core).thawCore f.core else s)
      else match s.launch? f.task.launch with
        | some l =>
          if l.active then some (s.finish l 5 .aborted false)
          else
            let t := if (s.cr f.core).task = some f.task then s.dropTask f.core else s
            some (if t.noTasks l then t.forget l.id false else t)
        | none => some s

/-! ### The steps -/

/-- CONTEXT_CREATE (R364). -/
def execContextCreate (s : State) : Host.Outcome State Fault Refusal := event (mailEff s 1 createCtx) s

/-- CONTEXT_DESTROY (R365). -/
def execContextDestroy (s : State) : Host.Outcome State Fault Refusal := event (mailEff s 2 destroyCtx) s

/-- CONTEXT_DESTRUCTION_COMPLETE (R365). -/
def execContextDestructionComplete (ctx : Nat) (s : State) : Host.Outcome State Fault Refusal := event (destroyedEff s ctx) s

/-- GROUP_BIND (R360). -/
def execGroupBind (s : State) : Host.Outcome State Fault Refusal := event (mailEff s 3 bindGroup) s

/-- GROUP_REBIND (R360). -/
def execGroupRebind (s : State) : Host.Outcome State Fault Refusal := event (mailEff s 4 rebindGroup) s

/-- GROUP_RESUME (R360). -/
def execGroupResume (s : State) : Host.Outcome State Fault Refusal := event (mailEff s 5 resumeGroup) s

/-- GROUP_RELEASE (R360). -/
def execGroupRelease (s : State) : Host.Outcome State Fault Refusal := event (mailEff s 6 releaseGroup) s

/-- LAUNCH_QUEUE_ASSIGN (R419). -/
def execLaunchQueueAssign (s : State) : Host.Outcome State Fault Refusal := event (mailEff s 7 assignQueue) s

/-- TRAP_REPLY (R390). -/
def execTrapReply (s : State) : Host.Outcome State Fault Refusal := event (mailEff s 8 replyTo) s

end Sys2Proof.Machine
end

