-- ==== Sys2Proof/Machine/Platform.lean ====
section
/-! DEFINITION. The registers of the control region (R400, R405, R409, R410, R420), and what comes from outside the cores:
application cores and PCIe requesters (R314, R315), soft errors (R393), the loss of a shed (R395), DVFS (R420). -/

namespace Sys2Proof.Machine

/-! ### Reading a register -/

/-- State codes (R332, R399). -/
def LqState.code : LqState → Nat
  | .disabled => 0
  | .opened => 1
  | .quiescing => 2
  | .closed => 3
def linkCode : LinkState → Nat
  | .down => 0
  | .training => 1
  | .up => 2
  | .degraded => 3
  | .retraining => 4
  | .lost => 5

/-- `LQCTL` (R332). -/
def LaunchQueue.word (x : LaunchQueue) : DWord :=
  BitVec.ofNat 64 (x.ctx.toNat * 2 ^ 48 + x.recs.length * 2 ^ 32 + x.level * 2 ^ 20 + x.last.toNat * 2 ^ 16 +
    x.prio.toNat * 2 ^ 8 + x.st.code)

/-- `VLCTL` and `VLSTAT` (R400). -/
def VLink.ctl (l : VLink) : DWord := BitVec.ofNat 64 (l.genmax.toNat * 2 ^ 6 + l.wmin.toNat * 2 ^ 4)
def VLink.stat (l : VLink) : DWord :=
  BitVec.ofNat 64 (l.peer.toNat * 2 ^ 48 + l.plink.toNat * 2 ^ 40 + l.retry.toNat * 2 ^ 24 + l.lanes.toNat * 2 ^ 16 +
    (if l.up then l.width.toNat * 2 ^ 8 + l.gen.toNat * 2 ^ 6 else 0) + linkCode l.st)

/-- `FMMIG` (R385) and `PWRCAP` (R420). -/
def Migration.word (m : Migration) : DWord :=
  BitVec.ofNat 64 ((if m.busy then 2 ^ 63 else 0) + (if m.fail then 2 ^ 62 else 0) + m.gran.toNat * 2 ^ 21)
def State.powerWord (s : State) : DWord :=
  BitVec.ofNat 64 (s.pnow.toNat * 2 ^ 48 + s.mv.toNat * 2 ^ 32 + s.plim.toNat)

/-- A load of a register; `LQPUSH`, `RTSREQ`, `FWREQ` and the reserved log units read zero (R409, R410). So do `TLBINV` and the service
FIFOs, of which the spec gives no read: they are push windows too, and a write-only field reads zero (R5; DESIGN CHOICE, log 122). -/
def State.readReg (s : State) (r : CtlReg) : DWord :=
  match r with
  | .lqctl q => (s.lq q).word
  | .fmmig => s.migration.word
  | .pwrcap => s.powerWord
  | .vlctl k => (s.link k).ctl
  | .vlstat k => (s.link k).stat
  | .window j w => let e := s.peerWindows.getD j (0, 0); if w = 0 then e.1 else e.2
  | .elog u w =>
    if 2095 ≤ u then 0
    else let e := Sparse.get (0, 0) s.elog u; if w = 0 then e.1 else e.2
  | .lqpush _ | .tlbinv | .service _ | .rtsreq | .fwreq => 0

/-! ### Writing a register -/

/-- A store to `LQCTL` (R332, R334): `CTX` only while DISABLED, `PRIO`, then the command. -/
def State.writeLq (s : State) (q : Nat) (v : DWord) : State :=
  let x := s.lq q
  let s := s.setLq q { x with
    ctx := if x.st = .disabled then v.extractLsb' 48 16 else x.ctx, prio := v.extractLsb' 8 2 }
  match bits v.toNat 4 2 with
  | 1 => s.openQueue q
  | 2 => s.quiesceQueue q
  | 3 => s.disableQueue q
  | _ => s

/-- A store to `VLCTL` (R400, R401). -/
def State.writeVl (s : State) (k : Nat) (v : DWord) : State :=
  let l := s.link k
  let g : BitVec 2 := v.extractLsb' 6 2
  let s := s.setLink k { l with genmax := if g = 1 || g = 2 then g else l.genmax, wmin := v.extractLsb' 4 2 }
  match bits v.toNat 0 2 with
  | 1 => s.enableLink k
  | 2 => s.retrainLink k
  | 3 => s.disableLink k
  | _ => s

/-- A store to word `w` of a peer window entry: reserved fields stay zero (R405). -/
def State.writeWindow (s : State) (j w : Nat) (v : DWord) : State :=
  let e := s.peerWindows.getD j (0, 0)
  let e' := if w = 0 then (v &&& 0xE0FFFFFFC000FFFF, e.2) else (e.1, v &&& 0xFFFFFFFFFFC00000)
  { s with peerWindows := s.peerWindows.setIfInBounds j e' }

/-- A store to `ELOG0` clears `VAL` and `OVR` where it holds ones; `ELOG1` is read-only (R392). -/
def State.writeElog (s : State) (u w : Nat) (v : DWord) : State :=
  if w ≠ 0 || 2095 ≤ u then s
  else
    let e := Sparse.get (0, 0) s.elog u
    { s with elog := Sparse.put s.elog u (e.1 &&& ~~~(v &&& 0xC000000000000000), e.2) }

/-- A store to `PWRCAP`: `PLIM` is clamped to 1,600–2,400 (R420). -/
def State.writePower (s : State) (v : DWord) : State :=
  { s with plim := BitVec.ofNat 12 (max 1600 (min 2400 (bits v.toNat 0 12))) }

/-- A store to a shunter's service FIFO pushes the 32-byte record at the stored address, read now (R270, R310). -/
def State.servicePush (s : State) (n : Nat) (v : DWord) (rqk rqi : Nat) : State :=
  let bad := s.logError (shunterUnit n) Cause.accessViolation.code 0x0C 0 rqk rqi v
  match s.pushed v 5 with
  | none => bad
  | some pa =>
    let r := s.readNat pa 32
    let w := fun (i : Nat) => BitVec.ofNat 64 (bits r (64 * i) 64)
    if bits r 192 64 % 4 ≠ 0 || !inYard (bits r 192 64) then bad
    else
      let k := s.shunter n
      { s.setShunter n { k with service := k.service ++ [⟨s.nextCmd, s.now, w 0, w 1, w 2, w 3⟩] } with
        nextCmd := s.nextCmd + 1 }

/-- A store to `RTSREQ` (R415): the record, and the digest that an EXTEND names, are read now. -/
def State.rtsPush (s : State) (v : DWord) (rqk rqi : Nat) : State :=
  match s.pushed v 6 with
  | none => s.logPush v rqk rqi
  | some pa =>
    let r := s.record64 pa
    let done := bits r.toNat 128 64
    if done % 4 ≠ 0 || !inYard done then s.logPush v rqk rqi
    else
      let a := bits r.toNat 64 64
      let ok := a + 64 ≤ 2 ^ 56 && s.readable a && s.readable (a + 63) && (s.peer? a).isNone && !s.poisoned a &&
        !s.poisoned (a + 63)
      let digest : Option (BitVec 512) := if ok then some (BitVec.ofNat 512 (s.readEach a 64)) else none
      let (d, s) := s.delay
      { s with plovelm := { s.plovelm with requests := s.plovelm.requests ++ [⟨r, digest, none, s.now + d⟩] } }

/-- A store to a register, from a requester of kind `rqk` and number `rqi`. -/
def State.writeReg (s : State) (r : CtlReg) (v : DWord) (rqk rqi : Nat) : State :=
  match r with
  | .lqctl q => s.writeLq q v
  | .lqpush q => s.queuePush q v
  | .tlbinv => s.tlbPush v rqk rqi
  | .fmmig => s.migrate v
  | .service n => s.servicePush n v rqk rqi
  | .rtsreq => s.rtsPush v rqk rqi
  | .pwrcap => s.writePower v
  | .fwreq => s.mailPush v rqk rqi
  | .vlctl k => s.writeVl k v
  | .vlstat _ => s
  | .window j w => s.writeWindow j w v
  | .elog u w => s.writeElog u w v

/-- Why an access to the region is refused, in the order of R410: the `RSN`. -/
def ctlRefuses (addr rqk size : Nat) : Option Nat :=
  if rqk = 0 || rqk = 1 then some 0x03
  else if size ≠ 8 || addr % 8 ≠ 0 then some 0x0A
  else if (ctlReg addr).isNone then some 0x0B
  else none

/-- The effect of REGISTER_WRITE: a store to the control region is carried out, or refused and logged by unit 2,094. -/
def State.registerWrite (s : State) (addr : Nat) (v : DWord) (rqk rqi size : Nat) : State :=
  match ctlRefuses addr rqk size, ctlReg addr with
  | none, some r => s.writeReg r v rqk rqi
  | some rsn, _ => s.logError 2094 Cause.accessViolation.code rsn 0 rqk rqi (BitVec.ofNat 64 addr)
  | none, none => s

/-- A register whose store reads a record in memory: the push releases, so the agent's earlier accesses take place first
(R308, R310). -/
def CtlReg.pushes : CtlReg → Bool
  | .lqpush _ | .tlbinv | .service _ | .rtsreq | .fwreq => true
  | _ => false

/-- A push window of a launch queue: the pushes of a cycle take place after its LAUNCHes, at its end (R333). -/
def CtlReg.launches : CtlReg → Bool
  | .lqpush _ => true
  | _ => false

/-! ### Application cores and PCIe requesters -/

/-- The live context whose tables an application core or a PCIe requester uses: the same root page, and for an application core the
same ASID too (R375, R377). -/
def State.satpCtx (s : State) (pcie : Bool) (satp : DWord) : Option (Nat × Context) :=
  let n := if pcie then 44 else 60
  s.ctxs.find? fun c => c.2.satp % 2 ^ n = satp.toNat % 2 ^ n && !c.2.destroying

/-- The I/O die of a requester (R7): an application core by its number, a PCIe requester by its root port, for which the model takes
bits [11:10] of its number (DESIGN CHOICE, log 22). -/
def ioDie (pcie : Bool) (n : Nat) : Nat := if pcie then n / 2 ^ 10 % 4 / 2 else n % 32 / 16

/-- A window access that a tile cache of an I/O die serves: its entry becomes the latest used; one that is RESIDENT fills the cache of
256 entries and sets its sharer bit (R256, R378). -/
def State.ioShare (s : State) (pcie : Bool) (die ea : Nat) : State :=
  let xs := s.ioTiles.getD die []
  let put := fun (s : State) (e : BitVec 128) =>
    { s with ioTiles := s.ioTiles.setIfInBounds die (((ea, e) :: xs.filter (·.1 ≠ ea)).take 256) }
  match xs.find? (·.1 = ea) with
  | some r => put s r.2
  | none =>
    let e := s.tileEntry ea
    let e' := tShare e (if pcie then 9 else 8)
    if tState e ≠ 0 then s else (put s e').setTileEntry ea e'

/-- What the atomics of an application core leave in memory: `m` the old value, `b` the operand, of `w` bits. -/
def hartResult (op : HartOp) (w m b : Nat) : Nat :=
  match op with
  | .swap => b
  | .add => (m + b) % 2 ^ w
  | .xor => m ^^^ b
  | .and => m &&& b
  | .or => m ||| b
  | .min => if toSigned w b < toSigned w m then b else m
  | .max => if toSigned w m < toSigned w b then b else m
  | .minu => min m b
  | .maxu => max m b

/-- What page permission an outside access needs (R376). -/
def ioAcc (k : AccessKind) : Acc :=
  match k with
  | .load | .loadReserved | .fence .. => .load
  | .store | .storeConditional => .store
  | .amo _ => .amo

/-- The place of one line's part of an outside access, with the kind of its page. -/
def State.ioReach (s : State) (pcie : Bool) (rq : Access) (addr : DWord) : Reach × State :=
  let acc := ioAcc rq.kind
  let die := ioDie pcie rq.requester
  match rq.satp with
  | none => if 2 ^ 56 ≤ addr.toNat then (.fail .accessViolation none, s) else (s.reachPa acc addr.toNat 0 addr, s)
  | some satp =>
    let w := s.walk (bits satp.toNat 0 44) addr
    let ctx := (s.satpCtx pcie satp).map (·.2)
    let r := s.reach acc w (s.ioTiles.getD die []) ctx (2092 + die) addr
    match r, w with
    | .at _ _, .leaf _ pte => match (if pteWindow pte then s.windowTile ctx (2092 + die) pte addr else .inl .wait) with
      | .inr ea => (r, s.ioShare pcie die ea)
      | .inl _ => (r, s)
    | _, _ => (r, s)

/-- The context of an outside access. -/
def State.ioCtx (s : State) (x : IoReq) : Nat := ((x.rq.satp.bind (s.satpCtx x.pcie)).map (·.1)).getD 0

/-- An outside requester as the writer of bytes to UO pages (R305): beyond the numbers of the cores. -/
def IoReq.who (x : IoReq) : Nat := (if x.pcie then 2 ^ 12 else 2 ^ 11) + x.rq.requester

/-- How one line's part of an outside access ends: with its bytes, with an error response, or in a wait, after which state. -/
inductive IoPart where
  | done (s : State) (bs : List Byte)
  | refused (s : State)
  | wait (s : Option State)

/-- An error response, logged where a unit refuses (R392). -/
def State.ioRefuse (s : State) (x : IoReq) (c : Cause) (log : Option LogRec) : IoPart :=
  .refused (s.logRefused c log (s.ioCtx x) (if x.pcie then 3 else 2) x.rq.requester)

/-- A part of `n` bytes of an outside access to the control region (R306, R410): application cores only. -/
def State.ioControl (s : State) (x : IoReq) (pa n : Nat) (data : List Byte) (addr : DWord) : IoPart :=
  let no := fun (rsn : Nat) => s.ioRefuse x .accessViolation (some ⟨2094, rsn, addr, false⟩)
  match (if x.pcie then some 0x03 else ctlRefuses pa 2 n), ctlReg pa with
  | some rsn, _ => no rsn
  | none, some r => match x.rq.kind with
    | .load => .done s (valBytes 8 (s.readReg r).toNat)
    | .store => .done (s.writeReg r (BitVec.ofNat 64 (bytesVal (data.take 8))) 2 x.rq.requester) (valBytes 8 0)
    | _ => no 0x0A
  | none, none => no 0x0B


/-- An outside access to memory of the package (R302, R314). SC writes, and gives 0, where its hart still holds a reservation of these
bytes, which any write to one of them ends; LR and SC of a PCIe requester are refused (DESIGN CHOICE, log 104). -/
def State.ioMemory (s : State) (x : IoReq) (pa : Nat) (kind : BitVec 2) (n : Nat) (data : List Byte) (addr : DWord) : IoPart :=
  let at_ := s.key (pa / 256 * 256) + pa % 256
  let hart := x.rq.requester
  let free := s.reservations.filter (·.1 ≠ hart)
  -- What a store to a UO page replaces may still be read by others (R305).
  let put := fun (s : State) (bs : List Byte) => (if kind = 2 then s.uoWrite x.who pa n else s).writeBytes pa bs
  if x.rq.kind ≠ .store && s.poisoned pa then
    s.ioRefuse x .uncorrectable (some ⟨s.unitOf pa, 0x08, addr, false⟩)
  else match x.rq.kind with
    | .load => .done s (s.memoryFor x.who kind pa n)
    | .store => .done (put s data) (valBytes n 0)
    | .amo op =>
      let old := s.readBytes pa n
      .done (put s (valBytes n (hartResult op (8 * n) (bytesVal old) (bytesVal data)))) old
    | .loadReserved =>
      if x.pcie then s.ioRefuse x .accessViolation none
      else .done { s with reservations := free ++ [(hart, at_, n)] } (s.readBytes pa n)
    | .storeConditional =>
      if x.pcie then s.ioRefuse x .accessViolation none
      else if s.reservations.contains (hart, at_, n) then .done (put { s with reservations := free } data) (valBytes n 0)
      else .done { s with reservations := free } (valBytes n 1)
    | .fence .. => .done s []

/-- One line's part of an outside access. A part in a peer's window asks the peer, a part in a near store takes its turn at port 3. -/
def State.ioPart (s : State) (x : IoReq) (k : Nat) (addr : DWord) (n : Nat) (data : List Byte) : IoPart :=
  let (r, s) := s.ioReach x.pcie x.rq addr
  match r with
  | .wait => .wait none
  | .fail c log => s.ioRefuse x c log
  | .at pa kind => match s.peer? pa with
    | some e =>
      let own := PeerOwner.outside x.id k
      match s.peerState own with
      | .done bs => .done (s.peerDrop own) (bs.take n ++ List.replicate (n - bs.length) 0)
      | .failed c => (s.peerDrop own).ioRefuse x c (if c = .linkLost then some ⟨s.unitOf pa, 0, addr, false⟩ else none)
      | .wait =>
        if s.peerSent own || s.peerLink e pa = .inr true then .wait none
        else match x.rq.kind with
          | .load => .wait (some (s.peerSend own e 0 pa n [] []))
          | .store => .wait (some (s.peerSend own e 1 pa n [] data))
          | _ => s.ioRefuse x .accessViolation (some ⟨s.unitOf pa, 0x03, addr, false⟩)
    | none =>
      if place pa = .control then
        -- The pushes of application cores take place after those of the cores and yardmasters, at the end of a cycle (R333).
        match ctlReg pa with
        | some (.lqpush _) => if x.rq.kind = .store && s.turn ≠ .events then .wait none else s.ioControl x pa n data addr
        | _ => s.ioControl x pa n data addr
      else match s.guestTurn (.outside x.id) pa 1 with
        | some t => .wait t
        | none => (s.unserve (.outside x.id)).ioMemory x pa kind n data addr

/-- An outside access ends: its reply goes to the requester. -/
def State.ioDone (s : State) (x : IoReq) (data : Option (List Byte)) : State :=
  { s with
    replies := s.replies ++ [(x.rq.requester, data.map lineOf)], ioWait := s.ioWait.filter (·.id ≠ x.id)
    served := s.served.filter (· ≠ .outside x.id) }

/-- The first part of an access has been carried out, with these bytes; it is not carried out again (R302, R306). -/
def State.ioKeep (s : State) (x : IoReq) (bs : List Byte) : State :=
  { s with ioWait := s.ioWait.map fun y => if y.id = x.id then { y with got := some bs } else y }

/-- The kinds of the pages that an outside access touches (R300, R306); the control region is SO (R410). -/
def State.ioKinds (s : State) (x : IoReq) : List (BitVec 2) :=
  let one := fun (va : DWord) => match x.rq.satp with
    | none => if place (va.toNat % 2 ^ 56) = .control then some 1 else some 0
    | some satp => match s.walk (bits satp.toNat 0 44) va with
      | .leaf level pte =>
        if !pteWindow pte && place (leafAddr level pte va) = .control then some 1 else some (pteKind pte)
      | _ => none
  [x.rq.addr, x.rq.addr + BitVec.ofNat 64 (x.rq.size - 1)].filterMap one

/-- An outside access reads; it writes. -/
def ioReads : AccessKind → Bool
  | .load | .amo _ | .loadReserved => true
  | _ => false
def ioWrites : AccessKind → Bool
  | .store | .amo _ | .storeConditional => true
  | _ => false

/-- An outside access is a store to a push window (R308, R310). -/
def State.ioPushes (s : State) (x : IoReq) : Bool :=
  let pa := match x.rq.satp with
    | none => some x.rq.addr.toNat
    | some satp => match s.walk (bits satp.toNat 0 44) x.rq.addr with
      | .leaf level pte => if pteWindow pte then none else some (leafAddr level pte x.rq.addr)
      | _ => none
  x.rq.kind = .store && (pa.bind ctlReg).any CtlReg.pushes

/-- An access of a requester that waits holds back a later one of it (R303, R308, R314, R315): they touch a common byte, both touch SO
pages, a FENCE of the hart lies between them or is one of them, `aq` or `rl` orders them, as all that have them keep their order
(RVWMO), the later is a push, which releases; or both are PCIe writes and the later has no Relaxed Ordering. FENCEs, `aq`, `rl` and
pushes leave out UO pages, but for a FENCE whose sets hold i and o. -/
def State.ioOrders (s : State) (e x : IoReq) : Bool :=
  let uo := fun (y : IoReq) => (s.ioKinds y).all (· = 2)
  let so := fun (y : IoReq) => (s.ioKinds y).contains 1
  e.pcie = x.pcie && e.rq.requester = x.rq.requester && e.id < x.id &&
  match e.rq.kind, x.rq.kind with
  | .fence .., .fence .. => true
  | .fence _ _ sr sw io, k => (io || !uo x) && ((sr && ioReads k) || (sw && ioWrites k))
  | k, .fence pr pw _ _ io => (io || !uo e) && ((pr && ioReads k) || (pw && ioWrites k))
  | k, j =>
    (e.rq.addr.toNat < x.rq.addr.toNat + x.rq.size && x.rq.addr.toNat < e.rq.addr.toNat + e.rq.size) ||
    (so e && so x) || (!uo e && s.ioPushes x) ||
    (!uo e && !uo x && ((e.rq.aq && ioReads k) || (x.rq.rl && ioWrites j) || ((e.rq.aq || e.rq.rl) && (x.rq.aq || x.rq.rl)))) ||
    (x.pcie && k = .store && j = .store && !x.rq.relaxed)

/-- An outside access of up to a line goes on: one that crosses a line's end is carried out in two parts, in their order. An access
that asks a peer, takes its turn at a port, or meets a block in motion waits (R258, R306, R406). None where nothing can happen. -/
def State.ioStep (s : State) (x : IoReq) : Option State :=
  let rq := x.rq
  let n := min rq.size 256
  let first := min n (256 - rq.addr.toNat % 256)
  let bs := (lineBytes rq.data).take n
  let second := fun (s : State) (a : List Byte) =>
    if first = n then some (s.ioDone x (some a))
    else match s.ioPart x 1 (rq.addr + BitVec.ofNat 64 first) (n - first) (bs.drop first) with
      | .done s b => some (s.ioDone x (some (a ++ b)))
      | .refused s => some (s.ioDone x none)
      | .wait (some t) => some (t.ioKeep x a)
      | .wait none => if x.got.isSome then none else some (s.ioKeep x a)
  if s.ioWait.any fun e => s.ioOrders e x then none
  else match rq.kind, x.got with
    | .fence _ _ _ _ io, _ =>
      some ((if io then s.uoFinal (·.core = x.who) else s).ioDone x (some []))
    | _, some a => second s a
    | _, none => match s.ioPart x 0 rq.addr first (bs.take first) with
      | .done s a => second s a
      | .refused s => some (s.ioDone x none)
      | .wait t => t

/-- An outside access comes: it is carried out, or waits. -/
def State.ioArrive (s : State) (pcie : Bool) (rq : Access) : State :=
  let x : IoReq := { id := s.nextCmd, pcie := pcie, rq := rq }
  let t := { s with ioWait := s.ioWait ++ [x], nextCmd := s.nextCmd + 1 }
  (t.ioStep x).getD t

/-! ### Errors and losses -/

/-- The context in whose tables an address lies: its layout table, its group table, or a tile table. -/
def State.tableOf (s : State) (pa : Nat) : Option Nat :=
  (s.ctxs.find? fun c =>
    let x := c.2
    (x.ltab ≤ pa && pa < x.ltab + 32 * x.nlt) || (x.gtab ≤ pa && pa < x.gtab + 8 * x.ngrp) ||
    (List.range x.nlt).any fun i =>
      let l := Lay.of (s.layRaw x i)
      l.fmt ≤ 13 && l.covers (pa / 16 * 16)).map (·.1)

/-- A line of a weight plane is poisoned. -/
def Plane.spoil (x : Plane) (line : Nat) : Plane := { x with bad := if x.bad.contains line then x.bad else line :: x.bad }

/-- A row of a slot, or a line of a plane, is poisoned (R247, R393). -/
def Matrix.spoil (m : Matrix) : Stored → Matrix
  | .slotRow _ slot row =>
    let k := slot % 32 * 64 + row % 64
    { m with poison := if m.poison.contains k then m.poison else k :: m.poison }
  | .planeLine _ plane line =>
    if plane = 0 then { m with plane0 := m.plane0.spoil line } else { m with plane1 := m.plane1.spoil line }
  | .line _ => m

/-- The effect of SOFT_ERROR (R393): corrected and counted, or what it strikes is poisoned; an uncorrectable error in a context's
tables starts its destruction (R364). -/
def State.softError (s : State) (x : Stored) (fatal : Bool) : State :=
  if !fatal then { s with softErrors := s.softErrors + 1 }
  else match x with
    | .line addr => match s.tableOf addr with
      | some id => (s.setPoison addr).tableError id
      | none => s.setPoison addr
    | .slotRow p _ _ | .planeLine p _ _ => s.setCr p { s.cr p with matrix := (s.cr p).matrix.spoil x }

/-- The labels of a slot map that are not FREE, as a mask (R395). -/
def SlotMap.labelMask (m : SlotMap) : DWord :=
  BitVec.ofNat 64 (((List.range 64).map fun n =>
    if m.map.any (·.1 = n) || m.images.any (·.label.toNat = n) then 2 ^ n else 0).sum)

/-- The slot map of a context on a core (R193). -/
def Core.mapFor (c : Core) (ctx : Nat) : SlotMap := if c.mapCtx = ctx then c.matrix.slotMap else Sparse.get {} c.kept ctx

/-- The tasks of launches of a context, on the cores of a group and stored in the snapshot area (R374): each with its logical core and
the core, or the record, that holds it. -/
def State.groupTasks (s : State) (desc : DWord) (ls : List Launch) : List (Nat × Core) :=
  let here := (List.range (groupN desc)).filterMap fun k =>
    let c := s.cr (physical desc k)
    match c.task with
    | some t => if ls.any (·.id = t.launch) then some (k, c) else none
    | none => none
  let stored := ls.flatMap fun l => l.parked.map fun p =>
    let c := s.readRecord (s.parkPlace l p)
    (c.regs.lcore.toNat, c)
  here ++ stored

/-- The containment record of a group whose launches are `ls` (R395), its words in an order of the model's (DEDUCED, log 38): the group;
for each lost logical core its number, the `WID` of each of its tasks, or zero where it has none, and the label mask of its slot map;
for each surviving task its number, `WID` and three sequence counts; the bytes acknowledged on each Vylum link. -/
def State.containment (s : State) (ctx g : Nat) (desc : DWord) (ls : List Launch) : Nat × List DWord :=
  let w := fun (n : Nat) => BitVec.ofNat 64 n
  let wid := fun (c : Core) => match c.task with | some t => t.wid | none => c.regs.wid
  let tasks := s.groupTasks desc ls
  let lost := ((List.range (groupN desc)).filter fun k => s.coreLost (physical desc k)).flatMap fun k =>
    let mask := ((s.cr (physical desc k)).mapFor ctx).labelMask
    match tasks.filter (·.1 = k) with
    | [] => [w k, 0, mask]
    | ts => ts.flatMap fun t => [w k, wid t.2, (t.2.mapFor ctx).labelMask]
  let kept := (tasks.filter fun t => !s.coreLost (physical desc t.1)).flatMap fun t =>
    [w t.1, wid t.2] ++ t.2.drain.rwr.toList.map w
  (ctx, [w g] ++ lost ++ kept ++ s.links.toList.map fun l => w l.acked)

/-- The groups that a lost shed contains: RUNNING or FROZEN, with a core in it (R360). -/
def State.lostGroups (s : State) (shed : Nat) : List (Nat × Nat × Group) :=
  s.ctxs.flatMap fun c => (c.2.groups.filter fun g =>
    (g.2.st = .running || g.2.st = .frozen) && (groupCores g.2.desc).any fun p => shedOf p = shed).map fun g =>
      (c.1, g.1, g.2)

/-- Contains a group: the containment record is written, its launch ends with code 7, and its other launches end with it (DEDUCED,
log 38), but for one whose checks run: it is refused, the group being bound no more (R354). What still runs of launches that are
complete is dropped (DEDUCED, log 118). -/
def State.containGroup (s : State) (x : Nat × Nat × Group) : State :=
  let (ctx, g, grp) := x
  let ls := s.launchesOf ctx g
  let all := s.launches.filter fun l => l.ctx = ctx && l.group = g
  let first := (ls.find? (·.st = .running)).orElse fun _ => s.toResume ctx g
  let s := { s with reports := s.reports ++ [s.containment ctx g grp.desc all] }
  let s := match first with
    | none => s.setGroup ctx g { grp with st := .contained, lost := none }
    | some l => (s.endLaunch l 7 .aborted true).1
  let s := (ls.filter fun l => l.st ≠ .accepting && first.all fun k => k.id ≠ l.id).foldl
    (fun s k => (s.endLaunch k 7 .aborted true).1) s
  (all.filter fun l => !l.active).foldl
    (fun s k => ((s.dropTasks k.id).setLaunch { k with parked := [] }).forget k.id (first.any (·.id = k.id))) s

/-- An exchange still runs on a frame of a shed. -/
def State.shedExchange (s : State) (shed : Nat) : Bool :=
  s.shunters.any fun x => match x.2.run with
    | some r => baseShed r.f1 = some shed || baseShed r.f2 = some shed
    | none => false

/-- The effect of SHED_LOST (R395, R396): its groups are contained; the device-source record with the shed's number follows
once the exchanges that the loss rolls back have ended. -/
def shedLostEff (s : State) (shed : Nat) : Option State :=
  if 8 ≤ shed then none
  else
    let b : BitVec 8 := 1#8 <<< shed
    if !s.lost.getLsbD shed then
      let s := { s with lost := s.lost ||| b, lostReport := s.lostReport ||| b }
      some ((s.lostGroups shed).foldl State.containGroup s)
    else if s.lostReport.getLsbD shed && !s.shedExchange shed then
      some ({ s with lostReport := s.lostReport &&& ~~~b }.report
        ⟨0, [trapWord0 0 0 0 0 6 0 .shedLost, 0, 0, BitVec.ofNat 64 shed], none⟩)
    else none

/-- The effect of DVFS (R420): the supply within 500–650 mV, the power under `PLIM`. -/
def dvfsEff (s : State) (pnow : BitVec 16) (mv : BitVec 12) : Option State :=
  if 500 ≤ mv.toNat && mv.toNat ≤ 650 && pnow.toNat ≤ s.plim.toNat then some { s with pnow := pnow, mv := mv } else none

/-- An act that no row of the opcode table names takes effect (R407, R417): a frame's landing bit, or bytes of the boot flash. -/
def State.act (s : State) : OutsideAct → State
  | .landing f b => s.setTag (f * 2 ^ 15) { s.tag (f * 2 ^ 15) with landing := b }
  | .flash addr bs => { s with plovelm := s.plovelm.writeFlash addr bs }

/-! ### The steps -/

/-- REGISTER_WRITE (R409). -/
def execRegisterWrite (addr : Nat) (v : BitVec 64) (rqk : BitVec 4) (rqi : BitVec 12) (size : Nat) (s : State) :
    Host.Outcome State Fault Refusal := .next (s.registerWrite addr v rqk.toNat rqi.toNat size)

/-- APPLICATION_CORE_ACCESS (R314): once the Plovelm has released the application cores. -/
def execApplicationCoreAccess (rq : Access) (s : State) : Host.Outcome State Fault Refusal :=
  event (if s.plovelm.appReset then none else some (s.ioArrive false rq)) s

/-- PCIE_MEMORY_REQUEST (R315). -/
def execPcieMemoryRequest (rq : Access) (s : State) : Host.Outcome State Fault Refusal := .next (s.ioArrive true rq)

/-- SOFT_ERROR (R393). -/
def execSoftError (x : Stored) (fatal : Bool) (s : State) : Host.Outcome State Fault Refusal := .next (s.softError x fatal)

/-- SHED_LOST (R395). -/
def execShedLost (shed : Nat) (s : State) : Host.Outcome State Fault Refusal := event (shedLostEff s shed) s

/-- DVFS (R420). -/
def execDvfs (pnow : BitVec 16) (mv : BitVec 12) (s : State) : Host.Outcome State Fault Refusal := event (dvfsEff s pnow mv) s

end Sys2Proof.Machine
end

