-- ==== Sys2Proof/Machine/Resolve.lean ====
section
/-! DEFINITION. The replies of linear loads (R108, R110, R118, R393) and the stores that become visible (R118, R381): memory,
the registers of the control region (R409, R410), peers (R405, R406). -/

namespace Sys2Proof.Machine

/-! ### Loads -/

/-- A load returns its value: to its register, unless a later instruction has written it. -/
def Core.loadDone (c : Core) (l : LinLoad) (v : DWord) : Core :=
  let c := { c with loads := c.loads.filter (·.seq ≠ l.seq) }
  (match l.dst with | some d => c.putS d v | none => c).dropFences

/-- A load's reply is an error, which its controller or port logs (R392, R393): its exception is taken, and its register stays
pending. -/
def State.loadFails (s : State) (p : Nat) (l : LinLoad) (k : Cause) : State :=
  let c := s.cr p
  let s := s.setCr p { c with loads := c.loads.map fun x => if x.seq = l.seq then { x with failed := true } else x }
  (s.logFail p k l.pa l.va).replyTrap p k l.va

/-- The eight bytes of a peer that hold an access of at most eight. -/
def peerWord (pa : Nat) : Nat := pa / 8 * 8

/-- A load of a core that is due and that nothing holds back. It reads memory in the cycle of its reply, also where a port 3 has served it
before, and a request to a peer or from outside does so at the far end (DESIGN CHOICE, log 19). -/
def State.loadStep (s : State) (p : Nat) (l : LinLoad) : Option State :=
  let c := s.cr p
  let own : PeerOwner := .load p l.seq
  let own3 : PortOwner := .load p l.seq
  match l.bound with
  | some v => some (s.setCr p (c.loadDone l v))
  | none =>
    if l.failed || l.again || c.restored || !c.free l.access || s.waitsPort3 own3 || s.lineLocked l.pa then none
    else match ctlReg l.pa, s.peer? l.pa with
      | some r, _ => some (s.setCr p (c.loadDone l (s.readReg r)))
      | none, some e =>
        match s.peerState own with
        | .done bs =>
          let v := loadValue l.size l.signed ((bs.drop (l.pa % 8)).take l.size)
          some ((s.peerDrop own).setCr p (c.loadDone l v))
        | .failed k => some ((s.peerDrop own).loadFails p l k)
        | .wait =>
          -- A store of the core to the same bytes reaches the peer first.
          if s.peerSent own || c.stores.any (fun x => x.seq < l.seq && peerWord x.pa = peerWord l.pa) then none
          else s.askPeer own e 0 (peerWord l.pa) 8 [] []
      | none, none =>
        if s.poisoned l.pa then some (s.loadFails p l .uncorrectable)
        else match s.farLink l.pa with
          | .wait => none
          | .fail k => some (s.loadFails p l k)
          | .ok => some (s.setCr p (c.loadDone l (loadValue l.size l.signed (s.loadBytes p l))))

/-- The effect of LOAD_REPLY: the first load that is due and can go on. -/
def loadReplyEff (s : State) (p : Nat) : Option State :=
  ((s.cr p).loads.filter (·.due ≤ s.now)).findSome? (s.loadStep p)

/-! ### Stores -/

/-- A store has taken place. -/
def State.storeDone (s : State) (p : Nat) (x : LinStore) : State :=
  let c := s.cr p
  s.setCr p { c with stores := c.stores.filter (·.seq ≠ x.seq) }.dropFences

/-- A store cannot reach its destination, which the port logs (R392): its exception is taken. -/
def State.storeFails (s : State) (p : Nat) (x : LinStore) (k : Cause) : State :=
  ((s.storeDone p x).logFail p k x.pa x.va).replyTrap p k x.va

/-- The store has been sent to its peer. -/
def State.storeSent (s : State) (p : Nat) (x : LinStore) : State :=
  let c := s.cr p
  s.setCr p { c with stores := c.stores.map fun y => if y.seq = x.seq then { y with served := true } else y }

/-- The bytes of a peer's eight after a store of fewer. -/
def LinStore.merge (x : LinStore) (old : List Byte) : List Byte :=
  (List.range 8).map fun i =>
    let a := peerWord x.pa + i
    if x.pa ≤ a && a < x.pa + x.size then x.bytes.getD (a - x.pa) 0 else old.getD i 0

/-- A store of a core that is due. To a peer, a store of fewer than eight bytes reads the eight first; in a near store it takes its turn
at port 3 (R11). -/
def State.storeStep (s : State) (p : Nat) (x : LinStore) : Option State :=
  let c := s.cr p
  let own : PeerOwner := .store p x.seq
  if !c.free x.access || s.lineLocked x.pa then none
  else match ctlReg x.pa, s.peer? x.pa with
    | some r, _ =>
      if (r.pushes && !c.settled .c x.seq) || (r.launches && s.turn ≠ .events) then none
      else some ((s.storeDone p x).writeReg r x.val 5 (p - 512))
    | none, some e =>
      match s.peerState own with
      | .failed k => some ((s.peerDrop own).storeFails p x k)
      | .done [] => some ((s.peerDrop own).storeDone p x)
      | .done old => ((s.peerDrop own).storeSent p x).askPeer own e 1 (peerWord x.pa) 8 [] (x.merge old)
      | .wait =>
        if s.peerSent own then none
        else if x.size = 8 then (s.storeSent p x).askPeer own e 1 x.pa 8 [] x.bytes
        else s.askPeer own e 0 (peerWord x.pa) 8 [] []
    | none, none => match s.farLink x.pa with
      | .wait => none
      | .fail k => some (s.storeFails p x k)
      | .ok => match s.nearTurn p x.pa x.seq x.served with
        | some t => t
        | none => some (((s.keepOld p x).storeDone p x).writeBytes x.pa x.bytes)

/-- The effect of STORE_RESOLVED: the first store that is due and can go on. -/
def storeEff (s : State) (p : Nat) : Option State :=
  ((s.cr p).stores.filter (·.due ≤ s.now)).findSome? (s.storeStep p)

/-- An access of C that is due meets a line that a shunter has locked in a near store: until the release the joined core is frozen, and
a forked C waits (R16). -/
def State.lockWait (s : State) (p : Nat) : Bool :=
  let c := s.cr p
  let meets := fun (due pa : Nat) => due ≤ s.now && (match place pa with | .near _ _ => s.lineLocked pa | _ => false)
  c.loads.any (fun l => !l.failed && !l.again && !c.restored && l.bound.isNone && c.free l.access && meets l.due l.pa) ||
  c.stores.any (fun x => x.gone.isNone && c.free x.access && meets x.due x.pa) ||
  c.amos.any (fun r => !r.failed && r.round.isNone && r.late = .here && c.free r.access && meets r.due r.pa) ||
  c.gbArrives.any fun g => g.gone.isNone && c.free g.access && meets g.due g.pa

/-! ### The steps -/

/-- LOAD_REPLY (R108). -/
def execLoadReply (p : Nat) (s : State) : Host.Outcome State Fault Refusal := event (loadReplyEff s p) s

/-- STORE_RESOLVED (R381). -/
def execStoreResolved (p : Nat) (s : State) : Host.Outcome State Fault Refusal := event (storeEff s p) s

end Sys2Proof.Machine
end

