-- ==== Sys2Proof/Decode.lean ====
section
/-! DEFINITION. The decoder of instruction words (04), total on every pair of words and rejecting by name, and after
it the encoder. A decode names its exception: `illegal` is ILLEGAL_INSTRUCTION, `reserved` RESERVED_FIELD (R82),
and `illegal` hides `reserved` (R83). The checks of a whole line (R60) and of the core and mode (R68, R81) are the
machine's. -/

namespace Sys2Proof

/-- What the decoder makes of an instruction's words. -/
inductive Dec where
  | ok (i : Instr)
  /-- ILLEGAL_INSTRUCTION (R82). -/
  | illegal
  /-- RESERVED_FIELD (R82). -/
  | reserved
  deriving DecidableEq, Repr

/-- The end of every decode: ILLEGAL_INSTRUCTION before RESERVED_FIELD (R83); `clear` says that the reserved fields of
the words are zero. -/
def finish (st : Stream) (clear : Bool) (i : Instr) : Dec :=
  if !(i.homes.contains st && i.codesOk st) then .illegal
  else if clear && i.fieldsOk st then .ok i else .reserved

/-- The majors of the long forms of a stream, whose second word stands in the next lane (R73, R77-R81). -/
def isLong (st : Stream) (maj : Nat) : Bool :=
  maj == 0x60 || maj == 0x61 ||
  match st with
  | .c => maj == 0x0C || maj == 0x37 || maj == 0x40
  | .a => maj == 0x05 || maj == 0x13 || (0x30 ≤ maj && maj ≤ 0x34)
  | .k => maj == 0x24
  | .d => maj == 0x01 || maj == 0x02 || maj == 0x09 || (0x10 ≤ maj && maj ≤ 0x13)

/-- The majors of the control transfers of a stream (R64), RTT among them on a yardmaster. -/
def isTransfer (yard : Bool) (st : Stream) (maj : Nat) : Bool :=
  (0x62 ≤ maj && maj ≤ 0x65) ||
  (st == .c && ((0x30 ≤ maj && maj ≤ 0x37) || maj == 0x6F || (yard && maj == 0x58)))

/-- The register ALU, major 0x01 of C, by fn (R111). -/
def decodeAlu (st : Stream) (w0 : Word) : Dec :=
  match (w0.extractLsb' 0 8).toNat with
  | 0 => finish st (true) (.add (w0.extractLsb' 23 2) (w0.extractLsb' 18 5) (w0.extractLsb' 13 5) (w0.extractLsb' 8 5))
  | 1 => finish st (true) (.sub (w0.extractLsb' 23 2) (w0.extractLsb' 18 5) (w0.extractLsb' 13 5) (w0.extractLsb' 8 5))
  | 2 => finish st (true) (.mul (w0.extractLsb' 23 2) (w0.extractLsb' 18 5) (w0.extractLsb' 13 5) (w0.extractLsb' 8 5))
  | 3 => finish st (true) (.mulh (w0.extractLsb' 23 2) (w0.extractLsb' 18 5) (w0.extractLsb' 13 5) (w0.extractLsb' 8 5))
  | 4 => finish st (true) (.mulhu (w0.extractLsb' 23 2) (w0.extractLsb' 18 5) (w0.extractLsb' 13 5) (w0.extractLsb' 8 5))
  | 5 => finish st (true) (.div (w0.extractLsb' 23 2) (w0.extractLsb' 18 5) (w0.extractLsb' 13 5) (w0.extractLsb' 8 5))
  | 6 => finish st (true) (.divu (w0.extractLsb' 23 2) (w0.extractLsb' 18 5) (w0.extractLsb' 13 5) (w0.extractLsb' 8 5))
  | 7 => finish st (true) (.rem (w0.extractLsb' 23 2) (w0.extractLsb' 18 5) (w0.extractLsb' 13 5) (w0.extractLsb' 8 5))
  | 8 => finish st (true) (.remu (w0.extractLsb' 23 2) (w0.extractLsb' 18 5) (w0.extractLsb' 13 5) (w0.extractLsb' 8 5))
  | 9 => finish st (true) (.and_ (w0.extractLsb' 23 2) (w0.extractLsb' 18 5) (w0.extractLsb' 13 5) (w0.extractLsb' 8 5))
  | 10 => finish st (true) (.or_ (w0.extractLsb' 23 2) (w0.extractLsb' 18 5) (w0.extractLsb' 13 5) (w0.extractLsb' 8 5))
  | 11 => finish st (true) (.xor_ (w0.extractLsb' 23 2) (w0.extractLsb' 18 5) (w0.extractLsb' 13 5) (w0.extractLsb' 8 5))
  | 12 => finish st (true) (.andn (w0.extractLsb' 23 2) (w0.extractLsb' 18 5) (w0.extractLsb' 13 5) (w0.extractLsb' 8 5))
  | 13 => finish st (true) (.shl (w0.extractLsb' 23 2) (w0.extractLsb' 18 5) (w0.extractLsb' 13 5) (w0.extractLsb' 8 5))
  | 14 => finish st (true) (.shr (w0.extractLsb' 23 2) (w0.extractLsb' 18 5) (w0.extractLsb' 13 5) (w0.extractLsb' 8 5))
  | 15 => finish st (true) (.sar (w0.extractLsb' 23 2) (w0.extractLsb' 18 5) (w0.extractLsb' 13 5) (w0.extractLsb' 8 5))
  | 16 => finish st (true) (.rol (w0.extractLsb' 23 2) (w0.extractLsb' 18 5) (w0.extractLsb' 13 5) (w0.extractLsb' 8 5))
  | 17 => finish st (true) (.min_ (w0.extractLsb' 23 2) (w0.extractLsb' 18 5) (w0.extractLsb' 13 5) (w0.extractLsb' 8 5))
  | 18 => finish st (true) (.max_ (w0.extractLsb' 23 2) (w0.extractLsb' 18 5) (w0.extractLsb' 13 5) (w0.extractLsb' 8 5))
  | 19 => finish st (true) (.minu (w0.extractLsb' 23 2) (w0.extractLsb' 18 5) (w0.extractLsb' 13 5) (w0.extractLsb' 8 5))
  | 20 => finish st (true) (.maxu (w0.extractLsb' 23 2) (w0.extractLsb' 18 5) (w0.extractLsb' 13 5) (w0.extractLsb' 8 5))
  | 21 => finish st (true) (.slt (w0.extractLsb' 23 2) (w0.extractLsb' 18 5) (w0.extractLsb' 13 5) (w0.extractLsb' 8 5))
  | 22 => finish st (true) (.sltu (w0.extractLsb' 23 2) (w0.extractLsb' 18 5) (w0.extractLsb' 13 5) (w0.extractLsb' 8 5))
  | 23 => finish st (true) (.seq (w0.extractLsb' 23 2) (w0.extractLsb' 18 5) (w0.extractLsb' 13 5) (w0.extractLsb' 8 5))
  | 24 => finish st (w0.extractLsb' 8 5 == 0) (.clz (w0.extractLsb' 23 2) (w0.extractLsb' 18 5) (w0.extractLsb' 13 5))
  | 25 => finish st (w0.extractLsb' 8 5 == 0) (.ctz (w0.extractLsb' 23 2) (w0.extractLsb' 18 5) (w0.extractLsb' 13 5))
  | 26 => finish st (w0.extractLsb' 8 5 == 0) (.popc (w0.extractLsb' 23 2) (w0.extractLsb' 18 5) (w0.extractLsb' 13 5))
  | 27 => finish st (true) (.bext (w0.extractLsb' 23 2) (w0.extractLsb' 18 5) (w0.extractLsb' 13 5) (w0.extractLsb' 8 5))
  | _ => .illegal

/-- The control stream, majors 0x01-0x5F (R77). -/
def decodeC (st : Stream) (maj : Nat) (w0 w1 : Word) : Dec :=
  match maj with
  | 0x01 => decodeAlu st w0
  | 0x2 => finish st (true) (.addi (w0.extractLsb' 23 2) (w0.extractLsb' 18 5) (w0.extractLsb' 13 5) (w0.extractLsb' 0 13))
  | 0x3 => finish st (true) (.andi (w0.extractLsb' 23 2) (w0.extractLsb' 18 5) (w0.extractLsb' 13 5) (w0.extractLsb' 0 13))
  | 0x4 => finish st (true) (.ori (w0.extractLsb' 23 2) (w0.extractLsb' 18 5) (w0.extractLsb' 13 5) (w0.extractLsb' 0 13))
  | 0x5 => finish st (true) (.xori (w0.extractLsb' 23 2) (w0.extractLsb' 18 5) (w0.extractLsb' 13 5) (w0.extractLsb' 0 13))
  | 0x6 => finish st (w0.extractLsb' 6 7 == 0) (.shli (w0.extractLsb' 23 2) (w0.extractLsb' 18 5) (w0.extractLsb' 13 5) (w0.extractLsb' 0 6))
  | 0x7 => finish st (w0.extractLsb' 6 7 == 0) (.shri (w0.extractLsb' 23 2) (w0.extractLsb' 18 5) (w0.extractLsb' 13 5) (w0.extractLsb' 0 6))
  | 0x8 => finish st (w0.extractLsb' 6 7 == 0) (.sari (w0.extractLsb' 23 2) (w0.extractLsb' 18 5) (w0.extractLsb' 13 5) (w0.extractLsb' 0 6))
  | 0x9 => finish st (true) (.slti (w0.extractLsb' 23 2) (w0.extractLsb' 18 5) (w0.extractLsb' 13 5) (w0.extractLsb' 0 13))
  | 0xa => finish st (true) (.sltiu (w0.extractLsb' 23 2) (w0.extractLsb' 18 5) (w0.extractLsb' 13 5) (w0.extractLsb' 0 13))
  | 0xb => finish st (true) (.li (w0.extractLsb' 23 2) (w0.extractLsb' 18 5) (w0.extractLsb' 13 5) (w0.extractLsb' 0 13))
  | 0xc => finish st (w0.extractLsb' 0 18 == 0) (.li64 (w0.extractLsb' 23 2) (w0.extractLsb' 18 5) (w1.extractLsb' 0 32))
  | 0x10 => finish st (true) (.ldB (w0.extractLsb' 23 2) (w0.extractLsb' 18 5) (w0.extractLsb' 13 5) (w0.extractLsb' 0 13))
  | 0x11 => finish st (true) (.ldBu (w0.extractLsb' 23 2) (w0.extractLsb' 18 5) (w0.extractLsb' 13 5) (w0.extractLsb' 0 13))
  | 0x12 => finish st (true) (.ldH (w0.extractLsb' 23 2) (w0.extractLsb' 18 5) (w0.extractLsb' 13 5) (w0.extractLsb' 0 13))
  | 0x13 => finish st (true) (.ldHu (w0.extractLsb' 23 2) (w0.extractLsb' 18 5) (w0.extractLsb' 13 5) (w0.extractLsb' 0 13))
  | 0x14 => finish st (true) (.ldW (w0.extractLsb' 23 2) (w0.extractLsb' 18 5) (w0.extractLsb' 13 5) (w0.extractLsb' 0 13))
  | 0x15 => finish st (true) (.ldWu (w0.extractLsb' 23 2) (w0.extractLsb' 18 5) (w0.extractLsb' 13 5) (w0.extractLsb' 0 13))
  | 0x16 => finish st (true) (.ldD (w0.extractLsb' 23 2) (w0.extractLsb' 18 5) (w0.extractLsb' 13 5) (w0.extractLsb' 0 13))
  | 0x18 => finish st (true) (.stB (w0.extractLsb' 23 2) (w0.extractLsb' 18 5) (w0.extractLsb' 13 5) (w0.extractLsb' 0 13))
  | 0x19 => finish st (true) (.stH (w0.extractLsb' 23 2) (w0.extractLsb' 18 5) (w0.extractLsb' 13 5) (w0.extractLsb' 0 13))
  | 0x1a => finish st (true) (.stW (w0.extractLsb' 23 2) (w0.extractLsb' 18 5) (w0.extractLsb' 13 5) (w0.extractLsb' 0 13))
  | 0x1b => finish st (true) (.stD (w0.extractLsb' 23 2) (w0.extractLsb' 18 5) (w0.extractLsb' 13 5) (w0.extractLsb' 0 13))
  | 0x20 => finish st (w0.extractLsb' 7 1 == 0) (.amoAdd (w0.extractLsb' 23 2) (w0.extractLsb' 18 5) (w0.extractLsb' 13 5) (w0.extractLsb' 8 5) (w0.extractLsb' 4 3) (w0.extractLsb' 2 2) (w0.extractLsb' 0 2))
  | 0x21 => finish st (w0.extractLsb' 7 1 == 0) (.amoAnd (w0.extractLsb' 23 2) (w0.extractLsb' 18 5) (w0.extractLsb' 13 5) (w0.extractLsb' 8 5) (w0.extractLsb' 4 3) (w0.extractLsb' 2 2) (w0.extractLsb' 0 2))
  | 0x22 => finish st (w0.extractLsb' 7 1 == 0) (.amoOr (w0.extractLsb' 23 2) (w0.extractLsb' 18 5) (w0.extractLsb' 13 5) (w0.extractLsb' 8 5) (w0.extractLsb' 4 3) (w0.extractLsb' 2 2) (w0.extractLsb' 0 2))
  | 0x23 => finish st (w0.extractLsb' 7 1 == 0) (.amoXor (w0.extractLsb' 23 2) (w0.extractLsb' 18 5) (w0.extractLsb' 13 5) (w0.extractLsb' 8 5) (w0.extractLsb' 4 3) (w0.extractLsb' 2 2) (w0.extractLsb' 0 2))
  | 0x24 => finish st (w0.extractLsb' 7 1 == 0) (.amoMin (w0.extractLsb' 23 2) (w0.extractLsb' 18 5) (w0.extractLsb' 13 5) (w0.extractLsb' 8 5) (w0.extractLsb' 4 3) (w0.extractLsb' 2 2) (w0.extractLsb' 0 2))
  | 0x25 => finish st (w0.extractLsb' 7 1 == 0) (.amoMax (w0.extractLsb' 23 2) (w0.extractLsb' 18 5) (w0.extractLsb' 13 5) (w0.extractLsb' 8 5) (w0.extractLsb' 4 3) (w0.extractLsb' 2 2) (w0.extractLsb' 0 2))
  | 0x26 => finish st (w0.extractLsb' 7 1 == 0) (.amoSwp (w0.extractLsb' 23 2) (w0.extractLsb' 18 5) (w0.extractLsb' 13 5) (w0.extractLsb' 8 5) (w0.extractLsb' 4 3) (w0.extractLsb' 2 2) (w0.extractLsb' 0 2))
  | 0x27 => finish st (w0.extractLsb' 7 1 == 0) (.amoCas (w0.extractLsb' 23 2) (w0.extractLsb' 18 5) (w0.extractLsb' 13 5) (w0.extractLsb' 8 5) (w0.extractLsb' 4 3) (w0.extractLsb' 2 2) (w0.extractLsb' 0 2))
  | 0x28 => finish st (w0.extractLsb' 7 1 == 0) (.amoAddd (w0.extractLsb' 23 2) (w0.extractLsb' 18 5) (w0.extractLsb' 13 5) (w0.extractLsb' 8 5) (w0.extractLsb' 4 3) (w0.extractLsb' 2 2) (w0.extractLsb' 0 2))
  | 0x29 => finish st (w0.extractLsb' 7 6 == 0) (.amoNull (w0.extractLsb' 23 2) (w0.extractLsb' 18 5) (w0.extractLsb' 13 5) (w0.extractLsb' 4 3) (w0.extractLsb' 2 2) (w0.extractLsb' 0 2))
  | 0x2e => finish st (w0.extractLsb' 8 15 == 0) (.fence (w0.extractLsb' 23 2) (w0.extractLsb' 6 2) (w0.extractLsb' 5 1) (w0.extractLsb' 2 3) (w0.extractLsb' 0 2))
  | 0x2f => finish st (w0.extractLsb' 0 23 == 0) (.fenceI (w0.extractLsb' 23 2))
  | 0x30 => finish st (true) (.beq (w0.extractLsb' 23 2) (w0.extractLsb' 18 5) (w0.extractLsb' 13 5) (w0.extractLsb' 0 13))
  | 0x31 => finish st (true) (.bne (w0.extractLsb' 23 2) (w0.extractLsb' 18 5) (w0.extractLsb' 13 5) (w0.extractLsb' 0 13))
  | 0x32 => finish st (true) (.blt (w0.extractLsb' 23 2) (w0.extractLsb' 18 5) (w0.extractLsb' 13 5) (w0.extractLsb' 0 13))
  | 0x33 => finish st (true) (.bge (w0.extractLsb' 23 2) (w0.extractLsb' 18 5) (w0.extractLsb' 13 5) (w0.extractLsb' 0 13))
  | 0x34 => finish st (true) (.bltu (w0.extractLsb' 23 2) (w0.extractLsb' 18 5) (w0.extractLsb' 13 5) (w0.extractLsb' 0 13))
  | 0x35 => finish st (true) (.bgeu (w0.extractLsb' 23 2) (w0.extractLsb' 18 5) (w0.extractLsb' 13 5) (w0.extractLsb' 0 13))
  | 0x36 => finish st (w0.extractLsb' 18 5 == 0 && w0.extractLsb' 0 13 == 0) (.jmpr (w0.extractLsb' 23 2) (w0.extractLsb' 13 5))
  | 0x37 => finish st (w0.extractLsb' 16 4 == 0) (.fork (w0.extractLsb' 23 2) (w0.extractLsb' 20 3) (w0.extractLsb' 0 16) (w1.extractLsb' 0 16) (w1.extractLsb' 16 16))
  | 0x40 => finish st (w0.extractLsb' 0 23 == 0) (.pushfmt (w0.extractLsb' 23 2) (w1.extractLsb' 0 32))
  | 0x41 => finish st (w0.extractLsb' 5 14 == 0) (.qpush (w0.extractLsb' 23 2) (w0.extractLsb' 19 4) (w0.extractLsb' 0 5))
  | 0x42 => finish st (w0.extractLsb' 5 14 == 0) (.qpop (w0.extractLsb' 23 2) (w0.extractLsb' 19 4) (w0.extractLsb' 0 5))
  | 0x43 => finish st (w0.extractLsb' 5 14 == 0) (.qstat (w0.extractLsb' 23 2) (w0.extractLsb' 19 4) (w0.extractLsb' 0 5))
  | 0x44 => finish st (w0.extractLsb' 18 5 == 0 && w0.extractLsb' 0 8 == 0) (.cont (w0.extractLsb' 23 2) (w0.extractLsb' 13 5) (w0.extractLsb' 8 5))
  | 0x45 => finish st (w0.extractLsb' 0 8 == 0) (.launch (w0.extractLsb' 23 2) (w0.extractLsb' 18 5) (w0.extractLsb' 13 5) (w0.extractLsb' 8 5))
  | 0x50 => finish st (w0.extractLsb' 12 6 == 0) (.csrr (w0.extractLsb' 23 2) (w0.extractLsb' 18 5) (w0.extractLsb' 0 12))
  | 0x51 => finish st (w0.extractLsb' 12 1 == 0) (.csrw (w0.extractLsb' 23 2) (w0.extractLsb' 18 5) (w0.extractLsb' 13 5) (w0.extractLsb' 0 12))
  | 0x52 => finish st (w0.extractLsb' 12 1 == 0) (.csrs (w0.extractLsb' 23 2) (w0.extractLsb' 18 5) (w0.extractLsb' 13 5) (w0.extractLsb' 0 12))
  | 0x53 => finish st (w0.extractLsb' 12 1 == 0) (.csrc (w0.extractLsb' 23 2) (w0.extractLsb' 18 5) (w0.extractLsb' 13 5) (w0.extractLsb' 0 12))
  | 0x58 => finish st (w0.extractLsb' 0 23 == 0) (.rtt (w0.extractLsb' 23 2))
  | 0x59 => finish st (w0.extractLsb' 0 23 == 0) (.wfi (w0.extractLsb' 23 2))
  | 0x5a => finish st (w0.extractLsb' 0 23 == 0) (.halt (w0.extractLsb' 23 2))
  | 0x5b => finish st (w0.extractLsb' 0 13 == 0) (.freeze (w0.extractLsb' 23 2) (w0.extractLsb' 18 5) (w0.extractLsb' 13 5))
  | 0x5c => finish st (w0.extractLsb' 18 5 == 0 && w0.extractLsb' 0 13 == 0) (.thaw (w0.extractLsb' 23 2) (w0.extractLsb' 13 5))
  | 0x5d => finish st (w0.extractLsb' 0 8 == 0) (.snapr (w0.extractLsb' 23 2) (w0.extractLsb' 18 5) (w0.extractLsb' 13 5) (w0.extractLsb' 8 5))
  | 0x5e => finish st (w0.extractLsb' 0 8 == 0) (.snapw (w0.extractLsb' 23 2) (w0.extractLsb' 18 5) (w0.extractLsb' 13 5) (w0.extractLsb' 8 5))
  | _ => .illegal

/-- The access stream, majors 0x01-0x5F (R78). -/
def decodeA (st : Stream) (maj : Nat) (w0 w1 : Word) : Dec :=
  match maj with
  | 0x1 => finish st (w0.extractLsb' 4 4 == 0) (.aadd (w0.extractLsb' 23 2) (w0.extractLsb' 18 5) (w0.extractLsb' 13 5) (w0.extractLsb' 8 5) (w0.extractLsb' 0 4))
  | 0x2 => finish st (true) (.aaddi (w0.extractLsb' 23 2) (w0.extractLsb' 18 5) (w0.extractLsb' 13 5) (w0.extractLsb' 11 2) (w0.extractLsb' 0 11))
  | 0x3 => finish st (w0.extractLsb' 9 4 == 0) (.amov (w0.extractLsb' 23 2) (w0.extractLsb' 18 5) (w0.extractLsb' 13 5) (w0.extractLsb' 8 1) (w0.extractLsb' 0 8))
  | 0x4 => finish st (true) (.aset (w0.extractLsb' 23 2) (w0.extractLsb' 18 5) (w0.extractLsb' 13 5) (w0.extractLsb' 11 2) (w0.extractLsb' 5 6) (w0.extractLsb' 4 1) (w0.extractLsb' 0 4))
  | 0x5 => finish st (w0.extractLsb' 1 17 == 0) (.ali (w0.extractLsb' 23 2) (w0.extractLsb' 18 5) (w0.extractLsb' 0 1) (w1.extractLsb' 0 16) (w1.extractLsb' 16 16))
  | 0x10 => finish st (w0.extractLsb' 1 8 == 0) (.tld (w0.extractLsb' 23 2) (w0.extractLsb' 19 4) (w0.extractLsb' 13 6) (w0.extractLsb' 9 4) (w0.extractLsb' 0 1))
  | 0x11 => finish st (w0.extractLsb' 0 9 == 0) (.tldT (w0.extractLsb' 23 2) (w0.extractLsb' 19 4) (w0.extractLsb' 13 6) (w0.extractLsb' 9 4))
  | 0x12 => finish st (w0.extractLsb' 2 7 == 0) (.tldb (w0.extractLsb' 23 2) (w0.extractLsb' 19 4) (w0.extractLsb' 13 6) (w0.extractLsb' 9 4) (w0.extractLsb' 0 2))
  | 0x13 => finish st (w0.extractLsb' 19 4 == 0 && w1.extractLsb' 0 4 == 0) (.gather (w0.extractLsb' 23 2) (w0.extractLsb' 3 6) (w0.extractLsb' 0 3) (w0.extractLsb' 13 6) (w0.extractLsb' 9 4) (w1.extractLsb' 26 6) (w1.extractLsb' 22 4) (w1.extractLsb' 19 3) (w1.extractLsb' 16 3) (w1.extractLsb' 12 4) (w1.extractLsb' 4 8))
  | 0x14 => finish st (w0.extractLsb' 19 4 == 0 && w0.extractLsb' 6 3 == 0) (.ild (w0.extractLsb' 23 2) (w0.extractLsb' 13 6) (w0.extractLsb' 9 4) (w0.extractLsb' 0 6))
  | 0x15 => finish st (w0.extractLsb' 20 3 == 0) (.bfxcfg (w0.extractLsb' 23 2) (w0.extractLsb' 18 2) (w0.extractLsb' 13 5) (w0.extractLsb' 0 13))
  | 0x18 => finish st (w0.extractLsb' 19 4 == 0 && w0.extractLsb' 8 1 == 0) (.mldw (w0.extractLsb' 23 2) (w0.extractLsb' 13 6) (w0.extractLsb' 9 4) (w0.extractLsb' 7 1) (w0.extractLsb' 0 7))
  | 0x19 => finish st (w0.extractLsb' 19 4 == 0 && w0.extractLsb' 7 2 == 0) (.mldwT (w0.extractLsb' 23 2) (w0.extractLsb' 13 6) (w0.extractLsb' 9 4) (w0.extractLsb' 0 7))
  | 0x1a => finish st (w0.extractLsb' 19 4 == 0) (.mlds (w0.extractLsb' 23 2) (w0.extractLsb' 13 6) (w0.extractLsb' 9 4) (w0.extractLsb' 7 2) (w0.extractLsb' 0 7))
  | 0x30 => finish st (w0.extractLsb' 19 4 == 0 && w0.extractLsb' 0 9 == 0 && w1.extractLsb' 0 4 == 0) (.xchgP (w0.extractLsb' 23 2) (w0.extractLsb' 13 6) (w0.extractLsb' 9 4) (w1.extractLsb' 26 6) (w1.extractLsb' 22 4) (w1.extractLsb' 19 3) (w1.extractLsb' 16 3) (w1.extractLsb' 12 4) (w1.extractLsb' 4 8))
  | 0x31 => finish st (w0.extractLsb' 19 4 == 0 && w0.extractLsb' 0 9 == 0 && w1.extractLsb' 0 4 == 0) (.xchgD (w0.extractLsb' 23 2) (w0.extractLsb' 13 6) (w0.extractLsb' 9 4) (w1.extractLsb' 26 6) (w1.extractLsb' 22 4) (w1.extractLsb' 19 3) (w1.extractLsb' 16 3) (w1.extractLsb' 12 4) (w1.extractLsb' 4 8))
  | 0x32 => finish st (w0.extractLsb' 19 4 == 0 && w0.extractLsb' 7 2 == 0 && w1.extractLsb' 0 4 == 0) (.xfer (w0.extractLsb' 23 2) (w0.extractLsb' 0 7) (w0.extractLsb' 13 6) (w0.extractLsb' 9 4) (w1.extractLsb' 26 6) (w1.extractLsb' 22 4) (w1.extractLsb' 19 3) (w1.extractLsb' 16 3) (w1.extractLsb' 12 4) (w1.extractLsb' 4 8))
  | 0x33 => finish st (w0.extractLsb' 19 4 == 0 && w0.extractLsb' 0 9 == 0 && w1.extractLsb' 2 2 == 0) (.stash (w0.extractLsb' 23 2) (w1.extractLsb' 0 2) (w0.extractLsb' 13 6) (w0.extractLsb' 9 4) (w1.extractLsb' 26 6) (w1.extractLsb' 22 4) (w1.extractLsb' 19 3) (w1.extractLsb' 16 3) (w1.extractLsb' 12 4) (w1.extractLsb' 4 8))
  | 0x34 => finish st (w0.extractLsb' 19 4 == 0 && w0.extractLsb' 0 9 == 0 && w1.extractLsb' 2 2 == 0) (.restore (w0.extractLsb' 23 2) (w1.extractLsb' 0 2) (w0.extractLsb' 13 6) (w0.extractLsb' 9 4) (w1.extractLsb' 26 6) (w1.extractLsb' 22 4) (w1.extractLsb' 19 3) (w1.extractLsb' 16 3) (w1.extractLsb' 12 4) (w1.extractLsb' 4 8))
  | _ => .illegal

/-- The compute stream, majors 0x01-0x5F (R79). -/
def decodeK (st : Stream) (maj : Nat) (w0 w1 : Word) : Dec :=
  match maj with
  | 0x1 => finish st (w0.extractLsb' 0 23 == 0) (.mflip (w0.extractLsb' 23 2))
  | 0x2 => finish st (w0.extractLsb' 6 3 == 0) (.mstream (w0.extractLsb' 23 2) (w0.extractLsb' 19 4) (w0.extractLsb' 13 6) (w0.extractLsb' 9 4) (w0.extractLsb' 0 6))
  | 0x3 => finish st (w0.extractLsb' 13 6 == 0 && w0.extractLsb' 8 1 == 0) (.mstreamIdx (w0.extractLsb' 23 2) (w0.extractLsb' 19 4) (w0.extractLsb' 9 4) (w0.extractLsb' 6 2) (w0.extractLsb' 0 6))
  | 0x4 => finish st (w0.extractLsb' 6 17 == 0) (.mzero (w0.extractLsb' 23 2) (w0.extractLsb' 0 6))
  | 0x5 => finish st (w0.extractLsb' 0 13 == 0) (.bind (w0.extractLsb' 23 2) (w0.extractLsb' 19 4) (w0.extractLsb' 13 6))
  | 0x6 => match (w0.extractLsb' 18 1).toNat with
      | 0 => finish st (w0.extractLsb' 19 4 == 0 && w0.extractLsb' 13 5 == 0) (.slotcfg (w0.extractLsb' 23 2) (w0.extractLsb' 7 6) (w0.extractLsb' 0 7))
      | _ => finish st (w0.extractLsb' 19 4 == 0 && w0.extractLsb' 0 18 == 0) (.slotcfgFault (w0.extractLsb' 23 2))
  | 0x7 => match (w0.extractLsb' 12 1).toNat with
      | 0 => finish st (w0.extractLsb' 13 10 == 0 && w0.extractLsb' 6 6 == 0) (.slotfree (w0.extractLsb' 23 2) (w0.extractLsb' 0 6))
      | _ => finish st (w0.extractLsb' 13 10 == 0 && w0.extractLsb' 0 12 == 0) (.slotfreeAll (w0.extractLsb' 23 2))
  | 0x8 => match (w0.extractLsb' 6 2).toNat with
      | 0 => finish st (w0.extractLsb' 8 10 == 0) (.slotmapRead (w0.extractLsb' 23 2) (w0.extractLsb' 18 5) (w0.extractLsb' 0 6))
      | 1 => finish st (w0.extractLsb' 13 10 == 0) (.slotmapMap (w0.extractLsb' 23 2) (w0.extractLsb' 8 5) (w0.extractLsb' 0 6))
      | _ => .illegal
  | 0x9 => finish st (w0.extractLsb' 6 17 == 0) (.mspill (w0.extractLsb' 23 2) (w0.extractLsb' 0 6))
  | 0x20 => match (w0.extractLsb' 0 1).toNat with
      | 0 => finish st (w0.extractLsb' 1 12 == 0) (.vpop (w0.extractLsb' 23 2) (w0.extractLsb' 18 5) (w0.extractLsb' 13 5))
      | _ => finish st (w0.extractLsb' 1 12 == 0) (.vpopK (w0.extractLsb' 23 2) (w0.extractLsb' 18 5) (w0.extractLsb' 13 5))
  | 0x21 => match (w0.extractLsb' 0 1).toNat with
      | 0 => finish st (w0.extractLsb' 1 12 == 0) (.vpush (w0.extractLsb' 23 2) (w0.extractLsb' 18 5) (w0.extractLsb' 13 5))
      | _ => finish st (w0.extractLsb' 1 12 == 0) (.vpushOq0 (w0.extractLsb' 23 2) (w0.extractLsb' 18 5) (w0.extractLsb' 13 5))
  | 0x22 => match (w0.extractLsb' 3 1).toNat with
      | 0 => finish st (w0.extractLsb' 8 5 == 0) (.vmov (w0.extractLsb' 23 2) (w0.extractLsb' 18 5) (w0.extractLsb' 13 5) (w0.extractLsb' 7 1) (w0.extractLsb' 4 3) (w0.extractLsb' 0 3))
      | _ => finish st (w0.extractLsb' 4 4 == 0) (.vmovK (w0.extractLsb' 23 2) (w0.extractLsb' 18 5) (w0.extractLsb' 13 5) (w0.extractLsb' 8 5) (w0.extractLsb' 0 3))
  | 0x23 => match (w0.extractLsb' 3 1).toNat with
      | 0 => finish st (w0.extractLsb' 8 5 == 0) (.vbcast (w0.extractLsb' 23 2) (w0.extractLsb' 18 5) (w0.extractLsb' 13 5) (w0.extractLsb' 7 1) (w0.extractLsb' 4 3) (w0.extractLsb' 0 3))
      | _ => finish st (true) (.vbcastLane (w0.extractLsb' 23 2) (w0.extractLsb' 18 5) (w0.extractLsb' 13 5) (w0.extractLsb' 8 5) (w0.extractLsb' 7 1) (w0.extractLsb' 4 3) (w0.extractLsb' 0 3))
  | 0x24 => match (w0.extractLsb' 3 1).toNat with
      | 0 => finish st (w0.extractLsb' 8 10 == 0) (.vli (w0.extractLsb' 23 2) (w0.extractLsb' 18 5) (w0.extractLsb' 7 1) (w0.extractLsb' 4 3) (w0.extractLsb' 0 3) (w1.extractLsb' 0 32))
      | _ => finish st (w0.extractLsb' 4 14 == 0 && w0.extractLsb' 0 3 == 0) (.vliK (w0.extractLsb' 23 2) (w0.extractLsb' 18 5) (w1.extractLsb' 0 32))
  | 0x28 => finish st (w0.extractLsb' 3 1 == 0) (.vadd (w0.extractLsb' 23 2) (w0.extractLsb' 18 5) (w0.extractLsb' 13 5) (w0.extractLsb' 8 5) (w0.extractLsb' 7 1) (w0.extractLsb' 4 3) (w0.extractLsb' 0 3))
  | 0x29 => finish st (w0.extractLsb' 3 1 == 0) (.vsub (w0.extractLsb' 23 2) (w0.extractLsb' 18 5) (w0.extractLsb' 13 5) (w0.extractLsb' 8 5) (w0.extractLsb' 7 1) (w0.extractLsb' 4 3) (w0.extractLsb' 0 3))
  | 0x2a => finish st (w0.extractLsb' 3 1 == 0) (.vmul (w0.extractLsb' 23 2) (w0.extractLsb' 18 5) (w0.extractLsb' 13 5) (w0.extractLsb' 8 5) (w0.extractLsb' 7 1) (w0.extractLsb' 4 3) (w0.extractLsb' 0 3))
  | 0x2b => finish st (w0.extractLsb' 3 1 == 0) (.vfma (w0.extractLsb' 23 2) (w0.extractLsb' 18 5) (w0.extractLsb' 13 5) (w0.extractLsb' 8 5) (w0.extractLsb' 7 1) (w0.extractLsb' 4 3) (w0.extractLsb' 0 3))
  | 0x2c => finish st (w0.extractLsb' 3 1 == 0) (.vfms (w0.extractLsb' 23 2) (w0.extractLsb' 18 5) (w0.extractLsb' 13 5) (w0.extractLsb' 8 5) (w0.extractLsb' 7 1) (w0.extractLsb' 4 3) (w0.extractLsb' 0 3))
  | 0x2d => finish st (w0.extractLsb' 3 1 == 0) (.vnfma (w0.extractLsb' 23 2) (w0.extractLsb' 18 5) (w0.extractLsb' 13 5) (w0.extractLsb' 8 5) (w0.extractLsb' 7 1) (w0.extractLsb' 4 3) (w0.extractLsb' 0 3))
  | 0x2e => finish st (w0.extractLsb' 3 1 == 0) (.vmin (w0.extractLsb' 23 2) (w0.extractLsb' 18 5) (w0.extractLsb' 13 5) (w0.extractLsb' 8 5) (w0.extractLsb' 7 1) (w0.extractLsb' 4 3) (w0.extractLsb' 0 3))
  | 0x2f => finish st (w0.extractLsb' 3 1 == 0) (.vmax (w0.extractLsb' 23 2) (w0.extractLsb' 18 5) (w0.extractLsb' 13 5) (w0.extractLsb' 8 5) (w0.extractLsb' 7 1) (w0.extractLsb' 4 3) (w0.extractLsb' 0 3))
  | 0x30 => finish st (w0.extractLsb' 8 5 == 0 && w0.extractLsb' 3 1 == 0) (.vabs (w0.extractLsb' 23 2) (w0.extractLsb' 18 5) (w0.extractLsb' 13 5) (w0.extractLsb' 7 1) (w0.extractLsb' 4 3) (w0.extractLsb' 0 3))
  | 0x31 => finish st (w0.extractLsb' 8 5 == 0 && w0.extractLsb' 3 1 == 0) (.vneg (w0.extractLsb' 23 2) (w0.extractLsb' 18 5) (w0.extractLsb' 13 5) (w0.extractLsb' 7 1) (w0.extractLsb' 4 3) (w0.extractLsb' 0 3))
  | 0x32 => finish st (w0.extractLsb' 8 5 == 0 && w0.extractLsb' 3 1 == 0) (.vrcp (w0.extractLsb' 23 2) (w0.extractLsb' 18 5) (w0.extractLsb' 13 5) (w0.extractLsb' 7 1) (w0.extractLsb' 4 3) (w0.extractLsb' 0 3))
  | 0x33 => finish st (w0.extractLsb' 8 5 == 0 && w0.extractLsb' 3 1 == 0) (.vrsq (w0.extractLsb' 23 2) (w0.extractLsb' 18 5) (w0.extractLsb' 13 5) (w0.extractLsb' 7 1) (w0.extractLsb' 4 3) (w0.extractLsb' 0 3))
  | 0x34 => finish st (w0.extractLsb' 8 5 == 0 && w0.extractLsb' 3 1 == 0) (.vexp2 (w0.extractLsb' 23 2) (w0.extractLsb' 18 5) (w0.extractLsb' 13 5) (w0.extractLsb' 7 1) (w0.extractLsb' 4 3) (w0.extractLsb' 0 3))
  | 0x35 => finish st (w0.extractLsb' 8 5 == 0 && w0.extractLsb' 3 1 == 0) (.vlog2 (w0.extractLsb' 23 2) (w0.extractLsb' 18 5) (w0.extractLsb' 13 5) (w0.extractLsb' 7 1) (w0.extractLsb' 4 3) (w0.extractLsb' 0 3))
  | 0x36 => finish st (w0.extractLsb' 8 2 == 0) (.vcvt (w0.extractLsb' 23 2) (w0.extractLsb' 18 5) (w0.extractLsb' 13 5) (w0.extractLsb' 10 3) (w0.extractLsb' 6 2) (w0.extractLsb' 4 2) (w0.extractLsb' 3 1) (w0.extractLsb' 0 3))
  | 0x37 => finish st (true) (.vq (w0.extractLsb' 23 2) (w0.extractLsb' 18 5) (w0.extractLsb' 13 5) (w0.extractLsb' 8 5) (w0.extractLsb' 6 2) (w0.extractLsb' 5 1) (w0.extractLsb' 4 1) (w0.extractLsb' 0 4))
  | 0x38 => finish st (w0.extractLsb' 6 2 == 0) (.vcmp (w0.extractLsb' 23 2) (w0.extractLsb' 18 5) (w0.extractLsb' 13 5) (w0.extractLsb' 8 5) (w0.extractLsb' 3 3) (w0.extractLsb' 0 3))
  | 0x39 => finish st (w0.extractLsb' 7 1 == 0 && w0.extractLsb' 3 1 == 0) (.vsel (w0.extractLsb' 23 2) (w0.extractLsb' 18 5) (w0.extractLsb' 13 5) (w0.extractLsb' 8 5) (w0.extractLsb' 4 3) (w0.extractLsb' 0 3))
  | 0x40 => finish st (w0.extractLsb' 3 1 == 0) (.vand (w0.extractLsb' 23 2) (w0.extractLsb' 18 5) (w0.extractLsb' 13 5) (w0.extractLsb' 8 5) (w0.extractLsb' 7 1) (w0.extractLsb' 4 3) (w0.extractLsb' 0 3))
  | 0x41 => finish st (w0.extractLsb' 3 1 == 0) (.vor (w0.extractLsb' 23 2) (w0.extractLsb' 18 5) (w0.extractLsb' 13 5) (w0.extractLsb' 8 5) (w0.extractLsb' 7 1) (w0.extractLsb' 4 3) (w0.extractLsb' 0 3))
  | 0x42 => finish st (w0.extractLsb' 3 1 == 0) (.vxor (w0.extractLsb' 23 2) (w0.extractLsb' 18 5) (w0.extractLsb' 13 5) (w0.extractLsb' 8 5) (w0.extractLsb' 7 1) (w0.extractLsb' 4 3) (w0.extractLsb' 0 3))
  | 0x43 => finish st (w0.extractLsb' 3 1 == 0) (.vshl (w0.extractLsb' 23 2) (w0.extractLsb' 18 5) (w0.extractLsb' 13 5) (w0.extractLsb' 8 5) (w0.extractLsb' 7 1) (w0.extractLsb' 4 3) (w0.extractLsb' 0 3))
  | 0x44 => finish st (w0.extractLsb' 3 1 == 0) (.vshr (w0.extractLsb' 23 2) (w0.extractLsb' 18 5) (w0.extractLsb' 13 5) (w0.extractLsb' 8 5) (w0.extractLsb' 7 1) (w0.extractLsb' 4 3) (w0.extractLsb' 0 3))
  | 0x45 => finish st (w0.extractLsb' 3 1 == 0) (.vsar (w0.extractLsb' 23 2) (w0.extractLsb' 18 5) (w0.extractLsb' 13 5) (w0.extractLsb' 8 5) (w0.extractLsb' 7 1) (w0.extractLsb' 4 3) (w0.extractLsb' 0 3))
  | 0x46 => finish st (true) (.viadd (w0.extractLsb' 23 2) (w0.extractLsb' 18 5) (w0.extractLsb' 13 5) (w0.extractLsb' 8 5) (w0.extractLsb' 7 1) (w0.extractLsb' 4 3) (w0.extractLsb' 3 1) (w0.extractLsb' 0 3))
  | 0x47 => finish st (true) (.visub (w0.extractLsb' 23 2) (w0.extractLsb' 18 5) (w0.extractLsb' 13 5) (w0.extractLsb' 8 5) (w0.extractLsb' 7 1) (w0.extractLsb' 4 3) (w0.extractLsb' 3 1) (w0.extractLsb' 0 3))
  | 0x48 => finish st (true) (.vimul (w0.extractLsb' 23 2) (w0.extractLsb' 18 5) (w0.extractLsb' 13 5) (w0.extractLsb' 8 5) (w0.extractLsb' 7 1) (w0.extractLsb' 4 3) (w0.extractLsb' 3 1) (w0.extractLsb' 0 3))
  | 0x49 => finish st (true) (.vimin (w0.extractLsb' 23 2) (w0.extractLsb' 18 5) (w0.extractLsb' 13 5) (w0.extractLsb' 8 5) (w0.extractLsb' 7 1) (w0.extractLsb' 4 3) (w0.extractLsb' 3 1) (w0.extractLsb' 0 3))
  | 0x4a => finish st (true) (.vimax (w0.extractLsb' 23 2) (w0.extractLsb' 18 5) (w0.extractLsb' 13 5) (w0.extractLsb' 8 5) (w0.extractLsb' 7 1) (w0.extractLsb' 4 3) (w0.extractLsb' 3 1) (w0.extractLsb' 0 3))
  | 0x50 => finish st (w0.extractLsb' 8 5 == 0) (.vred (w0.extractLsb' 23 2) (w0.extractLsb' 18 5) (w0.extractLsb' 13 5) (w0.extractLsb' 6 2) (w0.extractLsb' 3 3) (w0.extractLsb' 0 3))
  | 0x51 => finish st (w0.extractLsb' 8 5 == 0) (.vscan (w0.extractLsb' 23 2) (w0.extractLsb' 18 5) (w0.extractLsb' 13 5) (w0.extractLsb' 6 2) (w0.extractLsb' 3 3) (w0.extractLsb' 0 3))
  | 0x52 => finish st (w0.extractLsb' 3 1 == 0) (.vperm (w0.extractLsb' 23 2) (w0.extractLsb' 18 5) (w0.extractLsb' 13 5) (w0.extractLsb' 8 5) (w0.extractLsb' 7 1) (w0.extractLsb' 4 3) (w0.extractLsb' 0 3))
  | 0x53 => finish st (true) (.vthr (w0.extractLsb' 23 2) (w0.extractLsb' 18 5) (w0.extractLsb' 13 5) (w0.extractLsb' 8 5) (w0.extractLsb' 6 2) (w0.extractLsb' 3 3) (w0.extractLsb' 0 3))
  | 0x54 => finish st (true) (.vtopk (w0.extractLsb' 23 2) (w0.extractLsb' 18 5) (w0.extractLsb' 13 5) (w0.extractLsb' 8 5) (w0.extractLsb' 6 2) (w0.extractLsb' 3 3) (w0.extractLsb' 0 3))
  | 0x58 => finish st (w0.extractLsb' 0 8 == 0) (.pand (w0.extractLsb' 23 2) (w0.extractLsb' 18 5) (w0.extractLsb' 13 5) (w0.extractLsb' 8 5))
  | 0x59 => finish st (w0.extractLsb' 0 8 == 0) (.por (w0.extractLsb' 23 2) (w0.extractLsb' 18 5) (w0.extractLsb' 13 5) (w0.extractLsb' 8 5))
  | 0x5a => finish st (w0.extractLsb' 0 8 == 0) (.pxor (w0.extractLsb' 23 2) (w0.extractLsb' 18 5) (w0.extractLsb' 13 5) (w0.extractLsb' 8 5))
  | 0x5b => finish st (w0.extractLsb' 0 13 == 0) (.pnot (w0.extractLsb' 23 2) (w0.extractLsb' 18 5) (w0.extractLsb' 13 5))
  | 0x5c => finish st (w0.extractLsb' 2 11 == 0) (.pset (w0.extractLsb' 23 2) (w0.extractLsb' 18 5) (w0.extractLsb' 13 5) (w0.extractLsb' 0 2))
  | _ => .illegal

/-- The drain stream, majors 0x01-0x5F (R80). -/
def decodeD (st : Stream) (maj : Nat) (w0 w1 : Word) : Dec :=
  match maj with
  | 0x1 => finish st (w0.extractLsb' 19 4 == 0 && w0.extractLsb' 7 2 == 0 && w1.extractLsb' 0 10 == 0) (.drain (w0.extractLsb' 23 2) (w0.extractLsb' 13 6) (w0.extractLsb' 9 4) (w0.extractLsb' 0 5) (w0.extractLsb' 5 1) (w0.extractLsb' 6 1) (w1.extractLsb' 26 6) (w1.extractLsb' 20 6) (w1.extractLsb' 14 6) (w1.extractLsb' 12 2) (w1.extractLsb' 11 1) (w1.extractLsb' 10 1))
  | 0x2 => finish st (w0.extractLsb' 19 4 == 0 && w0.extractLsb' 7 2 == 0 && w1.extractLsb' 10 1 == 0) (.drainQ (w0.extractLsb' 23 2) (w0.extractLsb' 13 6) (w0.extractLsb' 9 4) (w0.extractLsb' 0 4) (w0.extractLsb' 4 1) (w0.extractLsb' 5 1) (w0.extractLsb' 6 1) (w1.extractLsb' 26 6) (w1.extractLsb' 20 6) (w1.extractLsb' 14 6) (w1.extractLsb' 12 2) (w1.extractLsb' 11 1) (w1.extractLsb' 4 6) (w1.extractLsb' 0 4))
  | 0x8 => if w0.extractLsb' 0 1 == 0 then finish st (w0.extractLsb' 2 7 == 0) (.tst (w0.extractLsb' 23 2) (w0.extractLsb' 19 4) (w0.extractLsb' 13 6) (w0.extractLsb' 9 4) (w0.extractLsb' 1 1)) else .illegal
  | 0x9 => finish st (w1.extractLsb' 2 2 == 0) (.scatter (w0.extractLsb' 23 2) (w0.extractLsb' 19 4) (w0.extractLsb' 3 6) (w0.extractLsb' 0 3) (w0.extractLsb' 13 6) (w0.extractLsb' 9 4) (w1.extractLsb' 26 6) (w1.extractLsb' 22 4) (w1.extractLsb' 19 3) (w1.extractLsb' 16 3) (w1.extractLsb' 12 4) (w1.extractLsb' 4 8) (w1.extractLsb' 0 1) (w1.extractLsb' 1 1))
  | 0x10 => finish st (w0.extractLsb' 7 2 == 0 && w1.extractLsb' 22 10 == 0 && w1.extractLsb' 1 3 == 0) (.rwrAddF32 (w0.extractLsb' 23 2) (w0.extractLsb' 19 4) (w0.extractLsb' 0 7) (w0.extractLsb' 13 6) (w0.extractLsb' 9 4) (w1.extractLsb' 19 3) (w1.extractLsb' 16 3) (w1.extractLsb' 12 4) (w1.extractLsb' 4 8) (w1.extractLsb' 0 1))
  | 0x11 => finish st (w0.extractLsb' 7 2 == 0 && w1.extractLsb' 22 10 == 0 && w1.extractLsb' 1 3 == 0) (.rwrAddBf16 (w0.extractLsb' 23 2) (w0.extractLsb' 19 4) (w0.extractLsb' 0 7) (w0.extractLsb' 13 6) (w0.extractLsb' 9 4) (w1.extractLsb' 19 3) (w1.extractLsb' 16 3) (w1.extractLsb' 12 4) (w1.extractLsb' 4 8) (w1.extractLsb' 0 1))
  | 0x12 => finish st (w0.extractLsb' 7 2 == 0 && w1.extractLsb' 22 10 == 0 && w1.extractLsb' 1 3 == 0) (.rwrMaxF32 (w0.extractLsb' 23 2) (w0.extractLsb' 19 4) (w0.extractLsb' 0 7) (w0.extractLsb' 13 6) (w0.extractLsb' 9 4) (w1.extractLsb' 19 3) (w1.extractLsb' 16 3) (w1.extractLsb' 12 4) (w1.extractLsb' 4 8) (w1.extractLsb' 0 1))
  | 0x13 => finish st (w0.extractLsb' 7 2 == 0 && w1.extractLsb' 22 10 == 0 && w1.extractLsb' 1 3 == 0) (.rwrAddI32 (w0.extractLsb' 23 2) (w0.extractLsb' 19 4) (w0.extractLsb' 0 7) (w0.extractLsb' 13 6) (w0.extractLsb' 9 4) (w1.extractLsb' 19 3) (w1.extractLsb' 16 3) (w1.extractLsb' 12 4) (w1.extractLsb' 4 8) (w1.extractLsb' 0 1))
  | _ => .illegal

/-- The common block, majors 0x60-0x7F (R81). -/
def decodeCommon (st : Stream) (maj : Nat) (w0 w1 : Word) : Dec :=
  match maj with
  | 0x60 => finish st (w0.extractLsb' 0 14 == 0) (.loop (w0.extractLsb' 23 2) (w0.extractLsb' 20 3) (w0.extractLsb' 19 1) (w0.extractLsb' 14 5) (w1.extractLsb' 16 16) (w1.extractLsb' 0 16))
  | 0x61 => finish st (w0.extractLsb' 1 12 == 0) (.lstr (w0.extractLsb' 23 2) (w0.extractLsb' 18 5) (w0.extractLsb' 16 2) (w0.extractLsb' 13 3) (w0.extractLsb' 0 1) (w1.extractLsb' 0 32))
  | 0x62 => finish st (true) (.jmp (w0.extractLsb' 23 2) (w0.extractLsb' 0 23))
  | 0x63 => finish st (w0.extractLsb' 13 5 == 0) (.bqz (w0.extractLsb' 23 2) (w0.extractLsb' 18 5) (w0.extractLsb' 0 13))
  | 0x64 => finish st (w0.extractLsb' 13 5 == 0) (.bqnz (w0.extractLsb' 23 2) (w0.extractLsb' 18 5) (w0.extractLsb' 0 13))
  | 0x65 => finish st (w0.extractLsb' 3 20 == 0) (.join (w0.extractLsb' 23 2) (w0.extractLsb' 0 3))
  | 0x66 => finish st (w0.extractLsb' 3 20 == 0) (.tksig (w0.extractLsb' 23 2) (w0.extractLsb' 0 3))
  | 0x67 => finish st (w0.extractLsb' 3 20 == 0) (.tkwait (w0.extractLsb' 23 2) (w0.extractLsb' 0 3))
  | 0x68 => finish st (w0.extractLsb' 5 18 == 0) (.mark (w0.extractLsb' 23 2) (w0.extractLsb' 0 5))
  | 0x69 => match (w0.extractLsb' 12 1).toNat with
      | 0 => finish st (w0.extractLsb' 13 10 == 0 && w0.extractLsb' 3 9 == 0) (.fset (w0.extractLsb' 23 2) (w0.extractLsb' 0 3))
      | _ => finish st (w0.extractLsb' 13 10 == 0 && w0.extractLsb' 3 9 == 0) (.fclr (w0.extractLsb' 23 2) (w0.extractLsb' 0 3))
  | 0x6a => finish st (w0.extractLsb' 4 19 == 0) (.fwait (w0.extractLsb' 23 2) (w0.extractLsb' 3 1) (w0.extractLsb' 0 3))
  | 0x6b => finish st (w0.extractLsb' 4 19 == 0) (.cntset (w0.extractLsb' 23 2) (w0.extractLsb' 0 4))
  | 0x6c => finish st (w0.extractLsb' 22 1 == 0 && w0.extractLsb' 16 2 == 0) (.cntwait (w0.extractLsb' 23 2) (w0.extractLsb' 18 4) (w0.extractLsb' 0 16))
  | 0x6d => match (w0.extractLsb' 0 3).toNat with
      | 0 => finish st (w0.extractLsb' 22 1 == 0 && w0.extractLsb' 13 5 == 0 && w0.extractLsb' 6 2 == 0 && w0.extractLsb' 4 1 == 0) (.barInit (w0.extractLsb' 23 2) (w0.extractLsb' 18 4) (w0.extractLsb' 5 1 ++ w0.extractLsb' 8 5) (w0.extractLsb' 3 1))
      | 1 => finish st (w0.extractLsb' 22 1 == 0 && w0.extractLsb' 3 15 == 0) (.barArv (w0.extractLsb' 23 2) (w0.extractLsb' 18 4))
      | 2 => finish st (w0.extractLsb' 22 1 == 0 && w0.extractLsb' 4 14 == 0) (.barWait (w0.extractLsb' 23 2) (w0.extractLsb' 18 4) (w0.extractLsb' 3 1))
      | 5 => finish st (w0.extractLsb' 18 5 == 0 && w0.extractLsb' 3 10 == 0) (.barArvGroup (w0.extractLsb' 23 2) (w0.extractLsb' 13 5))
      | 6 => finish st (w0.extractLsb' 18 5 == 0 && w0.extractLsb' 4 9 == 0) (.barWaitGroup (w0.extractLsb' 23 2) (w0.extractLsb' 13 5) (w0.extractLsb' 3 1))
      | _ => .illegal
  | 0x6e => match (w0.extractLsb' 0 1).toNat with
      | 0 => finish st (w0.extractLsb' 21 2 == 0 && w0.extractLsb' 1 7 == 0) (.rdvset (w0.extractLsb' 23 2) (w0.extractLsb' 18 3) (w0.extractLsb' 13 5) (w0.extractLsb' 8 5))
      | _ => finish st (w0.extractLsb' 21 2 == 0 && w0.extractLsb' 1 17 == 0) (.rdvwait (w0.extractLsb' 23 2) (w0.extractLsb' 18 3))
  | 0x6f => finish st (w0.extractLsb' 0 23 == 0) (.tend (w0.extractLsb' 23 2))
  | 0x7e => if st = .k then finish st (w0.extractLsb' 12 11 == 0) (.mhint (w0.extractLsb' 23 2) (w0.extractLsb' 0 12)) else finish st (w0.extractLsb' 18 5 == 0 && w0.extractLsb' 4 9 == 0) (.hint (w0.extractLsb' 23 2) (w0.extractLsb' 13 5) (w0.extractLsb' 0 4))
  | 0x7f => finish st (w0.extractLsb' 8 15 == 0) (.trap (w0.extractLsb' 23 2) (w0.extractLsb' 0 8))
  | _ => .illegal

/-- The decoder of a stream: `w1` is the word of the next lane, read for a long form only. An all-zero word is NOP, and
major 0x00 with any other field nonzero is RESERVED_FIELD (R70). -/
def decode (st : Stream) (w0 w1 : Word) : Dec :=
  let maj := (w0.extractLsb' 25 7).toNat
  if maj = 0 then (if w0 = 0 then .ok .nop else .reserved)
  else if 0x60 ≤ maj then decodeCommon st maj w0 w1
  else match st with
    | .c => decodeC st maj w0 w1
    | .a => decodeA st maj w0 w1
    | .k => decodeK st maj w0 w1
    | .d => decodeD st maj w0 w1

/-- A 32-bit little-endian word from its four bytes (R4, R58). -/
def wordOfBytes (b0 b1 b2 b3 : Byte) : Word := b3 ++ b2 ++ b1 ++ b0

/-- The decoder on the bytes of an instruction as memory holds them; a missing byte reads as zero. -/
def decodeBytes (st : Stream) (bs : List Byte) : Dec :=
  let g := fun n => bs.getD n 0
  decode st (wordOfBytes (g 0) (g 1) (g 2) (g 3)) (wordOfBytes (g 4) (g 5) (g 6) (g 7))

/-- The instruction of a table row's word. The table gives no lane code, and one word stands for different
instructions in different streams (R59): the answer is that of the first stream, in the order C, A, K, D, that accepts
the word. -/
def decodeTableWord (_nbits w : Nat) : Option Instr :=
  let bytes := (List.range 8).map fun k => BitVec.ofNat 8 (w / 256 ^ k)
  match decodeBytes .c bytes with
  | .ok i => some i
  | _ => match decodeBytes .a bytes with
    | .ok i => some i
    | _ => match decodeBytes .k bytes with
      | .ok i => some i
      | _ => match decodeBytes .d bytes with
        | .ok i => some i
        | _ => none

/-- The words of an instruction by the encoding tables of 04 and 06-10: the first word, and the second word of a long
form. A step of the device has no encoding. -/
def encode : Instr → List Word
  | .nop => [0#32]
  | .add w d a b => [0x1#7 ++ w ++ d ++ a ++ b ++ 0#8]
  | .sub w d a b => [0x1#7 ++ w ++ d ++ a ++ b ++ 1#8]
  | .mul w d a b => [0x1#7 ++ w ++ d ++ a ++ b ++ 2#8]
  | .mulh w d a b => [0x1#7 ++ w ++ d ++ a ++ b ++ 3#8]
  | .mulhu w d a b => [0x1#7 ++ w ++ d ++ a ++ b ++ 4#8]
  | .div w d a b => [0x1#7 ++ w ++ d ++ a ++ b ++ 5#8]
  | .divu w d a b => [0x1#7 ++ w ++ d ++ a ++ b ++ 6#8]
  | .rem w d a b => [0x1#7 ++ w ++ d ++ a ++ b ++ 7#8]
  | .remu w d a b => [0x1#7 ++ w ++ d ++ a ++ b ++ 8#8]
  | .and_ w d a b => [0x1#7 ++ w ++ d ++ a ++ b ++ 9#8]
  | .or_ w d a b => [0x1#7 ++ w ++ d ++ a ++ b ++ 10#8]
  | .xor_ w d a b => [0x1#7 ++ w ++ d ++ a ++ b ++ 11#8]
  | .andn w d a b => [0x1#7 ++ w ++ d ++ a ++ b ++ 12#8]
  | .shl w d a b => [0x1#7 ++ w ++ d ++ a ++ b ++ 13#8]
  | .shr w d a b => [0x1#7 ++ w ++ d ++ a ++ b ++ 14#8]
  | .sar w d a b => [0x1#7 ++ w ++ d ++ a ++ b ++ 15#8]
  | .rol w d a b => [0x1#7 ++ w ++ d ++ a ++ b ++ 16#8]
  | .min_ w d a b => [0x1#7 ++ w ++ d ++ a ++ b ++ 17#8]
  | .max_ w d a b => [0x1#7 ++ w ++ d ++ a ++ b ++ 18#8]
  | .minu w d a b => [0x1#7 ++ w ++ d ++ a ++ b ++ 19#8]
  | .maxu w d a b => [0x1#7 ++ w ++ d ++ a ++ b ++ 20#8]
  | .slt w d a b => [0x1#7 ++ w ++ d ++ a ++ b ++ 21#8]
  | .sltu w d a b => [0x1#7 ++ w ++ d ++ a ++ b ++ 22#8]
  | .seq w d a b => [0x1#7 ++ w ++ d ++ a ++ b ++ 23#8]
  | .clz w d a => [0x1#7 ++ w ++ d ++ a ++ 0#5 ++ 24#8]
  | .ctz w d a => [0x1#7 ++ w ++ d ++ a ++ 0#5 ++ 25#8]
  | .popc w d a => [0x1#7 ++ w ++ d ++ a ++ 0#5 ++ 26#8]
  | .bext w d a b => [0x1#7 ++ w ++ d ++ a ++ b ++ 27#8]
  | .addi w d a imm => [0x2#7 ++ w ++ d ++ a ++ imm]
  | .andi w d a imm => [0x3#7 ++ w ++ d ++ a ++ imm]
  | .ori w d a imm => [0x4#7 ++ w ++ d ++ a ++ imm]
  | .xori w d a imm => [0x5#7 ++ w ++ d ++ a ++ imm]
  | .shli w d a sh => [0x6#7 ++ w ++ d ++ a ++ 0#7 ++ sh]
  | .shri w d a sh => [0x7#7 ++ w ++ d ++ a ++ 0#7 ++ sh]
  | .sari w d a sh => [0x8#7 ++ w ++ d ++ a ++ 0#7 ++ sh]
  | .slti w d a imm => [0x9#7 ++ w ++ d ++ a ++ imm]
  | .sltiu w d a imm => [0xa#7 ++ w ++ d ++ a ++ imm]
  | .li w d hi imm => [0xb#7 ++ w ++ d ++ hi ++ imm]
  | .li64 w d imm => [0xc#7 ++ w ++ d ++ 0#18, imm]
  | .ldB w d a imm => [0x10#7 ++ w ++ d ++ a ++ imm]
  | .ldBu w d a imm => [0x11#7 ++ w ++ d ++ a ++ imm]
  | .ldH w d a imm => [0x12#7 ++ w ++ d ++ a ++ imm]
  | .ldHu w d a imm => [0x13#7 ++ w ++ d ++ a ++ imm]
  | .ldW w d a imm => [0x14#7 ++ w ++ d ++ a ++ imm]
  | .ldWu w d a imm => [0x15#7 ++ w ++ d ++ a ++ imm]
  | .ldD w d a imm => [0x16#7 ++ w ++ d ++ a ++ imm]
  | .stB w d a imm => [0x18#7 ++ w ++ d ++ a ++ imm]
  | .stH w d a imm => [0x19#7 ++ w ++ d ++ a ++ imm]
  | .stW w d a imm => [0x1a#7 ++ w ++ d ++ a ++ imm]
  | .stD w d a imm => [0x1b#7 ++ w ++ d ++ a ++ imm]
  | .amoAdd w d a b stm scope size => [0x20#7 ++ w ++ d ++ a ++ b ++ 0#1 ++ stm ++ scope ++ size]
  | .amoAnd w d a b stm scope size => [0x21#7 ++ w ++ d ++ a ++ b ++ 0#1 ++ stm ++ scope ++ size]
  | .amoOr w d a b stm scope size => [0x22#7 ++ w ++ d ++ a ++ b ++ 0#1 ++ stm ++ scope ++ size]
  | .amoXor w d a b stm scope size => [0x23#7 ++ w ++ d ++ a ++ b ++ 0#1 ++ stm ++ scope ++ size]
  | .amoMin w d a b stm scope size => [0x24#7 ++ w ++ d ++ a ++ b ++ 0#1 ++ stm ++ scope ++ size]
  | .amoMax w d a b stm scope size => [0x25#7 ++ w ++ d ++ a ++ b ++ 0#1 ++ stm ++ scope ++ size]
  | .amoSwp w d a b stm scope size => [0x26#7 ++ w ++ d ++ a ++ b ++ 0#1 ++ stm ++ scope ++ size]
  | .amoCas w d a b stm scope size => [0x27#7 ++ w ++ d ++ a ++ b ++ 0#1 ++ stm ++ scope ++ size]
  | .amoAddd w d a b stm scope size => [0x28#7 ++ w ++ d ++ a ++ b ++ 0#1 ++ stm ++ scope ++ size]
  | .amoNull w d a stm scope size => [0x29#7 ++ w ++ d ++ a ++ 0#6 ++ stm ++ scope ++ size]
  | .fence w kind uo mask scope => [0x2e#7 ++ w ++ 0#15 ++ kind ++ uo ++ mask ++ scope]
  | .fenceI w => [0x2f#7 ++ w ++ 0#23]
  | .beq w a b off => [0x30#7 ++ w ++ a ++ b ++ off]
  | .bne w a b off => [0x31#7 ++ w ++ a ++ b ++ off]
  | .blt w a b off => [0x32#7 ++ w ++ a ++ b ++ off]
  | .bge w a b off => [0x33#7 ++ w ++ a ++ b ++ off]
  | .bltu w a b off => [0x34#7 ++ w ++ a ++ b ++ off]
  | .bgeu w a b off => [0x35#7 ++ w ++ a ++ b ++ off]
  | .jmpr w a => [0x36#7 ++ w ++ 0#5 ++ a ++ 0#13]
  | .fork w mask offa offk offd => [0x37#7 ++ w ++ mask ++ 0#4 ++ offa, offd ++ offk]
  | .pushfmt w imm => [0x40#7 ++ w ++ 0#23, imm]
  | .qpush w q n => [0x41#7 ++ w ++ q ++ 0#14 ++ n]
  | .qpop w q n => [0x42#7 ++ w ++ q ++ 0#14 ++ n]
  | .qstat w q n => [0x43#7 ++ w ++ q ++ 0#14 ++ n]
  | .cont w a b => [0x44#7 ++ w ++ 0#5 ++ a ++ b ++ 0#8]
  | .launch w d a b => [0x45#7 ++ w ++ d ++ a ++ b ++ 0#8]
  | .csrr w d csr => [0x50#7 ++ w ++ d ++ 0#6 ++ csr]
  | .csrw w d a csr => [0x51#7 ++ w ++ d ++ a ++ 0#1 ++ csr]
  | .csrs w d a csr => [0x52#7 ++ w ++ d ++ a ++ 0#1 ++ csr]
  | .csrc w d a csr => [0x53#7 ++ w ++ d ++ a ++ 0#1 ++ csr]
  | .rtt w => [0x58#7 ++ w ++ 0#23]
  | .wfi w => [0x59#7 ++ w ++ 0#23]
  | .halt w => [0x5a#7 ++ w ++ 0#23]
  | .freeze w d a => [0x5b#7 ++ w ++ d ++ a ++ 0#13]
  | .thaw w a => [0x5c#7 ++ w ++ 0#5 ++ a ++ 0#13]
  | .snapr w d a b => [0x5d#7 ++ w ++ d ++ a ++ b ++ 0#8]
  | .snapw w d a b => [0x5e#7 ++ w ++ d ++ a ++ b ++ 0#8]
  | .loop w level cr creg count endl => [0x60#7 ++ w ++ level ++ cr ++ creg ++ 0#14, count ++ endl]
  | .lstr w d slot level pair imm => [0x61#7 ++ w ++ d ++ slot ++ level ++ 0#12 ++ pair, imm]
  | .jmp w off => [0x62#7 ++ w ++ off]
  | .bqz w q off => [0x63#7 ++ w ++ q ++ 0#5 ++ off]
  | .bqnz w q off => [0x64#7 ++ w ++ q ++ 0#5 ++ off]
  | .join w f => [0x65#7 ++ w ++ 0#20 ++ f]
  | .tksig w t => [0x66#7 ++ w ++ 0#20 ++ t]
  | .tkwait w t => [0x67#7 ++ w ++ 0#20 ++ t]
  | .mark w m => [0x68#7 ++ w ++ 0#18 ++ m]
  | .fset w f => [0x69#7 ++ w ++ 0#10 ++ 0#1 ++ 0#9 ++ f]
  | .fclr w f => [0x69#7 ++ w ++ 0#10 ++ 1#1 ++ 0#9 ++ f]
  | .fwait w c f => [0x6a#7 ++ w ++ 0#19 ++ c ++ f]
  | .cntset w n => [0x6b#7 ++ w ++ 0#19 ++ n]
  | .cntwait w n t => [0x6c#7 ++ w ++ 0#1 ++ n ++ 0#2 ++ t]
  | .barInit w n cnt ph => [0x6d#7 ++ w ++ 0#1 ++ n ++ 0#5 ++ cnt.extractLsb' 0 5 ++ 0#2 ++ cnt.extractLsb' 5 1 ++ 0#1 ++ ph ++ 0#3]
  | .barArv w n => [0x6d#7 ++ w ++ 0#1 ++ n ++ 0#15 ++ 1#3]
  | .barWait w n ph => [0x6d#7 ++ w ++ 0#1 ++ n ++ 0#14 ++ ph ++ 2#3]
  | .barArvGroup w a => [0x6d#7 ++ w ++ 0#5 ++ a ++ 0#10 ++ 5#3]
  | .barWaitGroup w a ph => [0x6d#7 ++ w ++ 0#5 ++ a ++ 0#9 ++ ph ++ 6#3]
  | .rdvset w z eng m => [0x6e#7 ++ w ++ 0#2 ++ z ++ eng ++ m ++ 0#7 ++ 0#1]
  | .rdvwait w z => [0x6e#7 ++ w ++ 0#2 ++ z ++ 0#17 ++ 1#1]
  | .tend w => [0x6f#7 ++ w ++ 0#23]
  | .hint w a k => [0x7e#7 ++ w ++ 0#5 ++ a ++ 0#9 ++ k]
  | .mhint w n => [0x7e#7 ++ w ++ 0#11 ++ n]
  | .trap w code => [0x7f#7 ++ w ++ 0#15 ++ code]
  | .aadd w d a b em => [0x1#7 ++ w ++ d ++ a ++ b ++ 0#4 ++ em]
  | .aaddi w d a e imm => [0x2#7 ++ w ++ d ++ a ++ e ++ imm]
  | .amov w d a q sel => [0x3#7 ++ w ++ d ++ a ++ 0#4 ++ q ++ sel]
  | .aset w d a e rsh q lsh => [0x4#7 ++ w ++ d ++ a ++ e ++ rsh ++ q ++ lsh]
  | .ali w d pair lo hi => [0x5#7 ++ w ++ d ++ 0#17 ++ pair, hi ++ lo]
  | .tld w q t c n => [0x10#7 ++ w ++ q ++ t ++ c ++ 0#8 ++ n]
  | .tldT w q t c => [0x11#7 ++ w ++ q ++ t ++ c ++ 0#9]
  | .tldb w q t c x => [0x12#7 ++ w ++ q ++ t ++ c ++ 0#7 ++ x]
  | .gather w n rb t c t2 c2 waitt sigt cnt inc => [0x13#7 ++ w ++ 0#4 ++ t ++ c ++ n ++ rb, t2 ++ c2 ++ waitt ++ sigt ++ cnt ++ inc ++ 0#4]
  | .ild w t c n => [0x14#7 ++ w ++ 0#4 ++ t ++ c ++ 0#3 ++ n]
  | .bfxcfg w x a imm => [0x15#7 ++ w ++ 0#3 ++ x ++ a ++ imm]
  | .mldw w t c spa m => [0x18#7 ++ w ++ 0#4 ++ t ++ c ++ 0#1 ++ spa ++ m]
  | .mldwT w t c k => [0x19#7 ++ w ++ 0#4 ++ t ++ c ++ 0#2 ++ k]
  | .mlds w t c kind m => [0x1a#7 ++ w ++ 0#4 ++ t ++ c ++ kind ++ m]
  | .xchgP w t c t2 c2 waitt sigt cnt inc => [0x30#7 ++ w ++ 0#4 ++ t ++ c ++ 0#9, t2 ++ c2 ++ waitt ++ sigt ++ cnt ++ inc ++ 0#4]
  | .xchgD w t c t2 c2 waitt sigt cnt inc => [0x31#7 ++ w ++ 0#4 ++ t ++ c ++ 0#9, t2 ++ c2 ++ waitt ++ sigt ++ cnt ++ inc ++ 0#4]
  | .xfer w n t c t2 c2 waitt sigt cnt inc => [0x32#7 ++ w ++ 0#4 ++ t ++ c ++ 0#2 ++ n, t2 ++ c2 ++ waitt ++ sigt ++ cnt ++ inc ++ 0#4]
  | .stash w mode t c t2 c2 waitt sigt cnt inc => [0x33#7 ++ w ++ 0#4 ++ t ++ c ++ 0#9, t2 ++ c2 ++ waitt ++ sigt ++ cnt ++ inc ++ 0#2 ++ mode]
  | .restore w mode t c t2 c2 waitt sigt cnt inc => [0x34#7 ++ w ++ 0#4 ++ t ++ c ++ 0#9, t2 ++ c2 ++ waitt ++ sigt ++ cnt ++ inc ++ 0#2 ++ mode]
  | .mflip w => [0x1#7 ++ w ++ 0#23]
  | .mstream w q row0 sq nr => [0x2#7 ++ w ++ q ++ row0 ++ sq ++ 0#3 ++ nr]
  | .mstreamIdx w q sq iq nr => [0x3#7 ++ w ++ q ++ 0#6 ++ sq ++ 0#1 ++ iq ++ nr]
  | .mzero w l => [0x4#7 ++ w ++ 0#17 ++ l]
  | .bind w q l => [0x5#7 ++ w ++ q ++ l ++ 0#13]
  | .slotcfg w nim first => [0x6#7 ++ w ++ 0#4 ++ 0#1 ++ 0#5 ++ nim ++ first]
  | .slotcfgFault w => [0x6#7 ++ w ++ 0#4 ++ 1#1 ++ 0#18]
  | .slotfree w l => [0x7#7 ++ w ++ 0#10 ++ 0#1 ++ 0#6 ++ l]
  | .slotfreeAll w => [0x7#7 ++ w ++ 0#10 ++ 1#1 ++ 0#12]
  | .slotmapRead w d l => [0x8#7 ++ w ++ d ++ 0#10 ++ 0#2 ++ l]
  | .slotmapMap w slot l => [0x8#7 ++ w ++ 0#10 ++ slot ++ 1#2 ++ l]
  | .mspill w l => [0x9#7 ++ w ++ 0#17 ++ l]
  | .vpop w d q => [0x20#7 ++ w ++ d ++ q ++ 0#12 ++ 0#1]
  | .vpopK w d q => [0x20#7 ++ w ++ d ++ q ++ 0#12 ++ 1#1]
  | .vpush w q a => [0x21#7 ++ w ++ q ++ a ++ 0#12 ++ 0#1]
  | .vpushOq0 w q a => [0x21#7 ++ w ++ q ++ a ++ 0#12 ++ 1#1]
  | .vmov w d a z p ty => [0x22#7 ++ w ++ d ++ a ++ 0#5 ++ z ++ p ++ 0#1 ++ ty]
  | .vmovK w d a b ty => [0x22#7 ++ w ++ d ++ a ++ b ++ 0#4 ++ 1#1 ++ ty]
  | .vbcast w d a z p ty => [0x23#7 ++ w ++ d ++ a ++ 0#5 ++ z ++ p ++ 0#1 ++ ty]
  | .vbcastLane w d a b z p ty => [0x23#7 ++ w ++ d ++ a ++ b ++ z ++ p ++ 1#1 ++ ty]
  | .vli w d z p ty imm => [0x24#7 ++ w ++ d ++ 0#10 ++ z ++ p ++ 0#1 ++ ty, imm]
  | .vliK w d imm => [0x24#7 ++ w ++ d ++ 0#14 ++ 1#1 ++ 0#3, imm]
  | .vadd w d a b z p ty => [0x28#7 ++ w ++ d ++ a ++ b ++ z ++ p ++ 0#1 ++ ty]
  | .vsub w d a b z p ty => [0x29#7 ++ w ++ d ++ a ++ b ++ z ++ p ++ 0#1 ++ ty]
  | .vmul w d a b z p ty => [0x2a#7 ++ w ++ d ++ a ++ b ++ z ++ p ++ 0#1 ++ ty]
  | .vfma w d a b z p ty => [0x2b#7 ++ w ++ d ++ a ++ b ++ z ++ p ++ 0#1 ++ ty]
  | .vfms w d a b z p ty => [0x2c#7 ++ w ++ d ++ a ++ b ++ z ++ p ++ 0#1 ++ ty]
  | .vnfma w d a b z p ty => [0x2d#7 ++ w ++ d ++ a ++ b ++ z ++ p ++ 0#1 ++ ty]
  | .vmin w d a b z p ty => [0x2e#7 ++ w ++ d ++ a ++ b ++ z ++ p ++ 0#1 ++ ty]
  | .vmax w d a b z p ty => [0x2f#7 ++ w ++ d ++ a ++ b ++ z ++ p ++ 0#1 ++ ty]
  | .vabs w d a z p ty => [0x30#7 ++ w ++ d ++ a ++ 0#5 ++ z ++ p ++ 0#1 ++ ty]
  | .vneg w d a z p ty => [0x31#7 ++ w ++ d ++ a ++ 0#5 ++ z ++ p ++ 0#1 ++ ty]
  | .vrcp w d a z p ty => [0x32#7 ++ w ++ d ++ a ++ 0#5 ++ z ++ p ++ 0#1 ++ ty]
  | .vrsq w d a z p ty => [0x33#7 ++ w ++ d ++ a ++ 0#5 ++ z ++ p ++ 0#1 ++ ty]
  | .vexp2 w d a z p ty => [0x34#7 ++ w ++ d ++ a ++ 0#5 ++ z ++ p ++ 0#1 ++ ty]
  | .vlog2 w d a z p ty => [0x35#7 ++ w ++ d ++ a ++ 0#5 ++ z ++ p ++ 0#1 ++ ty]
  | .vcvt w d a dty rnd seg ov sty => [0x36#7 ++ w ++ d ++ a ++ dty ++ 0#2 ++ rnd ++ seg ++ ov ++ sty]
  | .vq w d a b rnd ov mx fmt => [0x37#7 ++ w ++ d ++ a ++ b ++ rnd ++ ov ++ mx ++ fmt]
  | .vcmp w d a b cond ty => [0x38#7 ++ w ++ d ++ a ++ b ++ 0#2 ++ cond ++ ty]
  | .vsel w d a b p ty => [0x39#7 ++ w ++ d ++ a ++ b ++ 0#1 ++ p ++ 0#1 ++ ty]
  | .vand w d a b z p ty => [0x40#7 ++ w ++ d ++ a ++ b ++ z ++ p ++ 0#1 ++ ty]
  | .vor w d a b z p ty => [0x41#7 ++ w ++ d ++ a ++ b ++ z ++ p ++ 0#1 ++ ty]
  | .vxor w d a b z p ty => [0x42#7 ++ w ++ d ++ a ++ b ++ z ++ p ++ 0#1 ++ ty]
  | .vshl w d a b z p ty => [0x43#7 ++ w ++ d ++ a ++ b ++ z ++ p ++ 0#1 ++ ty]
  | .vshr w d a b z p ty => [0x44#7 ++ w ++ d ++ a ++ b ++ z ++ p ++ 0#1 ++ ty]
  | .vsar w d a b z p ty => [0x45#7 ++ w ++ d ++ a ++ b ++ z ++ p ++ 0#1 ++ ty]
  | .viadd w d a b z p x ty => [0x46#7 ++ w ++ d ++ a ++ b ++ z ++ p ++ x ++ ty]
  | .visub w d a b z p x ty => [0x47#7 ++ w ++ d ++ a ++ b ++ z ++ p ++ x ++ ty]
  | .vimul w d a b z p x ty => [0x48#7 ++ w ++ d ++ a ++ b ++ z ++ p ++ x ++ ty]
  | .vimin w d a b z p x ty => [0x49#7 ++ w ++ d ++ a ++ b ++ z ++ p ++ x ++ ty]
  | .vimax w d a b z p x ty => [0x4a#7 ++ w ++ d ++ a ++ b ++ z ++ p ++ x ++ ty]
  | .vred w d a op p ty => [0x50#7 ++ w ++ d ++ a ++ 0#5 ++ op ++ p ++ ty]
  | .vscan w d a op p ty => [0x51#7 ++ w ++ d ++ a ++ 0#5 ++ op ++ p ++ ty]
  | .vperm w d a b z p ty => [0x52#7 ++ w ++ d ++ a ++ b ++ z ++ p ++ 0#1 ++ ty]
  | .vthr w d a b op p ty => [0x53#7 ++ w ++ d ++ a ++ b ++ op ++ p ++ ty]
  | .vtopk w d a b op p ty => [0x54#7 ++ w ++ d ++ a ++ b ++ op ++ p ++ ty]
  | .pand w d a b => [0x58#7 ++ w ++ d ++ a ++ b ++ 0#8]
  | .por w d a b => [0x59#7 ++ w ++ d ++ a ++ b ++ 0#8]
  | .pxor w d a b => [0x5a#7 ++ w ++ d ++ a ++ b ++ 0#8]
  | .pnot w d a => [0x5b#7 ++ w ++ d ++ a ++ 0#13]
  | .pset w d a kind => [0x5c#7 ++ w ++ d ++ a ++ 0#11 ++ kind]
  | .drain w t c dt sk qc lbl row0 nrow rnd ovf wrap => [0x1#7 ++ w ++ 0#4 ++ t ++ c ++ 0#2 ++ qc ++ sk ++ dt, lbl ++ row0 ++ nrow ++ rnd ++ ovf ++ wrap ++ 0#10]
  | .drainQ w t c qf kind gs qc lbl row0 nrow rnd ovf st sc => [0x2#7 ++ w ++ 0#4 ++ t ++ c ++ 0#2 ++ qc ++ gs ++ kind ++ qf, lbl ++ row0 ++ nrow ++ rnd ++ ovf ++ 0#1 ++ st ++ sc]
  | .tst w q t c qc => [0x8#7 ++ w ++ q ++ t ++ c ++ 0#7 ++ qc ++ 0#1]
  | .scatter w q n rb t c t2 c2 waitt sigt cnt inc qc qc2 => [0x9#7 ++ w ++ q ++ t ++ c ++ n ++ rb, t2 ++ c2 ++ waitt ++ sigt ++ cnt ++ inc ++ 0#2 ++ qc2 ++ qc]
  | .rwrAddF32 w q m t c waitt sigt cnt inc qc => [0x10#7 ++ w ++ q ++ t ++ c ++ 0#2 ++ m, 0#10 ++ waitt ++ sigt ++ cnt ++ inc ++ 0#3 ++ qc]
  | .rwrAddBf16 w q m t c waitt sigt cnt inc qc => [0x11#7 ++ w ++ q ++ t ++ c ++ 0#2 ++ m, 0#10 ++ waitt ++ sigt ++ cnt ++ inc ++ 0#3 ++ qc]
  | .rwrMaxF32 w q m t c waitt sigt cnt inc qc => [0x12#7 ++ w ++ q ++ t ++ c ++ 0#2 ++ m, 0#10 ++ waitt ++ sigt ++ cnt ++ inc ++ 0#3 ++ qc]
  | .rwrAddI32 w q m t c waitt sigt cnt inc qc => [0x13#7 ++ w ++ q ++ t ++ c ++ 0#2 ++ m, 0#10 ++ waitt ++ sigt ++ cnt ++ inc ++ 0#3 ++ qc]
  | .instructionLineFetch .. | .linePassOver .. | .heldLaneResume .. | .loopLineEnd .. | .joinComplete ..
  | .scalarResultReady .. | .vectorResultReady .. | .loadReply .. | .amoResultReturn .. | .roundClose ..
  | .tldLineArrival .. | .planeLineArrival .. | .bfxcfgRecordLoaded .. | .tileLookupComplete ..
  | .pageWalkComplete .. | .deferredReleaseEffect .. | .groupBarrierUpdate .. | .groupBarrierPollReply ..
  | .markerRetire .. | .rendezvousFire .. | .engineCommandDispatch .. | .engineCommandCompletion ..
  | .gatherExecute .. | .scatterExecute .. | .xferExecute .. | .stashEncode .. | .restoreDecode ..
  | .reduceRequestApply .. | .xchgPStart .. | .xchgDStart .. | .exchangeLineSwap .. | .exchangeCommit ..
  | .exchangeRollbackStart .. | .rollbackLineSwap .. | .rollbackComplete .. | .rollbackLinkLost ..
  | .idleScrubWrite .. | .matrixRowEntry .. | .rampUpEnd .. | .slotRowAdd .. | .mflipEffect ..
  | .mzeroEffect .. | .slotSpill .. | .bindStart .. | .bindRowWrite .. | .arrayCold .. | .hintTargetReached ..
  | .claimComplete .. | .drainRowRead .. | .drainDelivery .. | .writeBufferLineWrite .. | .remoteLineWrite ..
  | .freezeWatchdogExpiry .. | .waitWatchdogExpiry .. | .scheduleSlip .. | .taskStart .. | .taskCommit ..
  | .launchTake .. | .launchAgingTick .. | .launchQueuePush .. | .launchQueueOpen .. | .launchQueueQuiesce ..
  | .launchQueueDisable .. | .trapRecordPlace | .trapqPop .. | .yardmasterTrapEntry .. | .heartbeat ..
  | .heartbeatLimitExpiry .. | .snapshotStore .. | .snapshotLoad .. | .snapshotEvict .. | .snapshotClear ..
  | .serviceXchgP .. | .serviceXchgD .. | .grant .. | .tlbinvAll .. | .tlbinvAsid .. | .tlbinvPage ..
  | .tlbInvalidationDone | .granuleMigrationStart .. | .migrationCopyComplete | .migrationFlip
  | .migrationAbandon | .rtsVerify | .rtsExtend | .rtsSwitch | .rtsRequestComplete | .contextCreate
  | .contextDestroy | .contextDestructionComplete .. | .groupBind | .groupRebind | .groupResume | .groupRelease
  | .launchQueueAssign | .trapReply | .vylumEnable .. | .vylumRetrain .. | .vylumDisable .. | .linkTrained ..
  | .linkTrainingTimeout .. | .linkRetrainTimeout .. | .errorBurst .. | .laneLockLoss .. | .flitReceive ..
  | .nakReceive .. | .peerRequestReceive .. | .portLinkStateChange .. | .pcieMemoryRequest .. | .shedLost ..
  | .packageReset | .spdmRequest .. | .registerWrite .. | .applicationCoreAccess .. | .storeResolved ..
  | .softError .. | .walkerResume .. | .serialisedReRun .. | .phaseRollBack .. | .launchAbort .. | .dvfs .. => []

end Sys2Proof
end

