-- ==== Sys2Proof/Machine/Sequence.lean ====
section
/-! DEFINITION. The sequencers: instruction lines and their checks (R58-R63, R82-R84), positions and the ends of lines
(R65-R67, R130, R133, R135), JOIN (R131), and the watchdogs (R32, R343). A stream that has executed the last lane of its line
stands at lane 8 of it until the line ends. -/

namespace Sys2Proof.Machine

/-! ### Lines -/

/-- The word of lane `k` (R58), and the code of lane `k` from 1 (R59). -/
def lineWord (v : ILine) (k : Nat) : Word := if 8 ≤ k then 0 else v.extractLsb' (32 * k) 32
def laneCode (v : ILine) (k : Nat) : Nat := (v.extractLsb' (4 * (k - 1)) 4).toNat

/-- The stream of a lane code. -/
def codeStream : Nat → Option Stream
  | 1 => some .c
  | 2 => some .a
  | 3 => some .k
  | 4 => some .d
  | _ => none

/-- The lanes that carry words. -/
def lanes : List Nat := [1, 2, 3, 4, 5, 6, 7]

/-- The major of a word. -/
def major (w : Word) : Nat := (w.extractLsb' 25 7).toNat

/-- The lanes of a stream in ascending order (R62). -/
def ownLanes (v : ILine) (st : Stream) : List Nat := lanes.filter fun k => codeStream (laneCode v k) = some st

/-- What lane `k` of a stream holds. -/
def laneDec (v : ILine) (st : Stream) (k : Nat) : Dec := decode st (lineWord v k) (lineWord v (k + 1))

/-- Lane `k` agrees with R59, R60 and R61. -/
def laneLegal (yard forked : Bool) (v : ILine) (k : Nat) : Bool :=
  let long := fun (k : Nat) => match codeStream (laneCode v k) with
    | some st => isLong st (major (lineWord v k))
    | none => false
  match laneCode v k with
  | 0 => lineWord v k = 0
  | 8 => k ≠ 1 && long (k - 1)
  | n => match codeStream n with
    | none => false
    | some st => (!yard || st = .c) && (!long k || (k ≠ 7 && laneCode v (k + 1) = 8)) &&
        (forked || st = .c || !isTransfer yard st (major (lineWord v k)))

/-- A line is legal (R60, R61): each lane, the reserved header bits, and at most one transfer of each stream. -/
def lineLegal (yard forked : Bool) (v : ILine) : Bool :=
  v.extractLsb' 28 4 = 0 && lanes.all (laneLegal yard forked v) && allStreams.all fun st =>
    ((ownLanes v st).filter fun k => isTransfer yard st (major (lineWord v k))).length ≤ 1

/-- The majors that a yardmaster accepts (R81). -/
def yardMajor (m : Nat) : Bool :=
  m ≤ 0x0B || (0x10 ≤ m && m ≤ 0x27) || (0x2E ≤ m && m ≤ 0x36) || (0x50 ≤ m && m ≤ 0x5E) || (0x60 ≤ m && m ≤ 0x62) ||
    m = 0x7E || m = 0x7F

/-- A word that its place bars whatever its other fields hold: the core and mode restrictions of R68 and R132 by major, and
the registers of the other kind of core (R109). -/
def barred (yard forked : Bool) (st : Stream) (w : Word) : Bool :=
  let m := major w
  (yard && !yardMajor m) ||
  (st = .c && ((!yard && 0x58 ≤ m && m ≤ 0x5E) || (forked && m = 0x37) || (!forked && m = 0x65) ||
    (0x50 ≤ m && m ≤ 0x53 && !csrOk yard (w.extractLsb' 0 12).toNat))) ||
  (forked && m = 0x6F) || (!forked && st ≠ .c && m = 0x60)

/-- The decode exception of lane `k` (R82, R83), ILLEGAL_INSTRUCTION before RESERVED_FIELD. -/
def laneFault (yard forked : Bool) (v : ILine) (st : Stream) (k : Nat) : Option Cause :=
  match laneDec v st k with
  | .illegal => some .illegalInstruction
  | .reserved => some (if barred yard forked st (lineWord v k) then .illegalInstruction else .reservedField)
  | .ok i => restriction st yard forked i

/-- The first lane of a line that has a decode exception. -/
def lineFault (yard forked : Bool) (v : ILine) : Option (Nat × Stream × Cause) :=
  lanes.findSome? fun k => match codeStream (laneCode v k) with
    | some st => (laneFault yard forked v st k).map fun c => (k, st, c)
    | none => none

/-! ### Which streams proceed -/

/-- The core has a task, or is a yardmaster that runs; no loss has taken it. -/
def State.active (s : State) (p : Nat) : Bool :=
  if isYard p then s.yardUp (p - 512) else (s.cr p).task.isSome && !s.coreLost p

/-- A stream of a core proceeds unless it waits: no FREEZE and no trap stops it, the task has not issued TEND, and it has not
arrived at its JOIN (R34, R131, R178, R366). In joined mode C's position is the core's. -/
def State.runs (s : State) (p : Nat) (st : Stream) : Bool :=
  let c := s.cr p
  let x := c.st st
  s.active p && !c.freezeHeld &&
  (if c.forked then !x.out && !x.hlt && x.jn.isNone else st = .c && c.stops.isEmpty && (!x.ended || x.bp))

/-! ### Fetching -/

/-- The bytes of the line at an address, through the instruction cache; a line of a peer comes by a read of R403, and none
while it is on its way. A poisoned line and a failed read of a peer, which the order of R83 does not name, are raised at lane 0 after
the refusals of the translation and before ILLEGAL_LINE (DESIGN CHOICE, log 103). -/
def lineBytesAt (p pa : Nat) (va : DWord) : Act (Option ILine) := do
  let s ← get
  match s.peer? pa with
  | none =>
    if s.poisoned pa then refuse .uncorrectable va (s.unitOf pa) 0x08
    let (v, s) := s.icacheRead p pa
    set s
    return some v
  | some e =>
    let own : PeerOwner := .fetch p pa
    match s.peerState own with
    | .done bs =>
      set (s.peerDrop own)
      return some (BitVec.ofNat 256 (bytesVal (bs.take 32)))
    | .failed k => refuse k va (s.unitOf pa) 0
    | .wait =>
      if !s.peerSent own then set ((s.askPeer own e 0 pa 32 [] []).getD s)
      return none

/-- The line of a sequencer's position (R60, R83): translation and the refusals of a fetch, then the checks of the line.
False while the line is on its way. A fetch waits for the stores that a FENCE.I before it makes visible (R125). -/
def fetchLine (p : Nat) (st : Stream) : Act Bool := do
  if ((← get).cr p).fetchHeld then throw (.wait .memory none)
  let x := ((← get).cr p).st st
  let t ← resolve .fetch x.line 32
  match ← lineBytesAt p t.pa x.line with
  | none => return false
  | some v =>
    let forked := ((← get).cr p).forked
    require (lineLegal (isYard p) forked v) .illegalLine
    modify fun s =>
      let c := s.cr p
      s.setCr p (c.setSt st { c.st st with buf := some v })
    return true

/-- The effect of INSTRUCTION_LINE_FETCH. -/
def fetchEff (s : State) (p : Nat) (st : Stream) : Option State :=
  let x := (s.cr p).st st
  if !s.runs p st || x.buf.isSome || x.lane = 8 then none
  else
    let s := { s with core := p, stream := st, laneNo := 0 }
    match fetchLine p st s with
    | .ok (true, t) => some { t with lane := .done }
    | .ok (false, t) => some { t with lane := .waiting .memory none }
    | .error (.wait w l) => some { s.begin l with lane := .waiting w l }
    | .error (.trap c i k l) => some (s.laneTrap c i k l)

/-! ### The end of a line -/

/-- A stream moves to a line and lane: nothing stands any more of the line it leaves. -/
def StreamState.moveTo (x : StreamState) (line : DWord) (lane : Nat) : StreamState :=
  { x with line := line, lane := lane, bp := false, skip := none, buf := none, wait := none }

/-- The target that a FORK gives a stream. -/
def forkTarget (f : BitVec 3 × DWord × DWord × DWord) : Stream → Option DWord
  | .a => if f.1.getLsbD 0 then some f.2.1 else none
  | .k => if f.1.getLsbD 1 then some f.2.2.1 else none
  | .d => if f.1.getLsbD 2 then some f.2.2.2 else none
  | .c => none

/-- A FORK of the line takes effect (R130): each stream of its mask stands at its target with its loop unit cleared, and any
other issues nothing until the join completes. -/
def Core.forkNow (c : Core) : Core :=
  match c.c.fork with
  | none => c
  | some f =>
    let go := fun (x : StreamState) (st : Stream) => match forkTarget f st with
      | some t => { x.moveTo (t &&& ~~~0x1F) 0 with loops := .replicate 6 {}, out := false, wdog := 0 }
      | none => { x with out := true }
    { c with c := { c.c with fork := none }, a := go c.a .a, k := go c.k .k, d := go c.d .d, forked := true, forkMask := f.1 }

/-- The active levels of a stream that end with its line. -/
def StreamState.ending (x : StreamState) : List Nat :=
  [5, 4, 3, 2, 1, 0].filter fun n => (x.loops.getD n {}).active && (x.loops.getD n {}).endLine = x.line

/-- The register of a stride as a register whose value may be pending. -/
def Stride.pendReg (r : Stride) : Stream → Option Reg
  | .c => some (.s r.reg)
  | .k => some (.k r.reg)
  | _ => none

/-- Adds a stride of a stream to its register (R135). -/
def Core.stride (c : Core) (x : Stream × Stride) : Core :=
  let r := x.2
  if !r.used then c
  else match x.1 with
    | .c => (c.kill (.s r.reg)).putS r.reg (c.getS r.reg + sx r.imm)
    | .k => { c.kill (.k r.reg) with
        regs := { c.regs with k := c.regs.k.setIfInBounds r.reg.toNat (c.regs.k.getD r.reg.toNat 0 + r.imm) } }
    | st =>
      let v := c.getAD st r.reg
      if r.coord then
        let e := if r.pair then 2 else 0
        c.putAD st r.reg (setEl (setEl v e (coordEl v e + r.imm.extractLsb' 0 16)) (e + 1)
          (coordEl v (e + 1) + r.imm.extractLsb' 16 16))
      else c.putAD st r.reg (v + sx r.imm)

/-- The strides that act with level `n` of a stream's unit: in joined mode those of every stream at C's level (R135). -/
def Core.strides (c : Core) (st : Stream) (n : Nat) : List (Stream × Stride) :=
  (if c.forked then [st] else allStreams).flatMap fun u => ((c.st u).loops.getD n {}).strides.map fun r => (u, r)

/-- The loop unit at the end of a line (R133): the levels from the highest, each after its strides; the line to go back to. -/
def Core.loopEnd (st : Stream) : List Nat → Core → Core × Option DWord
  | [], c => (c, none)
  | n :: ns, c =>
    let l := (c.st st).loops.getD n {}
    let c := (c.strides st n).foldl Core.stride c
    if l.index.toNat + 1 < l.count.toNat then
      (c.setSt st ((c.st st).setLevel n { l with index := l.index + 1 }), some (lineTarget l.start 1))
    else Core.loopEnd st ns (c.setSt st ((c.st st).setLevel n { l with active := false }))

/-- A stride of a level that ends with the line waits for its register (R20). -/
def Core.strideWait (c : Core) (st : Stream) : Option Wait :=
  (c.st st).ending.findSome? fun n => (c.strides st n).findSome? fun x =>
    if x.2.used then (x.2.pendReg x.1).bind c.regWait else none

/-- The core leaves the held state of a joined line. -/
def Core.unheld (c : Core) : Core := { c with heldLine := false }

/-- The line at an address of a core's task as it stands in memory or its instruction cache, if it can be read. -/
def State.peekLine (s : State) (p : Nat) (va : DWord) : Option ILine :=
  let k := (s.cr p).lookups
  match s.ctx? (s.cr p).ctxId with
  | none => none
  | some c =>
    let w := s.translate (k.tlb ++ Sparse.get [] s.shedTlbs (shedOf p)) c.asid c.root va
    match s.reach .fetch w (k.tiles.getD 3 []) (some c) (4 * p + 3) va with
    | .at pa _ =>
      if s.poisoned pa || (s.peer? pa).isSome then none else some (s.icacheRead p (pa / 32 * 32)).1
    | _ => none

/-- A forked stream that enters a line stands at its first own lane in it (R63); at lane 0 where the line cannot be read, or holds no
lane of it. -/
def State.toOwnLane (s : State) (p : Nat) (st : Stream) : State :=
  let c := s.cr p
  let x := c.st st
  if !c.forked || x.lane ≠ 0 then s
  else match s.peekLine p x.line with
    | some v => s.setCr p (c.setSt st { x with lane := (ownLanes v st).headD 0 })
    | none => s

/-- The effect of LOOP_LINE_END: no taken transfer stands in the line (R67). A LOOP of count 0 in the line then moves past its
own end line. -/
def loopEndEff (s : State) (p : Nat) (st : Stream) : Option State :=
  let c := s.cr p
  let x := c.st st
  if x.lane ≠ 8 || x.bp || x.ending.isEmpty || (c.strideWait st).isSome then none
  else
    let (c, back) := c.loopEnd st x.ending
    let t := x.skip.getD (back.getD (lineTarget x.line 1))
    some ((s.setCr p (c.setSt st ((c.st st).moveTo (t &&& ~~~0x1F) 0)).unheld).toOwnLane p st)

/-- The end of a line where the loop unit takes no action: a taken transfer goes to its target, in the lane that RTT or TEND
names, and a FORK takes effect. Where RTT goes back, what stood open in that line stands open again: a pending transfer (R66), the move
past the end line of a LOOP with count 0 (R133), or its end, all lanes having issued. -/
def State.leaveLine (s : State) (p : Nat) (st : Stream) : State :=
  let c := s.cr p
  let x := c.st st
  let t := if x.bp then x.target else x.skip.getD (lineTarget x.line 1)
  let y := x.moveTo (t &&& ~~~0x1F) (if x.bp then t.toNat % 8 else 0)
  let y := match x.bp, x.after with
    | true, r :: rs => { y with
        bp := r.target.isSome, target := r.target.getD y.target, skip := r.skip
        lane := if r.atEnd then 8 else y.lane, after := rs }
    | _, _ => { y with after := [] }
  let c := c.setSt st y
  let s := s.setCr p (if st = .c then c.unheld.forkNow else c.unheld)
  if c.c.fork.isSome && st = .c then allStreams.foldl (fun s u => s.toOwnLane p u) s else s.toOwnLane p st

/-- A stream has passed over a line that holds none of its lanes. -/
def State.passed (s : State) (p : Nat) (st : Stream) : State :=
  let c := s.cr p
  let s := s.setCr p (c.setSt st { c.st st with lane := 8 })
  (loopEndEff s p st).getD (if ((s.cr p).st st).ending.isEmpty || ((s.cr p).st st).bp then s.leaveLine p st else s)

/-- The position of a stream's next instruction (R63): in forked mode its next own lane, in one of so many lines that it passes over. -/
def State.ownPosition (s : State) (p : Nat) (st : Stream) : Nat → DWord
  | 0 => s.position p st ((s.cr p).st ((s.cr p).lead st)).lane
  | n + 1 =>
    let c := s.cr p
    let x := c.st (c.lead st)
    let here := s.position p st x.lane
    if !c.forked || x.lane ≠ 0 then here
    else match s.peekLine p x.line with
      | some v => if (ownLanes v st).isEmpty then (s.passed p st).ownPosition p st n else here
      | none => here

/-- The records of the TRAPs that streams of the core have issued are made, each where the position of its stream's next instruction is
known (R151). -/
def State.softTrapsAt (s : State) (p : Nat) (next : Stream → Option DWord) : State :=
  allStreams.foldl (fun s st =>
    let c := s.cr p
    match (c.st st).swTrap, next st with
    | some code, some pos =>
      (s.setCr p (c.setSt st { c.st st with swTrap := none })).takeTrapAt p st pos .software 0 0 0 code.toNat
    | _, _ => s) s

/-- The records of all TRAPs, at the positions that now stand; a stream passes over at most 2^10 lines on its way there
(DESIGN CHOICE, log 124). -/
def State.softTraps (s : State) (p : Nat) : State := s.softTrapsAt p fun st => some (s.ownPosition p st 1024)

/-! ### Passing over, held lanes, JOIN -/

/-- The effect of LINE_PASS_OVER (R63): the stream reaches the end of a line that holds none of its lanes. -/
def passEff (s : State) (p : Nat) (st : Stream) : Option State :=
  let c := s.cr p
  let x := c.st st
  match x.buf with
  | none => none
  | some v =>
    if c.forked && s.runs p st && x.lane ≠ 8 && (ownLanes v st).isEmpty then
      some (s.setCr p (c.setSt st { x with lane := 8, wait := none, wdog := 0 }))
    else none

/-- The effect of HELD_LANE_RESUME (R62): the operand that the held lane waits for is ready. -/
def heldEff (s : State) (p : Nat) : Option State :=
  let c := s.cr p
  match c.c.wait with
  | some (.sameLine r) =>
    if c.heldLine && (c.regWait r).isNone then some (s.setCr p { c with c := { c.c with wait := none } }) else none
  | _ => none

/-- The streams that a join awaits: C and those of the FORK's mask. -/
def Core.joining (c : Core) : List Stream := allStreams.filter fun st => st = .c || !(c.st st).out

/-- The effect of JOIN_COMPLETE (R131): every stream has arrived and stands at its JOIN; the flag is set, and the core goes on joined
at the line after C's. -/
def joinEff (s : State) (p : Nat) : Option State :=
  let c := s.cr p
  match c.c.jn with
  | none => none
  | some f =>
    let there := fun (st : Stream) =>
      let x := c.st st
      x.jn = some f && !x.hlt
    if !c.forked || !c.clocked || !c.joining.all there then none
    else
      let line := lineTarget c.c.line 1
      let back := fun (x : StreamState) =>
        { x.moveTo line 0 with
          jn := none, loops := if x.out then x.loops else .replicate 6 {}, out := false, wdog := 0 }
      some (s.setCr p { c with
        c := { c.c.moveTo line 0 with jn := none, wdog := 0 }, a := back c.a, k := back c.k, d := back c.d
        forked := false, forkMask := 0, flags := setFlag c.flags f true })

/-! ### Watchdogs -/

/-- The object of a wait by R343; a wait for memory names none. -/
def Wait.code : Wait → Nat × Nat
  | .object k i => (k, i)
  | _ => (0, 0)

/-- Word 3 for a wait: the address of a group barrier. -/
def Core.waitInfo (c : Core) (w : Wait) : DWord :=
  match w with
  | .object 4 _ => match c.gbPolls.getLast? with | some g => g.va | none => 0
  | _ => 0

/-- The context record that sets a core's limits. -/
def State.limits (s : State) (p : Nat) : Context := (s.ctx? (s.cr p).ctxId).getD { record := 0 }

/-- A forwarded trap of the core's task awaits its reply: the task counts on neither watchdog (R390). -/
def State.awaitsReply (s : State) (p : Nat) : Bool :=
  s.ctxs.any fun x => x.2.forwarded.any fun f => f.core = p && (s.cr p).task = some f.task

/-- The effect of FREEZE_WATCHDOG_EXPIRY: the joined core has been frozen by its own stall for its limit, this cycle
included. -/
def freezeDogEff (s : State) (p : Nat) : Option State :=
  let c := s.cr p
  match c.stalled with
  | none => none
  | some (st, w) =>
    if isYard p || c.forked || c.frozen || !c.stops.isEmpty || s.awaitsReply p || c.freezeDog + 1 < (s.limits p).freezeLimit then
      none
    else
      let s := s.setCr p { c with freezeDog := 0 }
      some (s.takeTrap p st c.c.lane .freezeTimeout (c.waitInfo w) w.code.1 w.code.2 0)

/-- What a stream waits for that counts on its wait watchdog: an object in forked mode, its JOIN among them; on C the commit
(R32). -/
def State.countedWait (s : State) (p : Nat) (st : Stream) : Option Wait :=
  let c := s.cr p
  let x := c.st st
  if isYard p || c.frozen || s.awaitsReply p then none
  else if c.forked then
    if x.hlt || x.out then none
    else match x.wait with
      | some (.object k i) => some (.object k i)
      | _ => match x.jn with
        | some f => some (.object 7 f.toNat)
        | none => none
  else if st = .c && c.stops.isEmpty then s.commitWait p
  else none

/-- The effect of WAIT_WATCHDOG_EXPIRY. -/
def waitDogEff (s : State) (p : Nat) (st : Stream) : Option State :=
  let c := s.cr p
  let x := c.st st
  match s.countedWait p st with
  | none => none
  | some w =>
    if x.wdog + 1 < (s.limits p).waitLimit then none
    else
      let s := s.setCr p (c.setSt st { x with wdog := 0 })
      some (s.takeTrap p st x.lane .waitTimeout (c.waitInfo w) w.code.1 w.code.2 0)

/-! ### The steps -/

/-- INSTRUCTION_LINE_FETCH (R60). -/
def execInstructionLineFetch (p : Nat) (st : Stream) (s : State) : Host.Outcome State Fault Refusal := event (fetchEff s p st) s

/-- LINE_PASS_OVER (R63). -/
def execLinePassOver (p : Nat) (st : Stream) (s : State) : Host.Outcome State Fault Refusal := event (passEff s p st) s

/-- HELD_LANE_RESUME (R62). -/
def execHeldLaneResume (p : Nat) (s : State) : Host.Outcome State Fault Refusal := event (heldEff s p) s

/-- LOOP_LINE_END (R133). -/
def execLoopLineEnd (p : Nat) (st : Stream) (s : State) : Host.Outcome State Fault Refusal := event (loopEndEff s p st) s

/-- JOIN_COMPLETE (R131). -/
def execJoinComplete (p : Nat) (s : State) : Host.Outcome State Fault Refusal := event (joinEff s p) s

/-- FREEZE_WATCHDOG_EXPIRY (R32). -/
def execFreezeWatchdogExpiry (p : Nat) (s : State) : Host.Outcome State Fault Refusal := event (freezeDogEff s p) s

/-- WAIT_WATCHDOG_EXPIRY (R32). -/
def execWaitWatchdogExpiry (p : Nat) (st : Stream) (s : State) : Host.Outcome State Fault Refusal := event (waitDogEff s p st) s

end Sys2Proof.Machine
end

