-- ==== Sys2Proof/Machine/Dispatch.lean ====
section
/-! DEFINITION. The dispatcher: one arm for every constructor of `Instr`. -/

namespace Sys2Proof.Machine

/-- The effect of one instruction or of one step of the device. -/
def exec (i : Instr) (s : State) : Host.Outcome State Fault Refusal :=
  match i with
  | .nop => Sys2Proof.Machine.execNop s
  | .add w d a b => Sys2Proof.Machine.execAdd w d a b s
  | .sub w d a b => Sys2Proof.Machine.execSub w d a b s
  | .mul w d a b => Sys2Proof.Machine.execMul w d a b s
  | .mulh w d a b => Sys2Proof.Machine.execMulh w d a b s
  | .mulhu w d a b => Sys2Proof.Machine.execMulhu w d a b s
  | .div w d a b => Sys2Proof.Machine.execDiv w d a b s
  | .divu w d a b => Sys2Proof.Machine.execDivu w d a b s
  | .rem w d a b => Sys2Proof.Machine.execRem w d a b s
  | .remu w d a b => Sys2Proof.Machine.execRemu w d a b s
  | .and_ w d a b => Sys2Proof.Machine.execAnd w d a b s
  | .or_ w d a b => Sys2Proof.Machine.execOr w d a b s
  | .xor_ w d a b => Sys2Proof.Machine.execXor w d a b s
  | .andn w d a b => Sys2Proof.Machine.execAndn w d a b s
  | .shl w d a b => Sys2Proof.Machine.execShl w d a b s
  | .shr w d a b => Sys2Proof.Machine.execShr w d a b s
  | .sar w d a b => Sys2Proof.Machine.execSar w d a b s
  | .rol w d a b => Sys2Proof.Machine.execRol w d a b s
  | .min_ w d a b => Sys2Proof.Machine.execMin w d a b s
  | .max_ w d a b => Sys2Proof.Machine.execMax w d a b s
  | .minu w d a b => Sys2Proof.Machine.execMinu w d a b s
  | .maxu w d a b => Sys2Proof.Machine.execMaxu w d a b s
  | .slt w d a b => Sys2Proof.Machine.execSlt w d a b s
  | .sltu w d a b => Sys2Proof.Machine.execSltu w d a b s
  | .seq w d a b => Sys2Proof.Machine.execSeq w d a b s
  | .clz w d a => Sys2Proof.Machine.execClz w d a s
  | .ctz w d a => Sys2Proof.Machine.execCtz w d a s
  | .popc w d a => Sys2Proof.Machine.execPopc w d a s
  | .bext w d a b => Sys2Proof.Machine.execBext w d a b s
  | .addi w d a imm => Sys2Proof.Machine.execAddi w d a imm s
  | .andi w d a imm => Sys2Proof.Machine.execAndi w d a imm s
  | .ori w d a imm => Sys2Proof.Machine.execOri w d a imm s
  | .xori w d a imm => Sys2Proof.Machine.execXori w d a imm s
  | .shli w d a sh => Sys2Proof.Machine.execShli w d a sh s
  | .shri w d a sh => Sys2Proof.Machine.execShri w d a sh s
  | .sari w d a sh => Sys2Proof.Machine.execSari w d a sh s
  | .slti w d a imm => Sys2Proof.Machine.execSlti w d a imm s
  | .sltiu w d a imm => Sys2Proof.Machine.execSltiu w d a imm s
  | .li w d hi imm => Sys2Proof.Machine.execLi w d hi imm s
  | .li64 w d imm => Sys2Proof.Machine.execLi64 w d imm s
  | .ldB w d a imm => Sys2Proof.Machine.execLdB w d a imm s
  | .ldBu w d a imm => Sys2Proof.Machine.execLdBu w d a imm s
  | .ldH w d a imm => Sys2Proof.Machine.execLdH w d a imm s
  | .ldHu w d a imm => Sys2Proof.Machine.execLdHu w d a imm s
  | .ldW w d a imm => Sys2Proof.Machine.execLdW w d a imm s
  | .ldWu w d a imm => Sys2Proof.Machine.execLdWu w d a imm s
  | .ldD w d a imm => Sys2Proof.Machine.execLdD w d a imm s
  | .stB w d a imm => Sys2Proof.Machine.execStB w d a imm s
  | .stH w d a imm => Sys2Proof.Machine.execStH w d a imm s
  | .stW w d a imm => Sys2Proof.Machine.execStW w d a imm s
  | .stD w d a imm => Sys2Proof.Machine.execStD w d a imm s
  | .amoAdd w d a b stm scope size => Sys2Proof.Machine.execAmoAdd w d a b stm scope size s
  | .amoAnd w d a b stm scope size => Sys2Proof.Machine.execAmoAnd w d a b stm scope size s
  | .amoOr w d a b stm scope size => Sys2Proof.Machine.execAmoOr w d a b stm scope size s
  | .amoXor w d a b stm scope size => Sys2Proof.Machine.execAmoXor w d a b stm scope size s
  | .amoMin w d a b stm scope size => Sys2Proof.Machine.execAmoMin w d a b stm scope size s
  | .amoMax w d a b stm scope size => Sys2Proof.Machine.execAmoMax w d a b stm scope size s
  | .amoSwp w d a b stm scope size => Sys2Proof.Machine.execAmoSwp w d a b stm scope size s
  | .amoCas w d a b stm scope size => Sys2Proof.Machine.execAmoCas w d a b stm scope size s
  | .amoAddd w d a b stm scope size => Sys2Proof.Machine.execAmoAddd w d a b stm scope size s
  | .amoNull w d a stm scope size => Sys2Proof.Machine.execAmoNull w d a stm scope size s
  | .fence w kind uo mask scope => Sys2Proof.Machine.execFence w kind uo mask scope s
  | .fenceI w => Sys2Proof.Machine.execFenceI w s
  | .beq w a b off => Sys2Proof.Machine.execBeq w a b off s
  | .bne w a b off => Sys2Proof.Machine.execBne w a b off s
  | .blt w a b off => Sys2Proof.Machine.execBlt w a b off s
  | .bge w a b off => Sys2Proof.Machine.execBge w a b off s
  | .bltu w a b off => Sys2Proof.Machine.execBltu w a b off s
  | .bgeu w a b off => Sys2Proof.Machine.execBgeu w a b off s
  | .jmpr w a => Sys2Proof.Machine.execJmpr w a s
  | .fork w mask offa offk offd => Sys2Proof.Machine.execFork w mask offa offk offd s
  | .pushfmt w imm => Sys2Proof.Machine.execPushfmt w imm s
  | .qpush w q n => Sys2Proof.Machine.execQpush w q n s
  | .qpop w q n => Sys2Proof.Machine.execQpop w q n s
  | .qstat w q n => Sys2Proof.Machine.execQstat w q n s
  | .cont w a b => Sys2Proof.Machine.execCont w a b s
  | .launch w d a b => Sys2Proof.Machine.execLaunch w d a b s
  | .csrr w d csr => Sys2Proof.Machine.execCsrr w d csr s
  | .csrw w d a csr => Sys2Proof.Machine.execCsrw w d a csr s
  | .csrs w d a csr => Sys2Proof.Machine.execCsrs w d a csr s
  | .csrc w d a csr => Sys2Proof.Machine.execCsrc w d a csr s
  | .rtt w => Sys2Proof.Machine.execRtt w s
  | .wfi w => Sys2Proof.Machine.execWfi w s
  | .halt w => Sys2Proof.Machine.execHalt w s
  | .freeze w d a => Sys2Proof.Machine.execFreeze w d a s
  | .thaw w a => Sys2Proof.Machine.execThaw w a s
  | .snapr w d a b => Sys2Proof.Machine.execSnapr w d a b s
  | .snapw w d a b => Sys2Proof.Machine.execSnapw w d a b s
  | .loop w level cr creg count endl => Sys2Proof.Machine.execLoop w level cr creg count endl s
  | .lstr w d slot level pair imm => Sys2Proof.Machine.execLstr w d slot level pair imm s
  | .jmp w off => Sys2Proof.Machine.execJmp w off s
  | .bqz w q off => Sys2Proof.Machine.execBqz w q off s
  | .bqnz w q off => Sys2Proof.Machine.execBqnz w q off s
  | .join w f => Sys2Proof.Machine.execJoin w f s
  | .tksig w t => Sys2Proof.Machine.execTksig w t s
  | .tkwait w t => Sys2Proof.Machine.execTkwait w t s
  | .mark w m => Sys2Proof.Machine.execMark w m s
  | .fset w f => Sys2Proof.Machine.execFset w f s
  | .fclr w f => Sys2Proof.Machine.execFclr w f s
  | .fwait w c f => Sys2Proof.Machine.execFwait w c f s
  | .cntset w n => Sys2Proof.Machine.execCntset w n s
  | .cntwait w n t => Sys2Proof.Machine.execCntwait w n t s
  | .barInit w n cnt ph => Sys2Proof.Machine.execBarInit w n cnt ph s
  | .barArv w n => Sys2Proof.Machine.execBarArv w n s
  | .barWait w n ph => Sys2Proof.Machine.execBarWait w n ph s
  | .barArvGroup w a => Sys2Proof.Machine.execBarArvGroup w a s
  | .barWaitGroup w a ph => Sys2Proof.Machine.execBarWaitGroup w a ph s
  | .rdvset w z eng m => Sys2Proof.Machine.execRdvset w z eng m s
  | .rdvwait w z => Sys2Proof.Machine.execRdvwait w z s
  | .tend w => Sys2Proof.Machine.execTend w s
  | .hint w a k => Sys2Proof.Machine.execHint w a k s
  | .mhint w n => Sys2Proof.Machine.execMhint w n s
  | .trap w code => Sys2Proof.Machine.execTrap w code s
  | .aadd w d a b em => Sys2Proof.Machine.execAadd w d a b em s
  | .aaddi w d a e imm => Sys2Proof.Machine.execAaddi w d a e imm s
  | .amov w d a q sel => Sys2Proof.Machine.execAmov w d a q sel s
  | .aset w d a e rsh q lsh => Sys2Proof.Machine.execAset w d a e rsh q lsh s
  | .ali w d pair lo hi => Sys2Proof.Machine.execAli w d pair lo hi s
  | .tld w q t c n => Sys2Proof.Machine.execTld w q t c n s
  | .tldT w q t c => Sys2Proof.Machine.execTldT w q t c s
  | .tldb w q t c x => Sys2Proof.Machine.execTldb w q t c x s
  | .ild w t c n => Sys2Proof.Machine.execIld w t c n s
  | .bfxcfg w x a imm => Sys2Proof.Machine.execBfxcfg w x a imm s
  | .mldw w t c spa m => Sys2Proof.Machine.execMldw w t c spa m s
  | .mldwT w t c k => Sys2Proof.Machine.execMldwT w t c k s
  | .mlds w t c kind m => Sys2Proof.Machine.execMlds w t c kind m s
  | .gather w n rb t c t2 c2 waitt sigt cnt inc => Sys2Proof.Machine.execGather w n rb t c t2 c2 waitt sigt cnt inc s
  | .xchgP w t c t2 c2 waitt sigt cnt inc => Sys2Proof.Machine.execXchgP w t c t2 c2 waitt sigt cnt inc s
  | .xchgD w t c t2 c2 waitt sigt cnt inc => Sys2Proof.Machine.execXchgD w t c t2 c2 waitt sigt cnt inc s
  | .xfer w n t c t2 c2 waitt sigt cnt inc => Sys2Proof.Machine.execXfer w n t c t2 c2 waitt sigt cnt inc s
  | .stash w mode t c t2 c2 waitt sigt cnt inc => Sys2Proof.Machine.execStash w mode t c t2 c2 waitt sigt cnt inc s
  | .restore w mode t c t2 c2 waitt sigt cnt inc => Sys2Proof.Machine.execRestore w mode t c t2 c2 waitt sigt cnt inc s
  | .mflip w => Sys2Proof.Machine.execMflip w s
  | .mstream w q row0 sq nr => Sys2Proof.Machine.execMstream w q row0 sq nr s
  | .mstreamIdx w q sq iq nr => Sys2Proof.Machine.execMstreamIdx w q sq iq nr s
  | .mzero w l => Sys2Proof.Machine.execMzero w l s
  | .bind w q l => Sys2Proof.Machine.execBind w q l s
  | .slotcfg w nim first => Sys2Proof.Machine.execSlotcfg w nim first s
  | .slotcfgFault w => Sys2Proof.Machine.execSlotcfgFault w s
  | .slotfree w l => Sys2Proof.Machine.execSlotfree w l s
  | .slotfreeAll w => Sys2Proof.Machine.execSlotfreeAll w s
  | .slotmapRead w d l => Sys2Proof.Machine.execSlotmapRead w d l s
  | .slotmapMap w slot l => Sys2Proof.Machine.execSlotmapMap w slot l s
  | .mspill w l => Sys2Proof.Machine.execMspill w l s
  | .vpop w d q => Sys2Proof.Machine.execVpop w d q s
  | .vpopK w d q => Sys2Proof.Machine.execVpopK w d q s
  | .vpush w q a => Sys2Proof.Machine.execVpush w q a s
  | .vpushOq0 w q a => Sys2Proof.Machine.execVpushOq0 w q a s
  | .vmov w d a z p ty => Sys2Proof.Machine.execVmov w d a z p ty s
  | .vmovK w d a b ty => Sys2Proof.Machine.execVmovK w d a b ty s
  | .vbcast w d a z p ty => Sys2Proof.Machine.execVbcast w d a z p ty s
  | .vbcastLane w d a b z p ty => Sys2Proof.Machine.execVbcastLane w d a b z p ty s
  | .vli w d z p ty imm => Sys2Proof.Machine.execVli w d z p ty imm s
  | .vliK w d imm => Sys2Proof.Machine.execVliK w d imm s
  | .vadd w d a b z p ty => Sys2Proof.Machine.execVadd w d a b z p ty s
  | .vsub w d a b z p ty => Sys2Proof.Machine.execVsub w d a b z p ty s
  | .vmul w d a b z p ty => Sys2Proof.Machine.execVmul w d a b z p ty s
  | .vfma w d a b z p ty => Sys2Proof.Machine.execVfma w d a b z p ty s
  | .vfms w d a b z p ty => Sys2Proof.Machine.execVfms w d a b z p ty s
  | .vnfma w d a b z p ty => Sys2Proof.Machine.execVnfma w d a b z p ty s
  | .vmin w d a b z p ty => Sys2Proof.Machine.execVmin w d a b z p ty s
  | .vmax w d a b z p ty => Sys2Proof.Machine.execVmax w d a b z p ty s
  | .vabs w d a z p ty => Sys2Proof.Machine.execVabs w d a z p ty s
  | .vneg w d a z p ty => Sys2Proof.Machine.execVneg w d a z p ty s
  | .vrcp w d a z p ty => Sys2Proof.Machine.execVrcp w d a z p ty s
  | .vrsq w d a z p ty => Sys2Proof.Machine.execVrsq w d a z p ty s
  | .vexp2 w d a z p ty => Sys2Proof.Machine.execVexp2 w d a z p ty s
  | .vlog2 w d a z p ty => Sys2Proof.Machine.execVlog2 w d a z p ty s
  | .vcvt w d a dty rnd seg ov sty => Sys2Proof.Machine.execVcvt w d a dty rnd seg ov sty s
  | .vq w d a b rnd ov mx fmt => Sys2Proof.Machine.execVq w d a b rnd ov mx fmt s
  | .vcmp w d a b cond ty => Sys2Proof.Machine.execVcmp w d a b cond ty s
  | .vsel w d a b p ty => Sys2Proof.Machine.execVsel w d a b p ty s
  | .vand w d a b z p ty => Sys2Proof.Machine.execVand w d a b z p ty s
  | .vor w d a b z p ty => Sys2Proof.Machine.execVor w d a b z p ty s
  | .vxor w d a b z p ty => Sys2Proof.Machine.execVxor w d a b z p ty s
  | .vshl w d a b z p ty => Sys2Proof.Machine.execVshl w d a b z p ty s
  | .vshr w d a b z p ty => Sys2Proof.Machine.execVshr w d a b z p ty s
  | .vsar w d a b z p ty => Sys2Proof.Machine.execVsar w d a b z p ty s
  | .viadd w d a b z p x ty => Sys2Proof.Machine.execViadd w d a b z p x ty s
  | .visub w d a b z p x ty => Sys2Proof.Machine.execVisub w d a b z p x ty s
  | .vimul w d a b z p x ty => Sys2Proof.Machine.execVimul w d a b z p x ty s
  | .vimin w d a b z p x ty => Sys2Proof.Machine.execVimin w d a b z p x ty s
  | .vimax w d a b z p x ty => Sys2Proof.Machine.execVimax w d a b z p x ty s
  | .vred w d a op p ty => Sys2Proof.Machine.execVred w d a op p ty s
  | .vscan w d a op p ty => Sys2Proof.Machine.execVscan w d a op p ty s
  | .vperm w d a b z p ty => Sys2Proof.Machine.execVperm w d a b z p ty s
  | .vthr w d a b op p ty => Sys2Proof.Machine.execVthr w d a b op p ty s
  | .vtopk w d a b op p ty => Sys2Proof.Machine.execVtopk w d a b op p ty s
  | .pand w d a b => Sys2Proof.Machine.execPand w d a b s
  | .por w d a b => Sys2Proof.Machine.execPor w d a b s
  | .pxor w d a b => Sys2Proof.Machine.execPxor w d a b s
  | .pnot w d a => Sys2Proof.Machine.execPnot w d a s
  | .pset w d a kind => Sys2Proof.Machine.execPset w d a kind s
  | .drain w t c dt sk qc lbl row0 nrow rnd ovf wrap => Sys2Proof.Machine.execDrain w t c dt sk qc lbl row0 nrow rnd ovf wrap s
  | .drainQ w t c qf kind gs qc lbl row0 nrow rnd ovf st sc => Sys2Proof.Machine.execDrainQ w t c qf kind gs qc lbl row0 nrow rnd ovf st sc s
  | .tst w q t c qc => Sys2Proof.Machine.execTst w q t c qc s
  | .scatter w q n rb t c t2 c2 waitt sigt cnt inc qc qc2 => Sys2Proof.Machine.execScatter w q n rb t c t2 c2 waitt sigt cnt inc qc qc2 s
  | .rwrAddF32 w q m t c waitt sigt cnt inc qc => Sys2Proof.Machine.execRwrAddF32 w q m t c waitt sigt cnt inc qc s
  | .rwrAddBf16 w q m t c waitt sigt cnt inc qc => Sys2Proof.Machine.execRwrAddBf16 w q m t c waitt sigt cnt inc qc s
  | .rwrMaxF32 w q m t c waitt sigt cnt inc qc => Sys2Proof.Machine.execRwrMaxF32 w q m t c waitt sigt cnt inc qc s
  | .rwrAddI32 w q m t c waitt sigt cnt inc qc => Sys2Proof.Machine.execRwrAddI32 w q m t c waitt sigt cnt inc qc s
  | .instructionLineFetch p st => Sys2Proof.Machine.execInstructionLineFetch p st s
  | .linePassOver p st => Sys2Proof.Machine.execLinePassOver p st s
  | .heldLaneResume p => Sys2Proof.Machine.execHeldLaneResume p s
  | .loopLineEnd p st => Sys2Proof.Machine.execLoopLineEnd p st s
  | .joinComplete p => Sys2Proof.Machine.execJoinComplete p s
  | .scalarResultReady p => Sys2Proof.Machine.execScalarResultReady p s
  | .vectorResultReady p => Sys2Proof.Machine.execVectorResultReady p s
  | .loadReply p => Sys2Proof.Machine.execLoadReply p s
  | .amoResultReturn p => Sys2Proof.Machine.execAmoResultReturn p s
  | .roundClose n => Sys2Proof.Machine.execRoundClose n s
  | .tldLineArrival p q => Sys2Proof.Machine.execTldLineArrival p q s
  | .planeLineArrival p => Sys2Proof.Machine.execPlaneLineArrival p s
  | .bfxcfgRecordLoaded p => Sys2Proof.Machine.execBfxcfgRecordLoaded p s
  | .tileLookupComplete p port => Sys2Proof.Machine.execTileLookupComplete p port s
  | .pageWalkComplete p => Sys2Proof.Machine.execPageWalkComplete p s
  | .deferredReleaseEffect p st => Sys2Proof.Machine.execDeferredReleaseEffect p st s
  | .groupBarrierUpdate p => Sys2Proof.Machine.execGroupBarrierUpdate p s
  | .groupBarrierPollReply p => Sys2Proof.Machine.execGroupBarrierPollReply p s
  | .markerRetire p e => Sys2Proof.Machine.execMarkerRetire p e s
  | .rendezvousFire p z => Sys2Proof.Machine.execRendezvousFire p z s
  | .engineCommandDispatch p st => Sys2Proof.Machine.execEngineCommandDispatch p st s
  | .engineCommandCompletion id => Sys2Proof.Machine.execEngineCommandCompletion id s
  | .gatherExecute id => Sys2Proof.Machine.execGatherExecute id s
  | .scatterExecute id => Sys2Proof.Machine.execScatterExecute id s
  | .xferExecute id => Sys2Proof.Machine.execXferExecute id s
  | .stashEncode id => Sys2Proof.Machine.execStashEncode id s
  | .restoreDecode id => Sys2Proof.Machine.execRestoreDecode id s
  | .reduceRequestApply id => Sys2Proof.Machine.execReduceRequestApply id s
  | .xchgPStart n => Sys2Proof.Machine.execXchgPStart n s
  | .xchgDStart n => Sys2Proof.Machine.execXchgDStart n s
  | .exchangeLineSwap n => Sys2Proof.Machine.execExchangeLineSwap n s
  | .exchangeCommit n => Sys2Proof.Machine.execExchangeCommit n s
  | .exchangeRollbackStart n => Sys2Proof.Machine.execExchangeRollbackStart n s
  | .rollbackLineSwap n => Sys2Proof.Machine.execRollbackLineSwap n s
  | .rollbackComplete n => Sys2Proof.Machine.execRollbackComplete n s
  | .rollbackLinkLost n => Sys2Proof.Machine.execRollbackLinkLost n s
  | .idleScrubWrite frame line => Sys2Proof.Machine.execIdleScrubWrite frame line s
  | .matrixRowEntry p => Sys2Proof.Machine.execMatrixRowEntry p s
  | .rampUpEnd p => Sys2Proof.Machine.execRampUpEnd p s
  | .slotRowAdd p => Sys2Proof.Machine.execSlotRowAdd p s
  | .mflipEffect p => Sys2Proof.Machine.execMflipEffect p s
  | .mzeroEffect p => Sys2Proof.Machine.execMzeroEffect p s
  | .slotSpill p => Sys2Proof.Machine.execSlotSpill p s
  | .bindStart p => Sys2Proof.Machine.execBindStart p s
  | .bindRowWrite p => Sys2Proof.Machine.execBindRowWrite p s
  | .arrayCold p => Sys2Proof.Machine.execArrayCold p s
  | .hintTargetReached p => Sys2Proof.Machine.execHintTargetReached p s
  | .claimComplete p => Sys2Proof.Machine.execClaimComplete p s
  | .drainRowRead p => Sys2Proof.Machine.execDrainRowRead p s
  | .drainDelivery p => Sys2Proof.Machine.execDrainDelivery p s
  | .writeBufferLineWrite p => Sys2Proof.Machine.execWriteBufferLineWrite p s
  | .remoteLineWrite p => Sys2Proof.Machine.execRemoteLineWrite p s
  | .freezeWatchdogExpiry p => Sys2Proof.Machine.execFreezeWatchdogExpiry p s
  | .waitWatchdogExpiry p st => Sys2Proof.Machine.execWaitWatchdogExpiry p st s
  | .scheduleSlip l => Sys2Proof.Machine.execScheduleSlip l s
  | .taskStart l => Sys2Proof.Machine.execTaskStart l s
  | .taskCommit p => Sys2Proof.Machine.execTaskCommit p s
  | .launchTake q => Sys2Proof.Machine.execLaunchTake q s
  | .launchAgingTick q => Sys2Proof.Machine.execLaunchAgingTick q s
  | .launchQueuePush q v => Sys2Proof.Machine.execLaunchQueuePush q v s
  | .launchQueueOpen q => Sys2Proof.Machine.execLaunchQueueOpen q s
  | .launchQueueQuiesce q => Sys2Proof.Machine.execLaunchQueueQuiesce q s
  | .launchQueueDisable q => Sys2Proof.Machine.execLaunchQueueDisable q s
  | .trapRecordPlace => Sys2Proof.Machine.execTrapRecordPlace s
  | .trapqPop y => Sys2Proof.Machine.execTrapqPop y s
  | .yardmasterTrapEntry y => Sys2Proof.Machine.execYardmasterTrapEntry y s
  | .heartbeat y => Sys2Proof.Machine.execHeartbeat y s
  | .heartbeatLimitExpiry y => Sys2Proof.Machine.execHeartbeatLimitExpiry y s
  | .snapshotStore p addr => Sys2Proof.Machine.execSnapshotStore p addr s
  | .snapshotLoad p addr => Sys2Proof.Machine.execSnapshotLoad p addr s
  | .snapshotEvict p => Sys2Proof.Machine.execSnapshotEvict p s
  | .snapshotClear p => Sys2Proof.Machine.execSnapshotClear p s
  | .serviceXchgP n => Sys2Proof.Machine.execServiceXchgP n s
  | .serviceXchgD n => Sys2Proof.Machine.execServiceXchgD n s
  | .grant n => Sys2Proof.Machine.execGrant n s
  | .tlbinvAll v => Sys2Proof.Machine.execTlbinvAll v s
  | .tlbinvAsid v => Sys2Proof.Machine.execTlbinvAsid v s
  | .tlbinvPage v => Sys2Proof.Machine.execTlbinvPage v s
  | .tlbInvalidationDone => Sys2Proof.Machine.execTlbInvalidationDone s
  | .granuleMigrationStart v => Sys2Proof.Machine.execGranuleMigrationStart v s
  | .migrationCopyComplete => Sys2Proof.Machine.execMigrationCopyComplete s
  | .migrationFlip => Sys2Proof.Machine.execMigrationFlip s
  | .migrationAbandon => Sys2Proof.Machine.execMigrationAbandon s
  | .rtsVerify => Sys2Proof.Machine.execRtsVerify s
  | .rtsExtend => Sys2Proof.Machine.execRtsExtend s
  | .rtsSwitch => Sys2Proof.Machine.execRtsSwitch s
  | .rtsRequestComplete => Sys2Proof.Machine.execRtsRequestComplete s
  | .contextCreate => Sys2Proof.Machine.execContextCreate s
  | .contextDestroy => Sys2Proof.Machine.execContextDestroy s
  | .contextDestructionComplete ctx => Sys2Proof.Machine.execContextDestructionComplete ctx s
  | .groupBind => Sys2Proof.Machine.execGroupBind s
  | .groupRebind => Sys2Proof.Machine.execGroupRebind s
  | .groupResume => Sys2Proof.Machine.execGroupResume s
  | .groupRelease => Sys2Proof.Machine.execGroupRelease s
  | .launchQueueAssign => Sys2Proof.Machine.execLaunchQueueAssign s
  | .trapReply => Sys2Proof.Machine.execTrapReply s
  | .vylumEnable k => Sys2Proof.Machine.execVylumEnable k s
  | .vylumRetrain k => Sys2Proof.Machine.execVylumRetrain k s
  | .vylumDisable k => Sys2Proof.Machine.execVylumDisable k s
  | .linkTrained k lanes gen peer plink => Sys2Proof.Machine.execLinkTrained k lanes gen peer plink s
  | .linkTrainingTimeout k => Sys2Proof.Machine.execLinkTrainingTimeout k s
  | .linkRetrainTimeout k => Sys2Proof.Machine.execLinkRetrainTimeout k s
  | .errorBurst k => Sys2Proof.Machine.execErrorBurst k s
  | .laneLockLoss k => Sys2Proof.Machine.execLaneLockLoss k s
  | .flitReceive k flit => Sys2Proof.Machine.execFlitReceive k flit s
  | .nakReceive k ack => Sys2Proof.Machine.execNakReceive k ack s
  | .peerRequestReceive k rq => Sys2Proof.Machine.execPeerRequestReceive k rq s
  | .portLinkStateChange port ltssm => Sys2Proof.Machine.execPortLinkStateChange port ltssm s
  | .pcieMemoryRequest rq => Sys2Proof.Machine.execPcieMemoryRequest rq s
  | .shedLost shed => Sys2Proof.Machine.execShedLost shed s
  | .packageReset => Sys2Proof.Machine.execPackageReset s
  | .spdmRequest index nonce => Sys2Proof.Machine.execSpdmRequest index nonce s
  | .registerWrite addr v rqk rqi size => Sys2Proof.Machine.execRegisterWrite addr v rqk rqi size s
  | .applicationCoreAccess rq => Sys2Proof.Machine.execApplicationCoreAccess rq s
  | .storeResolved p => Sys2Proof.Machine.execStoreResolved p s
  | .softError x fatal => Sys2Proof.Machine.execSoftError x fatal s
  | .walkerResume l => Sys2Proof.Machine.execWalkerResume l s
  | .serialisedReRun l => Sys2Proof.Machine.execSerialisedReRun l s
  | .phaseRollBack l => Sys2Proof.Machine.execPhaseRollBack l s
  | .launchAbort l code => Sys2Proof.Machine.execLaunchAbort l code s
  | .dvfs pnow mv => Sys2Proof.Machine.execDvfs pnow mv s

end Sys2Proof.Machine
end

