-- ==== Sys2Proof/Machine/Issue.lean ====
section
/-! DEFINITION. A cycle: what lands at its start, the issue of the streams (R31, R62-R65, R83), the events of its end, and the
passing of time. The dispatcher `exec` is a parameter. Each step of the machine is one event, the issue of one joined line, or
of one lane of a forked stream (DESIGN CHOICE, log 7). -/

namespace Sys2Proof.Machine

/-- The dispatcher's type. -/
abbrev Exec := Instr → State → Host.Outcome State Fault Refusal

/-- Goes on with the next state. -/
def andThen (o : Host.Outcome State Fault Refusal) (f : State → Host.Outcome State Fault Refusal) :
    Host.Outcome State Fault Refusal :=
  match o with
  | .next s => f s
  | .fault r => .fault r
  | .refused r => .refused r

/-! ### Stalls -/

/-- A wait for a result, which the result clock brings nearer in the freeze too (R108, R207). -/
def Core.fixedWait (c : Core) : Wait → Bool
  | .fixed => true
  | .sameLine r => c.pend.any (·.reg = r)
  | _ => false

/-- A stream does not proceed in this cycle: in joined mode the core is frozen (R20). -/
def State.stall (s : State) (p : Nat) (st : Stream) (w : Wait) : State :=
  let c := s.cr p
  let x := c.st (c.lead st)
  let c' := c.setSt (c.lead st) { x with wait := some w }
  s.setCr p (if c.forked then c' else { c' with stalled := some (st, w) })

/-- The stream of the held lane of a joined line. -/
def Core.heldStream (c : Core) : Stream :=
  match c.c.buf with
  | some v => (codeStream (laneCode v c.c.lane)).getD .c
  | none => .c

/-- What freezes a joined core, whether it would issue a line or not: a claim (R280), a row without its data (R186), the write buffer
(R229), later requests and turns of ports 0 and 1 (R12, R159), a locked line that an access of C meets (R16), further vector
instructions of a bundle (R207), a held lane's operand (R62). -/
def State.gate (s : State) (p : Nat) : Option (Stream × Wait) :=
  let c := s.cr p
  match c.matrix.claims, c.starved s.now with
  | x :: _, _ => some (x.stream, .memory)
  | [], some q => some (.k, .object 0 q)
  | [], none =>
    if s.bufferBlocked p then some (.d, .memory)
    else if s.now < c.portHold then some (.a, .memory)
    else if s.lockWait p then some (.c, .memory)
    else if c.rclk < c.vhold then some (.k, .fixed)
    else match c.heldLine, c.c.wait with
      | true, some (.sameLine r) => some (c.heldStream, .sameLine r)
      | _, _ => none

/-- The joined cores that are frozen from the start of the cycle (R20, R366). -/
def State.markStalls (s : State) : State :=
  { s with cores := s.cores.map fun x =>
      let c := x.2
      if c.forked || c.task.isNone || c.frozen || !c.stops.isEmpty then x
      else match s.gate x.1 with
        | some w => (x.1, { c with stalled := some w })
        | none => x }

/-- What makes a forked stream wait before its lane issues. -/
def State.gateForked (s : State) (p : Nat) (st : Stream) : Option Wait :=
  let c := s.cr p
  if c.matrix.claims.any (·.stream = st) then some .memory
  else match st with
    | .a => if s.now < c.portHold then some .memory else none
    | .k => (c.starved s.now).map fun q => .object 0 q
    | .d => if s.bufferBlocked p then some .memory else none
    | .c => if s.lockWait p then some .memory else none

/-! ### Ending a line -/

/-- The stream has executed the last lane of its line: the loop unit acts, or the line is left; then the TRAPs of the line are
reported. A stride whose register is pending makes the stream wait at the end of the line. -/
def endLine (p : Nat) (st : Stream) (s : State) : State :=
  let c := s.cr p
  let x := { c.st st with lane := 8, wait := none, wdog := 0 }
  let c := c.setSt st x
  let s := s.setCr p c
  if x.bp || x.ending.isEmpty then (s.leaveLine p st).softTraps p
  else match c.strideWait st with
    | none => ((loopEndEff s p st).getD s).softTraps p
    | some w =>
      let x := { x with wait := some w }
      s.setCr p (if c.forked then c.setSt st x
        else { c.setSt st x with heldLine := true, heldClk := if c.heldLine then c.heldClk else c.clk })

/-! ### Joined mode -/

/-- How the lanes of a joined line end. -/
inductive LineRun where
  | done (s : State)
  /-- Lane `k` reads a register that an earlier lane of the line produces; those before it have taken effect. -/
  | held (s : State) (k : Nat) (r : Reg)
  /-- A TRAP of the stream of lane `k`, which is its next instruction: the lanes before `k` have taken effect (R151). -/
  | soft (s : State) (k : Nat)
  | waits (st : Stream) (k : Nat) (w : Wait) (l : Option Lookup)
  | traps (s : State) (st : Stream) (k : Nat) (c : Cause) (info : DWord) (keep : List (Nat × Option Nat)) (log : Option LogRec)
  | stops (o : Host.Outcome State Fault Refusal)

/-- Executes lanes of a line in ascending order, up to the lane that follows a TRAP in its stream. -/
def runLanes (exec : Exec) (v : ILine) : List Nat → State → LineRun
  | [], s => .done s
  | k :: ks, s =>
    match codeStream (laneCode v k) with
    | none => runLanes exec v ks s
    | some st =>
      if (s.me.st st).swTrap.isSome then .soft s k
      else match laneDec v st k with
        | .ok i => match exec i { s with stream := st, laneNo := k } with
          | .next t => match t.lane with
            | .waiting (.sameLine r) _ => .held s k r
            | .waiting w l => .waits st k w l
            | .trapped c x kp lg => .traps s st k c x kp lg
            | _ => runLanes exec v ks t
          | o => .stops o
        | _ => runLanes exec v ks s

/-- The core as if the results of its line, those issued from clock `t0` on, stood in their registers; a load's value is unknown, and
the record of a BFXCFG too. -/
def Core.assumeLine (c : Core) (t0 : Nat) : Core :=
  let now := c.pend.filter (t0 ≤ ·.issued)
  let c := now.foldl (fun c e => c.land e.reg e.val) { c with pend := c.pend.filter (·.issued < t0) }
  { c with
    loads := c.loads.map fun l => if t0 ≤ l.issued then { l with dst := none } else l
    aloads := c.aloads.filter fun l => l.issued < t0 || (match l.kind with | .bfx .. => false | _ => true)
    amos := c.amos.map fun a => if t0 ≤ a.issued then { a with dst := none } else a }

/-- A lane that waits for memory or for the result of a load waited already before its line: not for what earlier lanes have done. -/
def waitsBefore (exec : Exec) (i : Instr) (st : Stream) (k : Nat) (s0 : State) : Bool :=
  match exec i { s0 with stream := st, laneNo := k } with
  | .next t => t.lane = .waiting .memory none
  | _ => false

/-- The first of the lanes that a line is to hold back which waits for an object, or for an operand that no lane of the line produces
(R62, R136): until none does, no lane takes effect. Lookups and exceptions belong to the lane's own part; the address of a group
barrier is not judged once it may depend on a load of the line. -/
def laterWait (exec : Exec) (v : ILine) (t0 : Nat) (s0 : State) :
    List Nat → State → Option (Stream × Nat × Wait × Option Lookup)
  | [], _ => none
  | k :: ks, s =>
    let unknown := s.me.loads.any (t0 ≤ ·.issued) || s.me.amos.any (t0 ≤ ·.issued)
    let s := s.setMe (s.me.assumeLine t0)
    match codeStream (laneCode v k) with
    | none => laterWait exec v t0 s0 ks s
    | some st => match laneDec v st k with
      | .ok i => match exec i { s with stream := st, laneNo := k } with
        | .next t => match t.lane with
          | .waiting (.sameLine _) _ | .waiting .memory (some _) | .trapped .. => laterWait exec v t0 s0 ks s
          | .waiting .memory none =>
            if waitsBefore exec i st k s0 then some (st, k, .memory, none) else laterWait exec v t0 s0 ks s
          | .waiting (.object 4 n) l =>
            if unknown then laterWait exec v t0 s0 ks s else some (st, k, .object 4 n, l)
          | .waiting w l => some (st, k, w, l)
          | _ => laterWait exec v t0 s0 ks t
        | _ => laterWait exec v t0 s0 ks s
      | _ => laterWait exec v t0 s0 ks s

/-- The tile-table lookups that the lanes of a line make, as if each had been made: the ports make them at once (R380; DESIGN CHOICE,
log 117). The first argument bounds their number. -/
def tileLookups (exec : Exec) (v : ILine) : Nat → List Nat → State → List (Nat × Nat)
  | 0, _, _ => []
  | _, [], _ => []
  | n + 1, k :: ks, s =>
    match codeStream (laneCode v k) with
    | none => tileLookups exec v n ks s
    | some st => match laneDec v st k with
      | .ok i => match exec i { s with stream := st, laneNo := k } with
        | .next t => match t.lane with
          | .waiting _ (some (.tile port ea)) =>
            let l := s.me.lookups
            (port, ea) :: tileLookups exec v n (k :: ks)
              (s.setMe { s.me with lookups := { l with tileDone := l.tileDone ++ [(port, ea)] } })
          | .waiting .. | .trapped .. => tileLookups exec v n ks s
          | _ => tileLookups exec v n ks t
        | _ => tileLookups exec v n ks s
      | _ => tileLookups exec v n ks s

/-- Begins the lookup of a waiting lane of a joined line, and with a tile-table lookup those of the whole line. -/
def State.beginLine (exec : Exec) (v : ILine) (ks : List Nat) (s0 s : State) : Option Lookup → State
  | some (.tile port ea) =>
    ((port, ea) :: tileLookups exec v 2048 ks s0).foldl (fun s x => s.begin (some (.tile x.1 x.2))) s
  | l => s.begin l

/-- The fetched line of a joined core issues from its lane (R62, R65, R83). A decode exception of any lane stops the whole
line: the record names the lane, and a yardmaster's `YTEPC` the line itself, no lane of which has taken effect (DEDUCED, log 123). A
lane that waits or raises an exception leaves the line as it was, but for the parts that had taken effect; so does a lane to be held
back that waits for an object. On a yardmaster the lanes before a faulting one have taken effect, since RTT goes on in the line from
the recorded lane (R154). -/
def issueLine (exec : Exec) (p : Nat) (v : ILine) (s : State) : Host.Outcome State Fault Refusal :=
  let s := { s with core := p, stream := .c, laneNo := 0 }
  let c := s.cr p
  match lineFault (isYard p) c.forked v with
  | some (k, st, e) => .next ({ s with stream := st, laneNo := if isYard p then c.c.lane else k }.laneTrap e 0 [] none)
  | none =>
    let s := s.setCr p { c with c := { c.c with wait := none } }
    let ks := lanes.filter (c.c.lane ≤ ·)
    let first := if c.heldLine then c.heldClk else c.clk
    let wait := fun (st : Stream) (k : Nat) (w : Wait) (l : Option Lookup) =>
      Host.Outcome.next ((({ s with stream := st, laneNo := k } : State).beginLine exec v ks s l).stall p st w)
    let part := fun (t : State) (k : Nat) (goOn : State) => match laterWait exec v first s (lanes.filter (k ≤ ·)) t with
      | some (st, k, w, l) => wait st k w l
      | none => .next goOn
    match runLanes exec v ks s with
    | .done t => .next (endLine p .c (t.setCr p { t.cr p with issued := 0xF }))
    | .held t k r =>
      let d := t.cr p
      part t k (t.setCr p { d with
        c := { d.c with lane := k, wait := some (.sameLine r) }, heldLine := true, heldClk := first, issued := 0xF })
    | .soft t k =>
      let d := t.cr p
      part t k ((t.setCr p { d with
        c := { d.c with lane := k }, heldLine := true, heldClk := first, issued := 0xF }).softTrapsAt p fun st =>
          ((ownLanes v st).find? (k ≤ ·)).map (t.position p st))
    | .waits st k w l => wait st k w l
    | .traps t st k e x kp lg =>
      let s0 := if isYard p then t else s
      let pops := fun (s : State) (q : Nat) => ((s.cr p).queues.getD q {}).pops
      .next ({ s0 with stream := st, laneNo := k }.laneTrap e x kp lg fun q => pops t q - pops s0 q)
    | .stops o => o

/-- A joined core's turn to issue. -/
def issueJoined (exec : Exec) (p : Nat) (s : State) : Host.Outcome State Fault Refusal :=
  let c := s.cr p
  if c.clk < c.hold then .next s
  else match s.gate p with
    | some (st, w) => .next (s.stall p st w)
    | none =>
      if c.c.lane = 8 then
        match (if c.c.bp then none else c.strideWait .c) with
        | some w => .next (s.stall p .c w)
        | none => .next (endLine p .c s)
      else match c.c.buf with
        | some v => issueLine exec p v s
        | none =>
          let t := (fetchEff s p .c).getD s
          match (t.cr p).c.buf, t.lane with
          | some v, _ => issueLine exec p v t
          | none, .waiting w _ => .next (t.stall p .c w)
          | none, _ => .next t

/-! ### Forked mode -/

/-- Lane `k` of a forked stream issues; `rest` are its later lanes of the line. At a JOIN the stream stays (R131). -/
def issueLane (exec : Exec) (p : Nat) (st : Stream) (v : ILine) (k : Nat) (rest : List Nat) (s : State) :
    Host.Outcome State Fault Refusal :=
  let s := { s with core := p, stream := st, laneNo := k }
  let c := s.cr p
  let s := s.setCr p (c.setSt st { c.st st with lane := k, wait := none })
  match laneFault (isYard p) c.forked v st k, laneDec v st k with
  | some e, _ => .next (s.laneTrap e 0 [] none)
  | none, .ok i =>
    andThen (exec i s) fun t => match t.lane with
      | .waiting w _ => .next (t.stall p st w)
      | .trapped _ _ _ _ => .next t
      | _ =>
        let d := t.cr p
        let d := { d with issued := d.issued ||| (1#4 <<< streamNo st) }
        match (if (d.st st).jn.isSome then [k] else rest) with
        | [] => .next (endLine p st (t.setCr p d))
        | j :: _ => .next ((t.setCr p (d.setSt st { d.st st with lane := j, wdog := 0 })).softTraps p)
  | none, _ => .next s

/-- A line that a forked stream has fetched: its next lane issues, or the stream passes over it (R63). -/
def issueOwn (exec : Exec) (p : Nat) (st : Stream) (v : ILine) (s : State) : Host.Outcome State Fault Refusal :=
  match (ownLanes v st).filter (((s.cr p).st st).lane ≤ ·) with
  | k :: rest => issueLane exec p st v k rest s
  | [] =>
    let t := (passEff s p st).getD s
    .next (endLine p st (t.setCr p { t.cr p with issued := (t.cr p).issued ||| (1#4 <<< streamNo st) }))

/-- A forked stream's turn to issue. -/
def issueForked (exec : Exec) (p : Nat) (st : Stream) (s : State) : Host.Outcome State Fault Refusal :=
  let c := s.cr p
  let x := c.st st
  match s.gateForked p st with
  | some w => .next (s.stall p st w)
  | none =>
    if x.lane = 8 then .next (endLine p st s)
    else match x.buf with
      | some v => issueOwn exec p st v s
      | none =>
        let t := (fetchEff s p st).getD s
        match ((t.cr p).st st).buf, t.lane with
        | some v, _ => issueOwn exec p st v t
        | none, .waiting w _ => .next (t.stall p st w)
        | none, _ => .next t

/-! ### The turn of the streams -/

/-- The streams of a core that have not had their turn, from a place in the order. -/
def State.canIssue (s : State) (p : Nat) (st : Stream) : Bool := s.runs p st && !(s.cr p).issued.getLsbD (streamNo st)

/-- The place after a core's stream. -/
def nextPlace (p : Nat) (st : Stream) : Turn :=
  match st with
  | .c => .issue p .a
  | .a => .issue p .k
  | .k => .issue p .d
  | .d => .issue (p + 1) .c

/-- The first stream at or after a place, in the order of the cores and C, A, K, D, that issues in this cycle. -/
def State.nextIssue (s : State) (p : Nat) (st : Stream) : Option (Nat × Stream) :=
  match allStreams.find? fun u => streamNo st ≤ streamNo u && s.canIssue p u with
  | some u => some (p, u)
  | none => s.cores.findSome? fun x =>
    if x.1 ≤ p then none else (allStreams.find? (s.canIssue x.1)).map fun u => (x.1, u)

/-- A stream's turn. -/
def issue (exec : Exec) (p : Nat) (st : Stream) (s : State) : Host.Outcome State Fault Refusal :=
  let s := { s with turn := nextPlace p st }
  if (s.cr p).forked then issueForked exec p st s else issueJoined exec p s

/-! ### The service of port 3 (R11) -/

/-- A class of the round asks for a turn of a core's port 3: the matrix engine's, or one whose requests have come. -/
def State.asksPort3 (s : State) (p k : Nat) : Bool :=
  if k = 4 then (s.matrixTurn p).isSome else (s.cr p).port3Q.any fun r => r.cls = k && r.since ≤ s.now

/-- The last turn of a request has been served: its owner goes on. -/
def State.servedPort3 (s : State) (r : PortReq) : State :=
  let due := fun (d : Nat) => max d (s.now + r.lat)
  match r.owner with
  | .load p n =>
    let c := s.cr p
    s.setCr p { c with loads := c.loads.map fun l => if l.seq = n then { l with due := due l.due } else l }
  | .aload p n =>
    let c := s.cr p
    s.setCr p { c with aloads := c.aloads.map fun l => if l.id = n then { l with due := due l.due } else l }
  | .store p n =>
    let c := s.cr p
    s.setCr p { c with
      stores := c.stores.map fun x => if x.seq = n then { x with served := true } else x
      amos := c.amos.map fun x => if x.seq = n then { x with served := true } else x }
  | .wline p n lay blk line =>
    let c := s.cr p
    let mine := fun (l : WLine) => l.seq = n && l.lay = lay && l.blk = blk && l.line = line
    let serve := fun (l : WLine) => if mine l then { l with served := true } else l
    s.setCr p { c with drain := { c.drain with
      buf := c.drain.buf.map serve, away := c.drain.away.map fun x => (x.1, serve x.2) } }
  | .cmd n => { s with engines := s.engines.map fun x => if x.id = n then { x with served := true } else x }
  | .outside _ | .peer _ => { s with served := s.served ++ [r.owner] }

/-- A turn of a core's port 3: the first class in the round that asks moves one line, in arrival order within the class. -/
def port3Eff (s : State) (p : Nat) : Option State :=
  let c := s.cr p
  if s.now < c.port3Busy then none
  else (((List.range 7).map fun i => (c.port3 + i) % 7).find? (s.asksPort3 p)).bind fun k =>
    let next := fun (c : Core) => { c with port3 := (k + 1) % 7, port3Busy := s.now + 1 }
    if k = 4 then (s.matrixTurn p).map fun t => (s.setCr p (next c)).matrixServe p t
    else (c.port3Q.find? fun r => r.cls = k && r.since ≤ s.now).map fun r =>
      if 1 < r.lines then
        s.setCr p (next { c with port3Q := c.port3Q.map fun x => if x = r then { x with lines := x.lines - 1 } else x })
      else (s.setCr p (next { c with port3Q := c.port3Q.erase r })).servedPort3 r

/-! ### The events of a cycle -/

/-- The first of a row of events that may take place. -/
def firstOf {α : Type} (xs : List α) (f : α → Option State) : Option State := xs.findSome? f

/-- An entry of the opcode table that has no encoding: a step of the device. -/
def isEvent (i : Instr) : Bool := (encode i).isEmpty

/-- What lands at a core at the start of a cycle: results, replies and arrivals (R108, R207, R329). -/
def State.arrivals (s : State) (p : Nat) : Option State :=
  s.performAgain p <|>
  resultEff s p true <|>
  resultEff s p false <|>
  loadReplyEff s p <|>
  amoEff s p <|>
  firstOf (List.range 14) (fun q => tldEff s p q) <|>
  planeEff s p <|>
  bfxEff s p <|>
  firstOf (List.range 4) (fun n => tileEff s p n) <|>
  walkEff s p <|>
  pollEff s p <|>
  barrierEff s p <|>
  storeEff s p <|>
  heldEff s p

/-- The first of the acts that no row of the table names takes effect once it is due (log 15). -/
def State.actDue (s : State) : Option State :=
  match s.acts with
  | (t, a) :: rest => if t ≤ s.now then some ({ s with acts := rest }.act a) else none
  | [] => none

/-- The events at the start of a cycle, the walkers' and the yardmasters' among them (R27, R30, R153, R351). -/
def State.nextStart (s : State) : Option State :=
  let taker := match s.launches.find? (·.st = .accepting) with
    | some l => some l.queue
    | none => s.nextQueue
  s.actDue <|>
  firstOf s.launches (fun l => slipEff s l.id) <|>
  firstOf s.lqs (fun x => rereadEff s x.1) <|>
  taker.bind (fun q => takeEff s q) <|>
  firstOf s.launches (fun l => startEff s l.id) <|>
  firstOf s.cores (fun x => if s.coreLost x.1 && !isYard x.1 then none else s.arrivals x.1) <|>
  firstOf (List.range 16) (fun k => (s.link k).incoming.head?.bind (peerEff s k)) <|>
  firstOf [0, 1] (fun y => interruptEff s y)

/-- The events of a core at the end of a cycle: its array and claims, the drain unit, and the dispatch of engine commands. -/
def State.coreEvents (s : State) (p : Nat) : Option State :=
  rampEff s p <|>
  hintEff s p <|>
  coldEff s p <|>
  claimEff s p <|>
  drainReadEff s p <|>
  rowEntryEff s p <|>
  flipEff s p <|>
  spillEff s p <|>
  bindStartEff s p <|>
  bindRowEff s p <|>
  rowAddEff s p <|>
  zeroEff s p <|>
  drainDeliveryEff s p <|>
  lineWriteEff s p <|>
  remoteLineEff s p <|>
  firstOf [Stream.a, .d] (fun st => dispatchEff s p st)

/-- The deferred effects of a core in the order C, A, K, D, then its join (R136, R337). -/
def State.syncEvents (s : State) (p : Nat) : Option State :=
  firstOf allStreams (fun st => deferredEff s p st) <|> joinEff s p

/-- The completions of a core that follow the engines: markers, rendezvous, commit and the watchdogs. -/
def State.coreEnds (s : State) (p : Nat) : Option State :=
  firstOf [Engine.a, .k, .d, .shunter, .codec] (fun e => markerEff s p e) <|>
  firstOf (List.range 8) (fun z => rendezvousEff s p z) <|>
  taskCommitEff s p <|>
  freezeDogEff s p <|>
  firstOf allStreams (fun st => waitDogEff s p st)

/-- The engines' reads and writes (R170). -/
def State.engineEvents (s : State) : Option State :=
  firstOf s.engines (fun x =>
    gatherEff s x.id <|>
    scatterEff s x.id <|>
    xferEff s x.id <|>
    stashEff s x.id <|>
    restoreEff s x.id <|>
    reduceEff s x.id)

/-- The shunters and the round units (R258-R262, R270), and the engines' increments (R171). -/
def State.shunterEvents (s : State) : Option State :=
  firstOf (List.range 16) (fun n =>
    rollbackEff s n <|>
    backLostEff s n <|>
    backSwapEff s n <|>
    backDoneEff s n <|>
    lineSwapEff s n <|>
    commitEff s n <|>
    grantEff s n <|>
    xchgStartEff s n .xchgP <|>
    xchgStartEff s n .xchgD <|>
    serviceXchgEff s n 0 <|>
    serviceXchgEff s n 1) <|>
  firstOf (List.range s.rounds.length) (fun i => roundEff s i) <|>
  firstOf s.engines (fun x => completionEff s x.id)

/-- The package: traps, pages, the root of trust, the mailbox, links, waiting outside accesses, queues. -/
def State.packageEvents (s : State) : Option State :=
  placeEff s <|>
  firstOf (List.range 8) (fun n => if s.lostReport.getLsbD n then shedLostEff s n else none) <|>
  tableErrorEff s <|>
  tileFaultEff s <|>
  invDoneEff s <|>
  (if s.migration.busy && s.targetLost s.migration.base then abandonEff s else none) <|>
  copyDoneEff s <|>
  flipGranuleEff s <|>
  verifyEff s <|>
  extendEff s <|>
  switchEff s <|>
  rtsCompleteEff s <|>
  mailEff s 1 createCtx <|>
  mailEff s 2 destroyCtx <|>
  mailEff s 3 bindGroup <|>
  mailEff s 4 rebindGroup <|>
  mailEff s 5 resumeGroup <|>
  mailEff s 6 releaseGroup <|>
  mailEff s 7 assignQueue <|>
  mailEff s 8 replyTo <|>
  firstOf s.ctxs (fun x => destroyedEff s x.1) <|>
  firstOf (List.range 16) (fun k =>
    burstEff s k <|>
    trainTimeoutEff s k <|>
    retrainTimeoutEff s k) <|>
  firstOf (sortBy (·.rq.requester) s.ioWait) (fun x => if !x.pcie && s.plovelm.appReset then none else s.ioStep x) <|>
  firstOf (List.range 64) (fun q => agingEff s q) <|>
  firstOf [0, 1] (fun y => heartbeatLimitEff s y)

/-- The launch pushes of a yardmaster take place (R333). -/
def pushEff (s : State) (p : Nat) : Option State :=
  ((s.cr p).stores.filter fun x => x.due ≤ s.now && (ctlReg x.pa).any CtlReg.launches).findSome? (s.storeStep p)

/-- Reads of a near store that its port 3 has served in this cycle, for the I/O dies and peers: they see nothing that the cycle writes
(R13). -/
def State.guestReads (s : State) : Option State :=
  firstOf s.ioWait (fun x => if s.served.contains (.outside x.id) && x.rq.kind = .load then s.ioStep x else none) <|>
  firstOf (List.range 16) (fun k => match (s.link k).incoming.head? with
    | some rq => if s.served.contains (.peer k) && rq.op = .read then peerEff s k rq else none
    | none => none)

/-- The next event of the end of a cycle. What pushes have raised in `YIP` follows the instructions of the cycle (R152). The launch
pushes of the yardmasters come first, those of application cores last (R333); the reads of a cycle come before its writes (R13), and
its writes before the effects that release them (R136, R337). -/
def State.nextEvent (s : State) : Option State :=
  let here := s.cores.filter fun (x : Nat × Core) => isYard x.1 || !s.coreLost x.1
  (if s.yipUp = 0 then none else some s.applyYip) <|>
  firstOf [512, 513] (fun p => pushEff s p) <|>
  firstOf here (fun x => s.coreEvents x.1) <|>
  s.engineEvents <|>
  firstOf here (fun x => port3Eff s x.1) <|>
  s.guestReads <|>
  (if s.writes.isEmpty then none else some s.applyWrites) <|>
  firstOf here (fun x => s.syncEvents x.1) <|>
  firstOf here (fun x => s.giveHeld x.1) <|>
  s.shunterEvents <|>
  firstOf here (fun x => s.coreEnds x.1) <|>
  s.packageEvents

/-! ### The passing of a cycle -/

/-- A stream's wait watchdog at the end of a cycle (R32): the consecutive cycles of a wait that counts. -/
def State.dogTick (s : State) (p : Nat) (c : Core) (st : Stream) : StreamState :=
  let x := c.st st
  if c.frozen || x.hlt || (!c.forked && !c.stops.isEmpty) || s.awaitsReply p then x
  else { x with wdog := if (s.countedWait p st).isSome then x.wdog + 1 else 0 }

/-- A joined core has met in this cycle, after its issue, what freezes it: the cycle does not count for its clock (R20, R186, R280). -/
def State.lateFreeze (s : State) (p : Nat) (c : Core) : Bool :=
  !c.forked && (!c.matrix.claims.isEmpty || (c.starved s.now).isSome || s.bufferBlocked p || (s.headTurn p).isSome)

/-- A core at the end of a cycle. Its clock stands in a freeze; the result clock goes on in one that waits for results, or for the
further instructions of a bundle. -/
def State.coreTick (s : State) (p : Nat) (c : Core) : Core :=
  let late := s.lateFreeze p c
  let ran : Bool := (c.clocked || c.issued ≠ 0) && !late
  let forResult := match c.stalled with
    | some (_, w) => c.fixedWait w || (c.rclk < c.vhold && s.now < c.portHold)
    | none => false
  let m := c.matrix
  let c := { c with c := s.dogTick p c .c, a := s.dogTick p c .a, k := s.dogTick p c .k, d := s.dogTick p c .d }
  let d : Core := { c with
    clk := if ran then c.clk + 1 else c.clk
    hold := if c.issued ≠ 0 && !ran && !c.forked then c.clk + 1 else c.hold
    rclk := if ran || (!c.frozen && !c.forked && c.stops.isEmpty && forResult) then c.rclk + 1 else c.rclk
    freezeDog := if c.frozen || !c.stops.isEmpty || s.awaitsReply p then c.freezeDog
      else if c.stalled.isSome || late then c.freezeDog + 1 else 0
    regs := { c.regs with tcycle := if c.task.isSome then c.regs.tcycle + 1 else c.regs.tcycle }
    queues := c.queues.map fun q => { q with pops := 0 }
    matrix := { m with
      idle := if !ran then m.idle else if c.clk < m.busyTo then 0 else m.idle + 1
      landed := if ran then [] else m.landed }
    -- The requests of a line's later parts go on from the port of the earlier ones (R159).
    aReqs := if c.heldLine then c.aReqs % 2 else 0
    issued := 0, stalled := none, thawed := false }
  (List.range 14).foldl (fun d q => d.unhold s.now q) d.dropFences

/-- A cycle ends: the cores' clocks, the yardmasters' heartbeat counts, the ages of the launch queues and the links go on, and
the cores that a FREEZE has asked to stop stop (R155). -/
def State.tick (s : State) : State :=
  let beat := fun (y : Yard) => if y.inReset then y else { y with hb := y.hb + 1 }
  let asked := (s.cores.filter fun x => x.2.freezeAsk && !x.2.freezeHeld).map (·.1)
  let t : State := { s with
    now := s.now + 1, turn := .start, lane := .idle
    cores := s.cores.map fun x => (x.1, s.coreTick x.1 x.2)
    yard0 := beat s.yard0, yard1 := beat s.yard1
    lqs := s.lqs.map fun x => (x.1, if x.2.st = .opened && !x.2.recs.isEmpty then { x.2 with aged := x.2.aged + 1 } else x.2)
    links := s.links.map VLink.send }
  asked.foldl State.freezeCore t

/-- An input that is due, and those that stay. -/
def State.input (s : State) : Option (Instr × State) :=
  match s.inputs with
  | (t, i) :: rest => if t ≤ s.now then some (i, { s with inputs := rest }) else none
  | [] => none

/-- One step of the package. -/
def stepWith (exec : Exec) (s : State) : Host.Outcome State Fault Refusal :=
  match s.turn with
  | .start => match s.input with
    | some (i, t) => if isEvent i then exec i t else .next t
    | none => match s.nextStart with
      | some t => .next t
      -- The ports of the near stores read what the earlier cycles have written (R13).
      | none => .next { (s.cores.foldl (fun s x => s.portReads x.1) s).markStalls with turn := .issue 0 .c }
  | .issue p st => match s.nextIssue p st with
    | some (q, u) => issue exec q u s
    | none => .next { s with turn := .events }
  | .events => match s.nextEvent with
    | some t => .next t
    | none => .next s.tick

end Sys2Proof.Machine
end

