-- ==== Sys2Proof/Machine/Place.lean ====
section
/-! DEFINITION. Placing one instruction where the next step fetches it (DESIGN CHOICE, log 8). -/

namespace Sys2Proof.Machine

/-- The stream whose decoder `decodeTableWord` takes for a word. -/
def tableStream (w : Nat) : Stream :=
  let bytes := (List.range 8).map fun k => BitVec.ofNat 8 (w / 256 ^ k)
  let reads := fun (st : Stream) => match decodeBytes st bytes with | .ok _ => true | _ => false
  (allStreams.find? reads).getD .c

/-- The code of a stream's lane (R59). -/
def streamCode (st : Stream) : Nat := streamNo st + 1

/-- A line that holds one instruction in lane 1, and its second word in lane 2 (R58, R59). -/
def lineOne (st : Stream) (w : Nat) : ILine :=
  let w0 := w % 2 ^ 32
  let long := isLong st (w0 / 2 ^ 25)
  BitVec.ofNat 256 (streamCode st + (if long then 0x80 else 0) + w0 * 2 ^ 32 + (if long then w / 2 ^ 32 % 2 ^ 32 * 2 ^ 64 else 0))

/-- An instruction that only a yardmaster runs (R68, R109). -/
def yardOnly : Instr → Bool
  | .rtt .. | .wfi .. | .halt .. | .freeze .. | .thaw .. | .snapr .. | .snapw .. => true
  | .csrr _ _ n | .csrw _ _ _ n | .csrs _ _ _ n | .csrc _ _ _ n => 0x800 ≤ n.toNat
  | _ => false

/-- An instruction that its stream issues in forked mode only (R68). -/
def forkedOnly (st : Stream) : Instr → Bool
  | .join .. => true
  | .jmp .. | .bqz .. | .bqnz .. | .loop .. => st ≠ .c
  | _ => false

/-- The page that holds the line: virtual page 0 of the task at the first page of the yard of shed 0, with every permission
(R375). -/
def placePage (asid : Nat) : TlbEntry := ⟨asid, 0, 0, BitVec.ofNat 64 (Config.yardBase / 4096 * 1024 + 0xDF)⟩

/-- Core 0 stands at the line with a task, or yardmaster 0 with its firmware, and nothing holds back its issue. -/
def State.placeAt (s : State) (yard forked : Bool) (st : Stream) : State :=
  let p := if yard then 512 else 0
  let c := s.cr p
  let asid := match s.ctx? 0 with | some x => x.asid | none => 0
  let l := c.lookups
  let x : StreamState := { line := if yard then BitVec.ofNat 64 Config.yardBase else 0 }
  let c := { c with
    task := if yard then none else some {}, c := x, a := x, k := x, d := x, forked := forked
    forkMask := if forked then 7 else 0
    heldLine := false, freezeHeld := false, thawed := false, stops := [], hold := c.clk, vhold := 0, portHold := 0
    stalled := none, issued := 0, fenceI := 0, loads := [], stores := [], amos := [], gbArrives := []
    matrix := { c.matrix with queue := [], claims := [] }, drain := { c.drain with buf := [] }
    lookups := { l with tlb := [placePage asid], icache := l.icache.filter (·.1 ≠ Config.yardBase) } }
  { s.setCr p c with
    turn := .issue p (if forked then st else .c), lost := 0, peerWindows := .replicate 64 (0, 0)
    yard0 := if yard then { s.yard0 with inReset := false, halted := false } else s.yard0 }

/-- The state with an instruction placed. -/
def State.placeWord (s : State) (nbits w : Nat) : State :=
  let st := tableStream w
  let i := (decodeTableWord nbits w).getD .nop
  let s := s.placeAt (yardOnly i) (forkedOnly st i) st
  let s := s.writeBytes Config.yardBase (valBytes 32 (lineOne st w).toNat)
  { s with poison := s.poison.filter (· ≠ Config.yardBase / 256) }

end Sys2Proof.Machine
end

