-- ==== Sys2Proof/Machine/Step.lean ====
section
/-! DEFINITION. One step of the machine, and the placing of an instruction where the next step fetches (DESIGN CHOICE, log 8). -/

namespace Sys2Proof.Machine

/-- One step (DESIGN CHOICE, log 7): an input that is due, an event, a stream's turn to issue, or the end of the cycle. -/
def step (s : State) : Host.Outcome State Fault Refusal := stepWith exec s

/-- `s` with the instruction of bits `w` where the next step fetches it: core 0, or yardmaster 0 for its own instructions, at
its turn to issue at that line. -/
def State.withFetchWord (s : State) (nbits w : Nat) : State := s.placeWord nbits w

end Sys2Proof.Machine
end

