-- ==== Sys2Proof/Safety.lean ====
section
/-! DEFINITION. What a safe run is: the machine never stops with a fault or a refusal (no rule of the spec stops it: an
instruction that may not run takes its exception), and memory keeps its canonical form. -/

namespace Sys2Proof

/-- An outcome that goes on: a next state, not a fault and not a refusal. -/
def GoesOn {σ φ ρ : Type} (o : Host.Outcome σ φ ρ) : Prop := ∃ s, o = .next s

/-- Memory is in canonical form: addresses strictly rise, and no listed byte is what an unlisted one reads as. -/
def MemOk (s : Machine.State) : Prop := Machine.Mem.wf s.mem = true

/-- A safe state: memory is canonical and the machine goes on from it. -/
def Safe (s : Machine.State) : Prop := MemOk s ∧ GoesOn (Machine.step s)

end Sys2Proof
end

