-- ==== Sys2Proof/Certificates/Slice0/Obligations.lean ====
section
/-! DEFINITION. The statements for the provers, by family of the opcode table, and the terms they are written in. A statement
about an instruction's result says that `exec` answers a next state and which. -/

/-- Instruction `i`, acting in `s`, completes: the next state is `t`, its lane done. -/
def Sys2Proof.Claims.Does (i : Sys2Proof.Instr) (s t : Sys2Proof.Machine.State) : Prop :=
  Sys2Proof.Machine.exec i s = .next { t with lane := .done }

/-- Instruction `i` with qualifier `w` may run for the acting stream (R59, R61, R68), and IQ lets it issue (R69). -/
abbrev Sys2Proof.Claims.Can (i : Sys2Proof.Instr) (w : BitVec 2) (s : Sys2Proof.Machine.State) : Prop :=
  s.refusal i = none ∧ s.issues w = true

/-- Register `r` of the acting core can be read: nothing is pending for it (R108, R207). -/
abbrev Sys2Proof.Claims.Free (s : Sys2Proof.Machine.State) (r : Sys2Proof.Machine.Reg) : Prop := s.me.regWait r = none

/-- The device step `i` takes place in `s`: the next state is `t`. -/
def Sys2Proof.Claims.Happens (i : Sys2Proof.Instr) (s t : Sys2Proof.Machine.State) : Prop := Sys2Proof.Machine.exec i s = .next t

/-- Every core but `p` is as before. -/
def Sys2Proof.Claims.OtherCores (s t : Sys2Proof.Machine.State) (p : Nat) : Prop := ∀ q, q ≠ p → t.cr q = s.cr q

/-- Every core but `p` is as before, up to the requests that wait for port 3 of its near store (R11). -/
def Sys2Proof.Claims.OtherCoresButPort3 (s t : Sys2Proof.Machine.State) (p : Nat) : Prop :=
  ∀ q, q ≠ p → t.cr q = { s.cr q with port3Q := (t.cr q).port3Q }

open Sys2Proof Sys2Proof.Machine Sys2Proof.Claims



/-! ### The ALU -/

/-- Sign and zero extension of an immediate by arithmetic. -/
def Sys2Proof.Claims.signed (imm : BitVec 13) : DWord := BitVec.ofInt 64 imm.toInt

/-- BEXT (R111): bits [p + n - 1 : p] of A, where p = B[5:0] and n = B[12:6]. -/
def Sys2Proof.Claims.extract (a b : DWord) : DWord := BitVec.ofNat 64 (a.toNat / 2 ^ (b.toNat % 64) % 2 ^ (b.toNat / 64 % 128))

/-- The number of one bits of the low `n` bits. -/
def Sys2Proof.Claims.onesBelow (a : DWord) : Nat → Nat
  | 0 => 0
  | n + 1 => (a.getLsbD n).toNat + Sys2Proof.Claims.onesBelow a n

/-- Leading zeros among the low `n` bits, from bit `n - 1` down. -/
def Sys2Proof.Claims.zerosBelow (a : DWord) : Nat → Nat
  | 0 => 0
  | n + 1 => if a.getLsbD n then 0 else 1 + Sys2Proof.Claims.zerosBelow a n

/-- Trailing zeros from bit `64 - n` up. -/
def Sys2Proof.Claims.zerosFrom (a : DWord) : Nat → Nat
  | 0 => 0
  | n + 1 => if a.getLsbD (63 - n) then 0 else 1 + Sys2Proof.Claims.zerosFrom a n

/-- The two-register operations of R111: the instruction, its ready time (R108) and its result by integer arithmetic. -/
def Sys2Proof.Claims.aluOps : List ((BitVec 2 → BitVec 5 → BitVec 5 → BitVec 5 → Instr) × Nat × (DWord → DWord → DWord)) := [
  (.add, 0, fun a b => BitVec.ofInt 64 (a.toInt + b.toInt)),
  (.sub, 0, fun a b => BitVec.ofInt 64 (a.toInt - b.toInt)),
  (.mul, 3, fun a b => BitVec.ofInt 64 (a.toInt * b.toInt)),
  (.mulh, 3, fun a b => BitVec.ofInt 64 (a.toInt * b.toInt / 2 ^ 64)),
  (.mulhu, 3, fun a b => BitVec.ofNat 64 (a.toNat * b.toNat / 2 ^ 64)),
  (.div, 20, fun a b => BitVec.ofInt 64 (if b = 0 then -1 else a.toInt.tdiv b.toInt)),
  (.divu, 20, fun a b => if b = 0 then BitVec.ofInt 64 (-1) else BitVec.ofNat 64 (a.toNat / b.toNat)),
  (.rem, 20, fun a b => BitVec.ofInt 64 (if b = 0 then a.toInt else a.toInt.tmod b.toInt)),
  (.remu, 20, fun a b => BitVec.ofNat 64 (if b = 0 then a.toNat else a.toNat % b.toNat)),
  (.and_, 0, fun a b => a &&& b),
  (.or_, 0, fun a b => a ||| b),
  (.xor_, 0, fun a b => a ^^^ b),
  (.andn, 0, fun a b => a &&& (BitVec.allOnes 64 ^^^ b)),
  (.shl, 0, fun a b => BitVec.ofNat 64 (a.toNat * 2 ^ (b.toNat % 64))),
  (.shr, 0, fun a b => BitVec.ofNat 64 (a.toNat / 2 ^ (b.toNat % 64))),
  (.sar, 0, fun a b => BitVec.ofInt 64 (a.toInt / 2 ^ (b.toNat % 64))),
  (.rol, 0, fun a b => BitVec.ofNat 64 (a.toNat * 2 ^ (b.toNat % 64) + a.toNat / 2 ^ (64 - b.toNat % 64))),
  (.min_, 0, fun a b => BitVec.ofInt 64 (min a.toInt b.toInt)),
  (.max_, 0, fun a b => BitVec.ofInt 64 (max a.toInt b.toInt)),
  (.minu, 0, fun a b => BitVec.ofNat 64 (min a.toNat b.toNat)),
  (.maxu, 0, fun a b => BitVec.ofNat 64 (max a.toNat b.toNat)),
  (.slt, 0, fun a b => if a.toInt < b.toInt then 1 else 0),
  (.sltu, 0, fun a b => if a.toNat < b.toNat then 1 else 0),
  (.seq, 0, fun a b => if a.toNat = b.toNat then 1 else 0),
  (.bext, 0, extract)]

/-- The state after a result for s[d] that is ready `lat` cycles later; at once for 0. -/
def Sys2Proof.Claims.gave (s : State) (d : BitVec 5) (v : DWord) (lat : Nat) : State :=
  if lat = 0 then s.setMe ((s.me.kill (.s d)).putS d v)
  else if d = 0 then s
  else s.setMe (s.me.later (.s d) (v.setWidth 2048) s.me.rclk lat)

/-- R112: the results of R111's table with the ready times of R108, divisions by zero and of -2^63 by -1 among them; no ALU operation
raises an execution exception. -/
def Obligations.AluRegister : Prop :=
  (∀ x ∈ aluOps, ∀ (w : BitVec 2) (d a b : BitVec 5) (s : State),
    Can (x.1 w d a b) w s → Free s (.s a) → Free s (.s b) →
      Does (x.1 w d a b) s (gave s d (x.2.2 (s.me.getS a) (s.me.getS b)) x.2.1)) ∧
  (∀ (w : BitVec 2) (d a b : BitVec 5) (s : State), Free s (.s a) → Free s (.s b) →
    (s.me.getS b = 0 →
      (Can (.div w d a b) w s → Does (.div w d a b) s (gave s d 0xFFFFFFFFFFFFFFFF 20)) ∧
      (Can (.divu w d a b) w s → Does (.divu w d a b) s (gave s d 0xFFFFFFFFFFFFFFFF 20)) ∧
      (Can (.rem w d a b) w s → Does (.rem w d a b) s (gave s d (s.me.getS a) 20)) ∧
      (Can (.remu w d a b) w s → Does (.remu w d a b) s (gave s d (s.me.getS a) 20))) ∧
    (s.me.getS a = 0x8000000000000000 → s.me.getS b = 0xFFFFFFFFFFFFFFFF →
      (Can (.div w d a b) w s → Does (.div w d a b) s (gave s d 0x8000000000000000 20)) ∧
      (Can (.rem w d a b) w s → Does (.rem w d a b) s (gave s d 0 20)))) ∧
  ∀ (i : Instr) (s t : State), i.wf .c = true → 1 ≤ major ((encode i).headD 0) → major ((encode i).headD 0) ≤ 0x0B →
    s.refusal i = none → exec i s = .next t → ∀ c x keep log, t.lane ≠ .trapped c x keep log

/-- The immediate operations of R113 with a 13-bit signed immediate. -/
def Sys2Proof.Claims.immOps : List ((BitVec 2 → BitVec 5 → BitVec 5 → BitVec 13 → Instr) × (DWord → BitVec 13 → DWord)) := [
  (.addi, fun a k => BitVec.ofInt 64 (a.toInt + k.toInt)),
  (.andi, fun a k => a &&& signed k),
  (.ori, fun a k => a ||| signed k),
  (.xori, fun a k => a ^^^ signed k),
  (.slti, fun a k => if a.toInt < k.toInt then 1 else 0),
  (.sltiu, fun a k => if a.toNat < (signed k).toNat then 1 else 0)]

/-- The shifts of R113. -/
def Sys2Proof.Claims.shiftOps : List ((BitVec 2 → BitVec 5 → BitVec 5 → BitVec 6 → Instr) × (DWord → BitVec 6 → DWord)) := [
  (.shli, fun a k => BitVec.ofNat 64 (a.toNat * 2 ^ k.toNat)),
  (.shri, fun a k => BitVec.ofNat 64 (a.toNat / 2 ^ k.toNat)),
  (.sari, fun a k => BitVec.ofInt 64 (a.toInt / 2 ^ k.toNat))]

/-- The one-register operations of R111. -/
def Sys2Proof.Claims.countOps : List ((BitVec 2 → BitVec 5 → BitVec 5 → Instr) × (DWord → Nat)) := [
  (.clz, fun a => zerosBelow a 64),
  (.ctz, fun a => zerosFrom a 64),
  (.popc, fun a => onesBelow a 64)]

/-- R111, R113, R114: LI's 18-bit value has `hi` above `imm`. -/
def Obligations.AluImmediate : Prop :=
  (∀ x ∈ immOps, ∀ (w : BitVec 2) (d a : BitVec 5) (k : BitVec 13) (s : State),
    Can (x.1 w d a k) w s → Free s (.s a) → Does (x.1 w d a k) s (gave s d (x.2 (s.me.getS a) k) 0)) ∧
  (∀ x ∈ shiftOps, ∀ (w : BitVec 2) (d a : BitVec 5) (k : BitVec 6) (s : State),
    Can (x.1 w d a k) w s → Free s (.s a) → Does (x.1 w d a k) s (gave s d (x.2 (s.me.getS a) k) 0)) ∧
  (∀ x ∈ countOps, ∀ (w : BitVec 2) (d a : BitVec 5) (s : State),
    Can (x.1 w d a) w s → Free s (.s a) → Does (x.1 w d a) s (gave s d (BitVec.ofNat 64 (x.2 (s.me.getS a))) 0)) ∧
  ∀ (w : BitVec 2) (d hi : BitVec 5) (k : BitVec 13) (s : State),
    Can (.li w d hi k) w s → Does (.li w d hi k) s (gave s d (BitVec.ofInt 64 (hi.toInt * 2 ^ 13 + k.toNat)) 0)

/-- R74: s0 is hard-wired; R108: a later write drops an earlier pending result. -/
def Obligations.ScalarWrite : Prop :=
  ∀ (s : State) (d r : BitVec 5) (v : DWord),
    let t := gave s d v 0
    (t.me.getS r = if r = 0 then 0 else if r = d then v else s.me.getS r) ∧
    t.me.regs.a = s.me.regs.a ∧ t.me.regs.d = s.me.regs.d ∧ t.me.regs.k = s.me.regs.k ∧ t.me.regs.v = s.me.regs.v ∧
    t.me.regs.p = s.me.regs.p ∧ t.me.regs.i = s.me.regs.i ∧ t.me.regs.wid = s.me.regs.wid ∧ t.me.regs.x = s.me.regs.x ∧
    t.me.flags = s.me.flags ∧ t.me.counters = s.me.counters ∧ t.me.queues = s.me.queues ∧ t.me.matrix = s.me.matrix ∧
    t.mem = s.mem ∧ t.yard0 = s.yard0 ∧ t.yard1 = s.yard1 ∧ (∀ p, p ≠ s.core → t.cr p = s.cr p) ∧
    (∀ e ∈ t.me.pend, e.reg ≠ .s d) ∧ (∀ l ∈ t.me.loads, l.dst ≠ some d) ∧
    (∀ e ∈ s.me.pend, e.reg ≠ .s d → e ∈ t.me.pend)

/-- What a register of the core reads; no result stands pending for a pattern register. -/
def Sys2Proof.Claims.reads (c : Core) : Reg → Line
  | .s n => (c.getS n).setWidth 2048
  | .v n => c.regs.v.getD n.toNat 0
  | .k n => (c.getK n).setWidth 2048
  | .x _ => 0

/-- The part of a result that a register takes: 64 bits, none of s0; a line; 32 bits of k0 to k7. -/
def Sys2Proof.Claims.taken (v : Line) : Reg → Line
  | .s n => if n = 0 then 0 else (v.setWidth 64).setWidth 2048
  | .v _ => v
  | .k _ => (v.setWidth 32).setWidth 2048
  | .x _ => 0

/-- R108, R207. -/
def Obligations.ResultReady : Prop :=
  ∀ (s : State) (p : Nat) (scalar : Bool) (e : Pend),
    (s.cr p).pend.find? (fun x => x.reg.scalar = scalar && x.ready ≤ (s.cr p).rclk) = some e →
    (∀ n, e.reg = .k n → n.toNat < 8) →
    ∃ t, Happens (if scalar then .scalarResultReady p else .vectorResultReady p) s t ∧
      reads (t.cr p) e.reg = taken e.val e.reg ∧ (∀ r, r ≠ e.reg → (∀ n, r = .k n → n.toNat < 8) → reads (t.cr p) r = reads (s.cr p) r) ∧
      (t.cr p).pend.length + 1 = (s.cr p).pend.length ∧ t.mem = s.mem ∧ OtherCores s t p

/-! ### Linear memory -/

/-- The loads of R116: bytes, and whether the value is sign-extended. -/
def Sys2Proof.Claims.loadOps : List ((BitVec 2 → BitVec 5 → BitVec 5 → BitVec 13 → Instr) × Nat × Bool) := [
  (.ldB, 1, true), (.ldBu, 1, false), (.ldH, 2, true), (.ldHu, 2, false), (.ldW, 4, true), (.ldWu, 4, false), (.ldD, 8, false)]

/-- The register that a result of field `d` goes to: none for s0. -/
def Sys2Proof.Claims.target (d : BitVec 5) : Option (BitVec 5) := if d = 0 then none else some d

/-- R115, R116, R118. -/
def Obligations.LoadIssues : Prop :=
  (∀ x ∈ loadOps, ∀ (w : BitVec 2) (d a : BitVec 5) (k : BitVec 13) (s s1 : State) (g : Target),
    Can (x.1 w d a k) w s → Free s (.s a) → resolve .load (s.me.getS a + signed k) x.2.1 s = .ok (g, s1) →
    ∃ t l, Does (x.1 w d a k) s t ∧ t.me.loads = (s1.me.kill (.s d)).loads ++ [l] ∧
      l.dst = target d ∧ l.va = s.me.getS a + signed k ∧ l.pa = g.pa ∧ l.size = x.2.1 ∧ l.signed = x.2.2 ∧ l.bound = none ∧
      l.seq = s1.me.seq ∧ t.me.seq = s1.me.seq + 1 ∧ t.me.regs = s1.me.regs ∧ t.me.stores = s1.me.stores ∧
      t.me.flags = s1.me.flags ∧ t.mem = s1.mem ∧ t.core = s1.core ∧ OtherCoresButPort3 s1 t s1.core) ∧
  ∀ (w : BitVec 2) (d : BitVec 5) (imm : BitVec 32) (s : State), Can (.li64 w d imm) w s →
    let va := s.constants.1 + imm.setWidth 64
    (imm.toNat % 8 ≠ 0 → Happens (.li64 w d imm) s (s.laneTrap .alignment va [] none)) ∧
    (imm.toNat % 8 = 0 → s.constants.2 < imm.toNat + 8 → Happens (.li64 w d imm) s (s.laneTrap .accessViolation va [] none)) ∧
    (imm.toNat % 8 = 0 → imm.toNat + 8 ≤ s.constants.2 → ∀ g s1 line s2, resolve .load va 8 s = .ok (g, s1) →
      s1.poisoned g.pa = false → s1.icacheRead s1.core (g.pa / 32 * 32) = (line, s2) →
      Does (.li64 w d imm) s (gave s2 d (line.extractLsb' (8 * (g.pa % 32)) 64) 2))

/-- The bytes of a load as a register value. -/
def Sys2Proof.Claims.extended (size : Nat) (sign : Bool) (bs : List Byte) : DWord :=
  if sign then BitVec.ofInt 64 (BitVec.ofNat (8 * size) (bytesVal bs)).toInt else BitVec.ofNat 64 (bytesVal bs)

/-- The address is memory of the device that answers now. -/
def Sys2Proof.Claims.plain (s : State) (pa : Nat) : Prop :=
  ctlReg pa = none ∧ s.peer? pa = none ∧ s.farLink pa = .ok

/-- R116, R118. -/
def Obligations.LoadReturns : Prop :=
  ∀ (s : State) (p : Nat) (l : LinLoad) (rest : List LinLoad),
    (s.cr p).loads = l :: rest → (∀ x ∈ rest, x.seq ≠ l.seq) → (s.cr p).stores = [] → l.due ≤ s.now → l.bound = none →
    l.failed = false → l.again = false → (s.cr p).restored = false → (s.cr p).free l.access = true → s.waitsPort3 (.load p l.seq) = false →
    s.lineLocked l.pa = false → plain s l.pa → s.poisoned l.pa = false → l.size ∈ [1, 2, 4, 8] → (l.kind = 2 → s.uoOld = []) →
    ∃ t, Happens (.loadReply p) s t ∧ (t.cr p).loads = rest ∧
      (∀ d, l.dst = some d → (t.cr p).getS d = if d = 0 then 0 else extended l.size l.signed (s.readBytes l.pa l.size)) ∧
      (∀ r, l.dst ≠ some r → (t.cr p).getS r = (s.cr p).getS r) ∧
      (t.cr p).regs.v = (s.cr p).regs.v ∧ (t.cr p).flags = (s.cr p).flags ∧ t.mem = s.mem ∧ OtherCores s t p

/-- The stores of R116 with their bytes. -/
def Sys2Proof.Claims.storeOps : List ((BitVec 2 → BitVec 5 → BitVec 5 → BitVec 13 → Instr) × Nat) :=
  [(.stB, 1), (.stH, 2), (.stW, 4), (.stD, 8)]

/-- The record that a linear store folds (R37): the address without its low 15 bits, those bits, the length, the data. -/
def Sys2Proof.Claims.storeRecord (va : DWord) (n : Nat) (v : DWord) : List Byte :=
  valBytes 8 (va.toNat / 2 ^ 15 * 2 ^ 15) ++ valBytes 2 (va.toNat % 2 ^ 15) ++ valBytes 2 n ++ valBytes n v.toNat

/-- R116, R118. -/
def Obligations.StoreIssues : Prop :=
  ∀ x ∈ storeOps, ∀ (w : BitVec 2) (d a : BitVec 5) (k : BitVec 13) (s s1 : State) (g : Target),
    Can (x.1 w d a k) w s → Free s (.s a) → Free s (.s d) →
    resolve .store (s.me.getS a + signed k) x.2 s = .ok (g, s1) →
    ∃ t y, Does (x.1 w d a k) s t ∧ t.me.stores = s1.me.stores ++ [y] ∧
      y.va = s.me.getS a + signed k ∧ y.pa = g.pa ∧ y.size = x.2 ∧ y.bytes = valBytes x.2 (s.me.getS d).toNat ∧
      y.seq = s1.me.seq ∧ t.me.seq = s1.me.seq + 1 ∧
      t.me.c.digest = crcBytes s1.me.c.digest (storeRecord (s.me.getS a + signed k) x.2 (s.me.getS d)) ∧
      t.me.regs = s1.me.regs ∧ t.me.loads = s1.me.loads ∧ t.me.flags = s1.me.flags ∧ t.mem = s1.mem ∧
      t.core = s1.core ∧ OtherCores s1 t s1.core

/-- The byte that memory holds at a key: a device physical address, or above the device space for far memory (R272). -/
def Sys2Proof.Claims.byteAt (s : State) (k : Nat) : Byte := Sparse.get Config.blankByte s.mem k

/-- Memory of `t` is that of `s` but for the bytes `bs` from the key `k`. -/
def Sys2Proof.Claims.WroteBytes (s t : State) (k : Nat) (bs : List Byte) : Prop :=
  ∀ a, byteAt t a = if k ≤ a ∧ a < k + bs.length then bs.getD (a - k) 0 else byteAt s a

/-- R116, R118: the store's key is that of its line and its place in it. -/
def Obligations.StoreLands : Prop :=
  ∀ (s : State) (p : Nat) (x : LinStore) (rest : List LinStore),
    (s.cr p).stores = x :: rest → (∀ y ∈ rest, y.seq ≠ x.seq) → x.due ≤ s.now → (s.cr p).free x.access = true →
    plain s x.pa → s.scrubbed x.pa = false → s.lineLocked x.pa = false → (∀ q f, place x.pa = .near q f → x.served = true) →
    ∃ t, Happens (.storeResolved p) s t ∧ (t.cr p).stores = rest ∧
      WroteBytes s t (s.key (x.pa / 256 * 256) + x.pa % 256) (valBytes x.size x.val.toNat) ∧
      (t.cr p).regs = (s.cr p).regs ∧ (t.cr p).flags = (s.cr p).flags ∧ t.tags = s.tags ∧ OtherCores s t p

/-- Memory's one write operation. -/
def Obligations.MemoryWrite : Prop :=
  ∀ (s : State) (pa : Nat) (bs : List Byte), pa % 256 + bs.length ≤ 256 → bs ≠ [] →
    let t := s.writeBytes pa bs
    let k := s.key (pa / 256 * 256)
    (s.scrubbed pa = false → WroteBytes s t (k + pa % 256) bs) ∧
    (s.scrubbed pa = true → ∀ a, byteAt t a =
      if k + pa % 256 ≤ a ∧ a < k + pa % 256 + bs.length then bs.getD (a - (k + pa % 256)) 0
      else if k ≤ a ∧ a < k + 256 then 0 else byteAt s a) ∧
    (Mem.wf s.mem = true → Mem.wf t.mem = true) ∧
    t.cores = s.cores ∧ t.yard0 = s.yard0 ∧ t.yard1 = s.yard1 ∧ t.ctxs = s.ctxs ∧ t.launches = s.launches ∧
    (bs.length = 256 → t.poison.contains (k / 256) = false)

/-- The atomics of R120 and AMO.ADDD (R121): they have one encoding form. -/
def Sys2Proof.Claims.amoOps :
    List ((BitVec 2 → BitVec 5 → BitVec 5 → BitVec 5 → BitVec 3 → BitVec 2 → BitVec 2 → Instr) × AmoOp) := [
  (.amoAdd, .add), (.amoAnd, .and), (.amoOr, .or), (.amoXor, .xor), (.amoMin, .min), (.amoMax, .max), (.amoSwp, .swp),
  (.amoCas, .cas), (.amoAddd, .addd)]

/-- The request `r` in flight after an atomic on the word at `pa`. -/
def Sys2Proof.Claims.Requested (s s1 t : State) (op : AmoOp) (d : BitVec 5) (va : DWord) (pa n : Nat) (b cmp : DWord) : Prop :=
  ∃ r, t.me.amos = (s1.me.kill (.s d)).amos ++ [r] ∧ r.op = op ∧ r.dst = target d ∧ r.va = va ∧ r.pa = pa ∧ r.width = 8 * n ∧
    r.b.toNat = b.toNat % 2 ^ (8 * n) ∧ r.cmp.toNat = cmp.toNat % 2 ^ (8 * n) ∧ r.seq = s1.me.seq ∧
    (r.round.isSome ↔ s1.inRound op = true) ∧
    t.me.regs = s1.me.regs ∧ t.me.loads = (s1.me.kill (.s d)).loads ∧ t.me.stores = s1.me.stores ∧ t.mem = s1.mem ∧
    t.core = s1.core ∧ OtherCores s1 t s.core

/-- R119 to R122: SIZE 0, 1, 2 are 2, 4 and 8 bytes. -/
def Obligations.AtomicIssues : Prop :=
  (∀ x ∈ amoOps, ∀ (w : BitVec 2) (d a b : BitVec 5) (m : BitVec 3) (sc z : BitVec 2) (s s1 : State) (g : Target),
    let i := x.1 w d a b m sc z
    Can i w s → Free s (.s a) → Free s (.s b) → (x.2 = .cas → Free s (.s d)) → z.toNat ≤ 2 →
    resolve .amo (s.me.getS a) (2 * 2 ^ z.toNat) s = .ok (g, s1) → place g.pa ≠ .control → s1.peer? g.pa = none →
    ∃ t, Does i s t ∧ Requested s s1 t x.2 d (s.me.getS a) g.pa (2 * 2 ^ z.toNat) (s.me.getS b)
      (if x.2 = .cas then s.me.getS d else 0)) ∧
  ∀ (w : BitVec 2) (d a : BitVec 5) (m : BitVec 3) (sc z : BitVec 2) (s s1 : State) (g : Target),
    Can (.amoNull w d a m sc z) w s → Free s (.s a) → z.toNat ≤ 2 →
    resolve .amo (s.me.getS a) (2 * 2 ^ z.toNat) s = .ok (g, s1) → place g.pa ≠ .control → s1.peer? g.pa = none →
    ∃ t, Does (.amoNull w d a m sc z) s t ∧ Requested s s1 t .null d (s.me.getS a) g.pa (2 * 2 ^ z.toNat) 0 0

/-- The new value of a word of `w` bits (R120). -/
def Sys2Proof.Claims.amoNew (op : AmoOp) (w : Nat) (m b cmp : BitVec w) : BitVec w :=
  match op with
  | .add => m + b
  | .and => m &&& b
  | .or => m ||| b
  | .xor => m ^^^ b
  | .min => if b.toInt < m.toInt then b else m
  | .max => if m.toInt < b.toInt then b else m
  | .swp => b
  | .cas => if m = cmp then b else m
  | .addd | .null => m

/-- R119, R120. -/
def Obligations.AtomicResult : Prop :=
  ∀ (s : State) (p : Nat) (r : AmoReq) (rest : List AmoReq),
    (s.cr p).amos = r :: rest → (∀ x ∈ rest, x.seq ≠ r.seq) → r.due ≤ s.now → r.round = none → r.late = .here → r.failed = false →
    (s.cr p).free r.access = true → s.farLink r.pa = .ok → s.poisoned r.pa = false → s.scrubbed r.pa = false →
    s.lineLocked r.pa = false → (∀ q f, place r.pa = .near q f → r.served = true) →
    r.width ∈ [16, 32, 64] → r.b.toNat < 2 ^ r.width → r.cmp.toNat < 2 ^ r.width → r.pa % (r.width / 8) = 0 →
    let old := BitVec.ofNat r.width (s.readNat r.pa (r.width / 8))
    let new := amoNew r.op r.width old (BitVec.ofNat r.width r.b.toNat) (BitVec.ofNat r.width r.cmp.toNat)
    ∃ t, Happens (.amoResultReturn p) s t ∧ (t.cr p).amos = rest ∧
      WroteBytes s t (s.key (r.pa / 256 * 256) + r.pa % 256) (valBytes (r.width / 8) new.toNat) ∧
      (∀ d, r.dst = some d → (t.cr p).getS d =
        if d = 0 then 0 else if r.width = 32 then BitVec.ofInt 64 old.toInt else BitVec.ofNat 64 old.toNat) ∧
      (∀ d, r.dst ≠ some d → (t.cr p).getS d = (s.cr p).getS d) ∧ OtherCores s t p

/-- R124, R125. At core scope rel and acq order nothing (log 11, DEDUCED). -/
def Obligations.FencesAct : Prop :=
  (∀ (w kind : BitVec 2) (uo : BitVec 1) (m : BitVec 3) (sc : BitVec 2) (s : State), Can (.fence w kind uo m sc) w s →
    ∃ t f, Does (.fence w kind uo m sc) s t ∧ t.me.fences = s.me.fences ++ [f] ∧ f.kind = kind ∧ f.mask = m ∧
      f.uo = decide (uo = 1) ∧ f.seq = s.me.seq ∧ t.me.seq = s.me.seq + 1 ∧ t.me.regs = s.me.regs ∧ t.me.stores = s.me.stores ∧
      t.me.loads = s.me.loads ∧ t.mem = s.mem ∧ OtherCores s t s.core ∧
      (∀ e x : Pending, e.seq < s.me.seq → s.me.seq ≤ x.seq → m.getLsbD e.level = true →
        (kind = 0 ∨ sc ≠ 0) → (kind = 1 → x.store = true) → (2 ≤ kind.toNat → e.load = true) →
        ((uo = 1 ∧ sc = 3) ∨ (e.kind ≠ 2 ∧ x.kind ≠ 2)) → f.orders e x = true)) ∧
  ∀ (w : BitVec 2) (s : State), Can (.fenceI w) w s →
    ∃ t, Does (.fenceI w) s t ∧ t.me.lookups.icache = [] ∧
      t.me.fetchHeld = (t.me.pending.any fun x => x.store && x.seq < s.me.seq) ∧ t.me.pending = s.me.pending ∧
      t.me.regs = s.me.regs ∧ t.mem = s.mem ∧ OtherCores s t s.core

/-! ### Transfers and lines -/

/-- The line `off` lines from a line, in the 57-bit virtual space (R126). -/
def Sys2Proof.Claims.linesFrom (line : DWord) (off : Int) : DWord := BitVec.ofInt 64 (Int.bmod (line.toInt + 32 * off) (2 ^ 57))

/-- A taken transfer of the acting stream to `t` stands in its line (R65): in joined mode it is C's. -/
def Sys2Proof.Claims.transferTo (s : State) (t : DWord) : State :=
  let st := if s.me.forked then s.stream else .c
  s.setMe (s.me.setSt st { s.me.st st with bp := true, target := t })

/-- The line in which the acting stream stands. -/
def Sys2Proof.Claims.standsAt (s : State) : DWord := (s.me.st (if s.me.forked then s.stream else .c)).line

/-- The conditions of R126. -/
def Sys2Proof.Claims.branchOps :
    List ((BitVec 2 → BitVec 5 → BitVec 5 → BitVec 13 → Instr) × (DWord → DWord → Prop)) := [
  (.beq, fun a b => a.toNat = b.toNat), (.bne, fun a b => a.toNat ≠ b.toNat), (.blt, fun a b => a.toInt < b.toInt),
  (.bge, fun a b => b.toInt ≤ a.toInt), (.bltu, fun a b => a.toNat < b.toNat), (.bgeu, fun a b => b.toNat ≤ a.toNat)]

/-- R126, R127, R128. -/
def Obligations.BranchesTransfer : Prop :=
  (∀ x ∈ branchOps, ∀ (w : BitVec 2) (a b : BitVec 5) (off : BitVec 13) (s : State),
    Can (x.1 w a b off) w s → Free s (.s a) → Free s (.s b) →
    (x.2 (s.me.getS a) (s.me.getS b) → Does (x.1 w a b off) s (transferTo s (linesFrom (standsAt s) off.toInt))) ∧
    (¬ x.2 (s.me.getS a) (s.me.getS b) → Does (x.1 w a b off) s s)) ∧
  (∀ (w : BitVec 2) (a : BitVec 5) (s : State), Can (.jmpr w a) w s → Free s (.s a) →
    (32 ∣ (s.me.getS a).toNat → Does (.jmpr w a) s (transferTo s (s.me.getS a))) ∧
    (¬ 32 ∣ (s.me.getS a).toNat → Happens (.jmpr w a) s (s.laneTrap .alignment (s.me.getS a) [] none))) ∧
  ∀ (w : BitVec 2) (off : BitVec 23) (s : State), Can (.jmp w off) w s →
    Does (.jmp w off) s (transferTo s (linesFrom (standsAt s) off.toInt))

/-- The queue is the acting stream's to look at (R129, R328). -/
def Sys2Proof.Claims.atQueue (s : State) (q : BitVec 5) : Prop :=
  if 16 ≤ q.toNat then s.stream = (tokenOwners (q.toNat - 16)).1 ∨ s.stream = (tokenOwners (q.toNat - 16)).2
  else s.stream = queueProducer q.toNat ∨ s.stream = queueConsumer q.toNat

/-- The queue is empty as the acting stream sees it (R129). -/
def Sys2Proof.Claims.seenEmpty (s : State) (q : BitVec 5) : Prop :=
  if 16 ≤ q.toNat then s.me.tokens.getD (q.toNat - 16) [] = []
  else if s.stream = queueConsumer q.toNat then (s.me.q q.toNat).poppable s.now = []
  else (s.me.q q.toNat).entries = [] ∧ (s.me.q q.toNat).pops = 0

/-- R129. -/
def Obligations.QueueBranches : Prop :=
  ∀ (w : BitVec 2) (q : BitVec 5) (off : BitVec 13) (s : State),
    (Can (.bqz w q off) w s → atQueue s q →
      (seenEmpty s q → Does (.bqz w q off) s (transferTo s (linesFrom (standsAt s) off.toInt))) ∧
      (¬ seenEmpty s q → Does (.bqz w q off) s s)) ∧
    (Can (.bqnz w q off) w s → atQueue s q →
      (seenEmpty s q → Does (.bqnz w q off) s s) ∧
      (¬ seenEmpty s q → Does (.bqnz w q off) s (transferTo s (linesFrom (standsAt s) off.toInt)))) ∧
    (Can (.bqz w q off) w s → ¬ atQueue s q → Happens (.bqz w q off) s (s.laneTrap .queueMisuse 0 [] none)) ∧
    (Can (.bqnz w q off) w s → ¬ atQueue s q → Happens (.bqnz w q off) s (s.laneTrap .queueMisuse 0 [] none))

/-- What the control instructions leave as it is. -/
def Sys2Proof.Claims.ControlFrame (s t : State) : Prop :=
  t.me.regs = s.me.regs ∧ t.me.flags = s.me.flags ∧ t.me.queues = s.me.queues ∧ t.me.matrix = s.me.matrix ∧
  t.mem = s.mem ∧ t.yard0 = s.yard0 ∧ t.yard1 = s.yard1 ∧ OtherCores s t s.core

/-- The count of a LOOP: a 16-bit immediate, or 32 bits of a register of its stream. -/
def Sys2Proof.Claims.loopCount (s : State) (cr : BitVec 1) (r : BitVec 5) (n : BitVec 16) : Word :=
  if cr = 1 then
    (match s.stream with | .c => s.me.getS r | .k => s.me.getK r | st => s.me.getAD st r).setWidth 32
  else n.setWidth 32

/-- R70, R130, R131, R133, R135, R149, R150, R151. A stride stands in the loop unit of the stream that issued LSTR, in joined mode too, and
LOOP of C clears those of every stream that acts with it: log 71 (DEDUCED), where R135 says 'in joined mode to C's level'. -/
def Obligations.ControlActs : Prop :=
  (∀ s : State, Can .nop 0 s → Does .nop s s) ∧
  (∀ (w : BitVec 2) (a : BitVec 5) (k : BitVec 4) (s : State), Can (.hint w a k) w s → Free s (.s a) → Does (.hint w a k) s s) ∧
  (∀ (w : BitVec 2) (m : BitVec 3) (oa ok od : BitVec 16) (s : State), Can (.fork w m oa ok od) w s → s.me.forked = false →
    ∃ t, Does (.fork w m oa ok od) s t ∧ ControlFrame s t ∧ t.me.c.bp = true ∧ t.me.c.target = linesFrom (standsAt s) 1 ∧
      t.me.c.fork = some (m, linesFrom (standsAt s) oa.toInt, linesFrom (standsAt s) ok.toInt, linesFrom (standsAt s) od.toInt)) ∧
  (∀ (w : BitVec 2) (f : BitVec 3) (s : State), Can (.join w f) w s → s.me.forked = true →
    (∀ st g, (s.me.st st).jn = some g → g = f) →
    ∃ t, Does (.join w f) s t ∧ ControlFrame s t ∧ t.me.st s.stream = { s.me.st s.stream with jn := some f } ∧
      (∀ u, u ≠ s.stream → t.me.st u = s.me.st u)) ∧
  (∀ (w : BitVec 2) (l : BitVec 3) (cr : BitVec 1) (r : BitVec 5) (n e : BitVec 16) (s : State),
    Can (.loop w l cr r n e) w s → l.toNat < 6 → (cr = 1 → s.stream = .c → Free s (.s r)) → (cr = 1 → s.stream = .k → Free s (.k r)) →
    ∃ t, Does (.loop w l cr r n e) s t ∧ ControlFrame s t ∧
      let st := if s.me.forked then s.stream else .c
      let c := loopCount s cr r n
      let x := (t.me.st st).loops.getD l.toNat {}
      x.active = decide (c ≠ 0) ∧ x.count = c ∧ x.index = 0 ∧ x.start = standsAt s ∧ x.endLine = linesFrom (standsAt s) e.toNat ∧
      x.strides = [] ∧ (s.me.forked = false → ∀ u, ((t.me.st u).loops.getD l.toNat {}).strides = []) ∧
      (s.me.forked = true → s.stream = .c → ∀ u, (s.me.st u).out = true → ((t.me.st u).loops.getD l.toNat {}).strides = []) ∧
      (t.me.st st).bp = (s.me.st st).bp ∧
      (t.me.st st).skip = if c = 0 then some (linesFrom x.endLine 1) else (s.me.st st).skip) ∧
  (∀ (w : BitVec 2) (d : BitVec 5) (slot : BitVec 2) (l : BitVec 3) (pair : BitVec 1) (imm : BitVec 32) (s : State),
    Can (.lstr w d slot l pair imm) w s → l.toNat < 6 → ((s.me.st s.stream).loops.getD l.toNat {}).strides.length ≤ 4 →
    ∃ t x, Does (.lstr w d slot l pair imm) s t ∧ ControlFrame s t ∧
      ((t.me.st s.stream).loops.getD l.toNat {}).strides[slot.toNat]? = some x ∧ x.used = true ∧ x.imm = imm ∧
      x.pair = decide (pair = 1) ∧ x.reg = d ∧ x.coord = decide (s.stream = .a ∨ s.stream = .d)) ∧
  (∀ (w : BitVec 2) (s : State), Can (.tend w) w s → s.me.forked = false →
    ∃ t, Does (.tend w) s t ∧ ControlFrame s t ∧ t.me.c.ended = true ∧ t.me.c.bp = true ∧
      (32 ∣ (standsAt s).toNat → s.laneNo < 8 → t.me.c.target.toNat = (standsAt s).toNat + s.laneNo)) ∧
  ∀ (w : BitVec 2) (code : BitVec 8) (s : State), Can (.trap w code) w s →
    ∃ t, Does (.trap w code) s t ∧ ControlFrame s t ∧ (t.me.st s.stream).swTrap = some code ∧
      (t.me.st s.stream).line = (s.me.st s.stream).line

/-- A line address with its low five bits cleared. -/
def Sys2Proof.Claims.aligned (a : DWord) : DWord := BitVec.ofNat 64 (a.toNat / 32 * 32)

/-- R62, R63, R131, R133. -/
def Obligations.LinesEnd : Prop :=
  (∀ (s : State) (p : Nat) (st : Stream) (v : ILine), ((s.cr p).st st).buf = some v → (s.cr p).forked = true →
    s.runs p st = true → ((s.cr p).st st).lane ≠ 8 → ownLanes v st = [] →
    ∃ t, Happens (.linePassOver p st) s t ∧ ((t.cr p).st st).lane = 8 ∧ ((t.cr p).st st).line = ((s.cr p).st st).line ∧
      (t.cr p).regs = (s.cr p).regs ∧ (∀ u, u ≠ st → (t.cr p).st u = (s.cr p).st u) ∧ t.mem = s.mem ∧ OtherCores s t p) ∧
  (∀ (s : State) (p : Nat) (r : Reg), (s.cr p).c.wait = some (.sameLine r) → (s.cr p).heldLine = true →
    (s.cr p).regWait r = none →
    ∃ t, Happens (.heldLaneResume p) s t ∧ (t.cr p).c.wait = none ∧ (t.cr p).c.lane = (s.cr p).c.lane ∧
      (t.cr p).heldLine = true ∧ (t.cr p).regs = (s.cr p).regs ∧ t.mem = s.mem ∧ OtherCores s t p) ∧
  (∀ (s : State) (p n : Nat) (st : Stream) (l : LoopLevel), ((s.cr p).st st).lane = 8 → ((s.cr p).st st).bp = false →
    ((s.cr p).st st).skip = none → ((s.cr p).st st).ending = [n] → ((s.cr p).st st).loops[n]? = some l →
    (s.cr p).strides st n = [] →
    ∃ t, Happens (.loopLineEnd p st) s t ∧ ((s.cr p).forked = false → ((t.cr p).st st).lane = 0) ∧ ((t.cr p).st st).bp = false ∧
      (if l.index.toNat + 1 < l.count.toNat then
        ((t.cr p).st st).line = aligned (linesFrom l.start 1) ∧
          ((t.cr p).st st).loops[n]? = some { l with index := l.index + 1 }
      else ((t.cr p).st st).line = aligned (linesFrom ((s.cr p).st st).line 1) ∧
          ((t.cr p).st st).loops[n]? = some { l with active := false }) ∧
      (t.cr p).regs = (s.cr p).regs ∧ t.mem = s.mem ∧ OtherCores s t p) ∧
  (∀ (s : State) (p : Nat) (f : BitVec 3), (s.cr p).forked = true → (s.cr p).clocked = true → (s.cr p).c.jn = some f →
    (∀ st, (st = .c ∨ ((s.cr p).st st).out = false) →
      ((s.cr p).st st).jn = some f ∧ ((s.cr p).st st).hlt = false) →
    ∃ t, Happens (.joinComplete p) s t ∧ (t.cr p).forked = false ∧ (t.cr p).c.line = linesFrom (s.cr p).c.line 1 ∧ (t.cr p).c.lane = 0 ∧
      (∀ st, ((t.cr p).st st).jn = none) ∧ (t.cr p).flags.getLsbD f.toNat = true ∧
      (∀ g : BitVec 3, g ≠ f → (t.cr p).flags.getLsbD g.toNat = (s.cr p).flags.getLsbD g.toNat) ∧
      (t.cr p).regs = (s.cr p).regs ∧ t.mem = s.mem ∧ OtherCores s t p)

/-- R60, R83: a line not in the instruction cache. -/
def Obligations.LineFetch : Prop :=
  ∀ (s s1 : State) (p : Nat) (st : Stream) (g : Target),
    s.runs p st = true → ((s.cr p).st st).buf = none → ((s.cr p).st st).lane ≠ 8 →
    let s0 := { s with core := p, stream := st, laneNo := 0 }
    ((s.cr p).fetchHeld = true → Happens (.instructionLineFetch p st) s { s0 with lane := .waiting .memory none }) ∧
    ((s.cr p).fetchHeld = false →
    resolve .fetch ((s.cr p).st st).line 32 s0 = .ok (g, s1) → s1.peer? g.pa = none → s1.poisoned g.pa = false →
    (s1.cr p).lookups.icache.find? (·.1 = g.pa) = none →
    let v : ILine := BitVec.ofNat 256 (bytesVal (s1.readBytes g.pa 32))
    (lineLegal (isYard p) (s1.cr p).forked v = true →
      ∃ t, Happens (.instructionLineFetch p st) s t ∧ ((t.cr p).st st).buf = some v ∧ (t.cr p).regs = (s1.cr p).regs ∧
        ((t.cr p).st st).line = ((s1.cr p).st st).line ∧ t.mem = s1.mem ∧ OtherCores s1 t p) ∧
    (lineLegal (isYard p) (s1.cr p).forked v = false →
      Happens (.instructionLineFetch p st) s (s0.laneTrap .illegalLine 0 [] none)))

/-! ### Taking exceptions -/

/-- What a yardmaster's trap entry leaves (R153). -/
def Sys2Proof.Claims.Entered (s t : State) (p : Nat) (pos cause val : DWord) : Prop :=
  let y := s.yard p
  let z := t.yard p
  z.ytepc = pos ∧ z.ytcause = cause ∧ z.ytval = val ∧ z.pie = y.ie ∧ z.ie = false ∧
  z.ytvec = y.ytvec ∧ z.yscratch = y.yscratch ∧ z.yip = y.yip ∧ z.halted = y.halted ∧
  (t.cr p).c.line = y.ytvec &&& ~~~0x1F ∧ (t.cr p).c.lane = 0 ∧ (t.cr p).c.bp = false ∧ (t.cr p).regs = (s.cr p).regs ∧
  t.mem = s.mem ∧ t.yard (1025 - p) = s.yard (1025 - p) ∧ OtherCores s t p

/-- R153: a fault or TRAP (`takeTrap`), and an interrupt at a line boundary with `IE` set: HEARTBEAT_MISSED (R391) with its
cause and slot, or a `YIP` bit, whose cause code and value are free (log 26), with `YTCAUSE`[63] set. -/
def Obligations.TrapsOfAYardmaster : Prop :=
  (∀ (s : State) (p lane swc kind obj : Nat) (st : Stream) (c : Cause) (info : DWord), (p = 512 ∨ p = 513) → lane < 8 →
    32 ∣ (s.cr p).c.line.toNat →
    ∃ pos : DWord, pos.toNat = (s.cr p).c.line.toNat + lane ∧
      Entered s (s.takeTrap p st lane c info kind obj swc) p pos (BitVec.ofNat 64 c.code)
        (if c = .software then BitVec.ofNat 64 swc else info)) ∧
  ∀ (s : State) (y : Nat), y < 2 → s.yardUp y = true → (s.yard (512 + y)).ie = true → (s.cr (512 + y)).atBoundary = true →
    (∀ b, (s.yard (512 + y)).missed = some b →
      ∃ t, Happens (.yardmasterTrapEntry y) s t ∧
        Entered s t (512 + y) (s.cr (512 + y)).c.line 0x8000000000000015 (if b then 1 else 0)) ∧
    ((s.yard (512 + y)).missed = none → s.yip (512 + y) ≠ 0 →
      ∃ t cause val, Happens (.yardmasterTrapEntry y) s t ∧ cause.msb = true ∧
        1 ≤ (cause.extractLsb' 0 63).toNat ∧ (cause.extractLsb' 0 63).toNat ≤ 0x16 ∧
        Entered s t (512 + y) (s.cr (512 + y)).c.line cause val)

/-- R178, R388, R389. -/
def Obligations.TrapsOfACore : Prop :=
  ∀ (s : State) (p lane kind obj swc : Nat) (st : Stream) (c : Cause) (info : DWord), p < 512 → swc < 256 → kind < 8 → obj < 32 →
    let k := s.cr p
    let t := s.takeTrap p st lane c info kind obj swc
    ∃ r : TrapRec, t.trapWait = s.trapWait ++ [(s.now, r)] ∧ r.core = p ∧ r.stop = some (if k.forked then some st else none) ∧
      (∃ w0 w1, r.words = [w0, w1, s.position p st lane, info] ∧
        w0.getLsbD 63 = true ∧ (w0.extractLsb' 40 16).toNat = k.ctxId % 2 ^ 16 ∧ (w0.extractLsb' 31 9).toNat = p ∧
        (w0.extractLsb' 28 3).toNat = kind ∧ (w0.extractLsb' 23 5).toNat = obj ∧ (w0.extractLsb' 20 3).toNat = streamNo st ∧
        (w0.extractLsb' 8 8).toNat = swc ∧ (w0.extractLsb' 0 6).toNat = c.code ∧
        w1 = (match k.task with | some x => x.wid | none => 0)) ∧
      (t.cr p).stops = k.stops ++ [⟨if k.forked then some st else none, false⟩] ∧
      ((t.cr p).st st).hlt = (k.forked || (k.st st).hlt) ∧ (∀ u, u ≠ st → (t.cr p).st u = k.st u) ∧
      (t.cr p).regs = k.regs ∧ (t.cr p).flags = k.flags ∧ (t.cr p).queues = k.queues ∧ t.mem = s.mem ∧
      t.yard0 = s.yard0 ∧ t.yard1 = s.yard1 ∧ OtherCores s t p

/-- R154, R155, R156. The ready time 0 of FREEZE's s[d] is the model's (log 120). -/
def Obligations.YardInstructions : Prop :=
  (∀ (w : BitVec 2) (s : State), Can (.rtt w) w s → (s.core = 512 ∨ s.core = 513) →
    ∃ t, Does (.rtt w) s t ∧ (t.yard s.core).ie = (s.yard s.core).pie ∧ (t.yard s.core).pie = (s.yard s.core).pie ∧
      t.me.c.bp = true ∧ t.me.c.target = (s.yard s.core).ytepc &&& ~~~0x18 ∧ t.me.regs = s.me.regs ∧ t.mem = s.mem ∧
      OtherCores s t s.core) ∧
  (∀ (w : BitVec 2) (s : State), Can (.wfi w) w s → (s.yip s.core ≠ 0 → Does (.wfi w) s s) ∧
    (s.yip s.core = 0 → Happens (.wfi w) s { s with lane := .waiting .fixed none })) ∧
  (∀ (w : BitVec 2) (s : State), Can (.halt w) w s → (s.core = 512 ∨ s.core = 513) →
    Does (.halt w) s (s.setYard s.core { s.yard s.core with halted := true })) ∧
  (∀ (w : BitVec 2) (d a : BitVec 5) (s : State), Can (.freeze w d a) w s → Free s (.s a) → (s.me.getS a).toNat < 512 →
    let p := (s.me.getS a).toNat
    ((s.cr p).freezeHeld = true → Does (.freeze w d a) s
      (gave (s.setCr p { s.cr p with freezeAsk := false }) d (if (s.cr p).freezeAsk then 0 else 1) 0)) ∧
    ((s.cr p).freezeHeld = false → Happens (.freeze w d a) s
      { s.setCr p { s.cr p with freezeAsk := true } with lane := .waiting .fixed (some (.freeze p)) })) ∧
  (∀ (w : BitVec 2) (a : BitVec 5) (s : State), Can (.thaw w a) w s → Free s (.s a) → (s.me.getS a).toNat < 512 →
    let p := (s.me.getS a).toNat
    ∃ t, Does (.thaw w a) s t ∧
      ((s.cr p).freezeHeld = true → s.core ≠ p → (t.cr p).freezeHeld = false ∧
        (t.cr p).stops = (s.cr p).stops.filter (fun x => !x.placed) ∧ (t.cr p).regs = (s.cr p).regs) ∧
      ((s.cr p).freezeHeld = false → t.cr p = s.cr p) ∧ t.mem = s.mem ∧ t.yard0 = s.yard0 ∧ t.yard1 = s.yard1) ∧
  (∀ (w : BitVec 2) (d a b : BitVec 5), ∀ i ∈ [Instr.freeze w d a, .thaw w a, .snapr w d a b, .snapw w d a b], ∀ s : State,
    Can i w s → Free s (.s a) → 511 < (s.me.getS a).toNat → Happens i s (s.laneTrap .accessViolation 0 [] none)) ∧
  ∀ (w : BitVec 2) (d a b : BitVec 5),
    ∀ i ∈ [Instr.rtt w, .wfi w, .halt w, .freeze w d a, .thaw w a, .snapr w d a b, .snapw w d a b], ∀ s : State,
    s.core < 512 → s.stream = .c → Happens i s (s.laneTrap .illegalInstruction 0 [] none)

/-! ### Synchronisation objects -/

/-- The signals with a deferred effect: whether it releases, and the effect. -/
def Sys2Proof.Claims.signals (w : BitVec 2) (f z : BitVec 3) (n : BitVec 4) (cnt : BitVec 6) (ph : BitVec 1) (e m : BitVec 5) :
    List (Instr × Bool × SyncEff) := [
  (.fset w f, true, .flag f true), (.fclr w f, true, .flag f false), (.cntset w n, false, .cntSet n 0),
  (.barInit w n cnt ph, false, .barInit n cnt.toNat (ph = 1)), (.barArv w n, true, .barArv n),
  (.rdvset w z e m, false, .rdvSet z m e)]

/-- R136. -/
def Obligations.ReleasesDefer : Prop :=
  ∀ (w : BitVec 2) (f z : BitVec 3) (n : BitVec 4) (cnt : BitVec 6) (ph : BitVec 1) (e m : BitVec 5) (s : State),
    ∀ x ∈ signals w f z n cnt ph e m, Can x.1 w s →
      Does x.1 s (s.setMe { s.me with
        deferred := s.me.deferred ++ [⟨s.stream, s.now, s.me.seq, x.2.1, x.2.2⟩], seq := s.me.seq + 1 })

/-- What an effect leaves of the objects of a core. -/
def Sys2Proof.Claims.Applied (c d : Core) : SyncEff → Prop
  | .flag n v => d.flags.getLsbD n.toNat = v ∧ (∀ k : BitVec 3, k ≠ n → d.flags.getLsbD k.toNat = c.flags.getLsbD k.toNat) ∧
      d.counters = c.counters ∧ d.bars = c.bars ∧ d.tokens = c.tokens
  | .flags v => d.flags = v ∧ d.counters = c.counters ∧ d.bars = c.bars ∧ d.tokens = c.tokens
  | .cntSet n v => d.counters[n.toNat]? = some v ∧ (∀ k, k ≠ n.toNat → d.counters[k]? = c.counters[k]?) ∧
      d.flags = c.flags ∧ d.bars = c.bars ∧ d.tokens = c.tokens
  | .barInit n k ph => d.bars[n.toNat]? = some ⟨k, 0, ph⟩ ∧ (∀ j, j ≠ n.toNat → d.bars[j]? = c.bars[j]?) ∧
      d.flags = c.flags ∧ d.counters = c.counters ∧ d.tokens = c.tokens
  | .barArv n => (∀ b, c.bars[n.toNat]? = some b → d.bars[n.toNat]? = some
        (if b.arrivals + 1 = b.count then ⟨b.count, 0, !b.phase⟩ else ⟨b.count, b.arrivals + 1, b.phase⟩)) ∧
      (∀ j, j ≠ n.toNat → d.bars[j]? = c.bars[j]?) ∧ d.flags = c.flags ∧ d.counters = c.counters ∧ d.tokens = c.tokens
  | .give t id => (∀ q, c.tokens[t.toNat]? = some q → d.tokens[t.toNat]? = some (q ++ [⟨id, false⟩])) ∧
      d.flags = c.flags ∧ d.counters = c.counters ∧ d.bars = c.bars
  | .take t => (∀ k q, c.tokens[t.toNat]? = some (k :: q) → d.tokens[t.toNat]? = some q) ∧
      d.flags = c.flags ∧ d.counters = c.counters ∧ d.bars = c.bars
  | .countable t id => (∀ q, c.tokens[t.toNat]? = some q → d.tokens[t.toNat]? =
        some (q.map fun k => if k.id = id then ⟨id, true⟩ else k)) ∧ d.flags = c.flags ∧ d.counters = c.counters ∧ d.bars = c.bars
  | .rdvSet z m e => d.rdvs[z.toNat]? = some (.armed m e) ∧ d.flags = c.flags ∧ d.counters = c.counters ∧ d.bars = c.bars
  | .rdvDisarm z => d.rdvs[z.toNat]? = some .disarmed ∧ d.flags = c.flags ∧ d.counters = c.counters ∧ d.bars = c.bars

/-- R136. -/
def Obligations.DeferredActs : Prop :=
  ∀ (s : State) (p : Nat) (st : Stream) (d : Deferred) (rest : List Deferred),
    (s.cr p).deferred = d :: rest → d.st = st → (s.cr p).mayApply [] d = true →
    ∃ t, Happens (.deferredReleaseEffect p st) s t ∧ (t.cr p).deferred = rest ∧ Applied (s.cr p) (t.cr p) d.eff ∧
      (t.cr p).regs = (s.cr p).regs ∧ (t.cr p).queues = (s.cr p).queues ∧ t.mem = s.mem ∧ OtherCores s t p

/-- The instruction waits for an object of R343: the state is as before but for the lane's end. -/
def Sys2Proof.Claims.Waits (i : Instr) (s : State) (kind idx : Nat) : Prop :=
  Happens i s { s with lane := .waiting (.object kind idx) none }

/-- The acting core with effects put off, from sequence number `n` on. -/
def Sys2Proof.Claims.deferring (s : State) (n : Nat) (ds : List Deferred) : State :=
  s.setMe { s.me with deferred := s.me.deferred ++ ds, seq := s.me.seq + n }

/-- The core as the acting stream sees it: with its own earlier effects of the cycle (R136). -/
def Sys2Proof.Claims.seen (s : State) : Core := s.me.view s.stream s.now

/-- The lane is judged now: it does not stand in the part of a joined line that an operand has held back (R62). -/
def Sys2Proof.Claims.Judged (s : State) : Prop := s.me.forked = true ∨ s.me.heldLine = false

/-- R136 to R143. -/
def Obligations.WaitsPass : Prop :=
  (∀ (w : BitVec 2) (c : BitVec 1) (f : BitVec 3) (s : State), Can (.fwait w c f) w s →
    let set := (seen s).flags.getLsbD f.toNat
    (set = decide (c = 0) ∨ ¬ Judged s → Does (.fwait w c f) s s) ∧
    (set ≠ decide (c = 0) → Judged s → Waits (.fwait w c f) s 5 f.toNat)) ∧
  (∀ (w : BitVec 2) (n : BitVec 4) (k : BitVec 16) (s : State), Can (.cntwait w n k) w s →
    let count := ((seen s).counters.getD n.toNat 0).toNat % 2 ^ 31
    (k.toNat ≤ count ∨ ¬ Judged s → Does (.cntwait w n k) s s) ∧
    (count < k.toNat → Judged s → Waits (.cntwait w n k) s 2 n.toNat)) ∧
  (∀ (w : BitVec 2) (n : BitVec 4) (ph : BitVec 1) (s : State), Can (.barWait w n ph) w s →
    let phase := ((seen s).bars.getD n.toNat {}).phase
    (phase ≠ decide (ph = 1) ∨ ¬ Judged s → Does (.barWait w n ph) s s) ∧
    (phase = decide (ph = 1) → Judged s → Waits (.barWait w n ph) s 3 n.toNat)) ∧
  (∀ (w : BitVec 2) (z : BitVec 3) (s : State), Can (.rdvwait w z) w s →
    let r := (seen s).rdvs.getD z.toNat .disarmed
    (r = .disarmed → Does (.rdvwait w z) s s) ∧
    (r = .fired → Does (.rdvwait w z) s (deferring s 1 [⟨s.stream, s.now, s.me.seq, false, .rdvDisarm z⟩])) ∧
    (∀ m e, r = .armed m e → Judged s → Waits (.rdvwait w z) s 6 z.toNat)) ∧
  (∀ (w : BitVec 2) (t : BitVec 3) (s : State), Can (.tkwait w t) w s →
    (s.stream ≠ (tokenOwners t.toNat).2 → Happens (.tkwait w t) s (s.laneTrap .queueMisuse 0 [] none)) ∧
    (s.stream = (tokenOwners t.toNat).2 →
      ((seen s).tokenReady t = true →
        Does (.tkwait w t) s (deferring s 1 [⟨s.stream, s.now, s.me.seq, false, .take t⟩])) ∧
      ((seen s).tokenReady t = false → Waits (.tkwait w t) s 1 t.toNat))) ∧
  ∀ (w : BitVec 2) (t : BitVec 3) (s : State), Can (.tksig w t) w s →
    let n := ((seen s).tokens.getD t.toNat []).length
    (s.stream ≠ (tokenOwners t.toNat).1 → Happens (.tksig w t) s (s.laneTrap .queueMisuse 0 [] none)) ∧
    (s.stream = (tokenOwners t.toNat).1 →
      (n < 63 → Does (.tksig w t) s (deferring s 3 [⟨s.stream, s.now, s.me.seq + 1, false, .give t s.me.seq⟩,
        ⟨s.stream, s.now, s.me.seq + 2, true, .countable t s.me.seq⟩])) ∧
      (63 ≤ n → Waits (.tksig w t) s 1 t.toNat))

/-- The bit of marker `n` in an engine's retired mask. -/
def Sys2Proof.Claims.retired (c : Core) (e : Engine) (n : BitVec 5) : Bool := (c.retired.getD (engineNo e) 0).getLsbD n.toNat

/-- R142, R143. -/
def Obligations.MarkersAndRendezvous : Prop :=
  (∀ (w : BitVec 2) (n : BitVec 5) (s : State), Can (.mark w n) w s →
    ∃ t, Does (.mark w n) s t ∧ (∀ e ∈ markerEngines s.stream, retired t.me e n = false ∧ ⟨e, n, s.me.seq⟩ ∈ t.me.markers) ∧
      (∀ e m, (e ∉ markerEngines s.stream ∨ m ≠ n) → retired t.me e m = retired s.me e m) ∧
      t.me.regs = s.me.regs ∧ t.me.flags = s.me.flags ∧ t.mem = s.mem ∧ OtherCores s t s.core) ∧
  (∀ (s : State) (p : Nat) (m : Marker) (rest : List Marker), (s.cr p).markers = m :: rest → s.retiredBefore p m.e m.seq = true →
    ∃ t, Happens (.markerRetire p m.e) s t ∧ (t.cr p).markers = rest ∧ retired (t.cr p) m.e m.n = true ∧
      (∀ e n, (e ≠ m.e ∨ n ≠ m.n) → retired (t.cr p) e n = retired (s.cr p) e n) ∧
      (t.cr p).regs = (s.cr p).regs ∧ t.mem = s.mem ∧ OtherCores s t p) ∧
  (∀ (s : State) (p z : Nat) (m eng : BitVec 5), (s.cr p).rdvs[z]? = some (.armed m eng) →
    (∀ e, eng.getLsbD (engineNo e) = true → retired (s.cr p) e m = true) →
    ∃ t, Happens (.rendezvousFire p z) s t ∧ (t.cr p).rdvs[z]? = some .fired ∧
      (∀ y, y ≠ z → (t.cr p).rdvs[y]? = (s.cr p).rdvs[y]?) ∧ (t.cr p).regs = (s.cr p).regs ∧ t.mem = s.mem ∧ OtherCores s t p)

/-- A queue after an entry has been added at its end, READY from the next cycle, or held until what precedes it has taken place, which is
the model's reading of a push that releases (log 54). -/
def Sys2Proof.Claims.pushed (s : State) (q : Nat) (v : Line) (free : Bool) : State :=
  s.setMe (s.me.setQ q { s.me.q q with
    entries := (s.me.q q).entries ++ [{ val := some v, ready := s.now, hold := if free then 0 else s.me.seq + 1 }] })

/-- The entries of a queue that were written and not popped at the start of the cycle (R146, R329): those READY since an earlier
cycle, and those popped in this one. -/
def Sys2Proof.Claims.writtenBefore (s : State) (q : Nat) : Nat :=
  ((s.me.q q).entries.filter fun e => e.val.isSome ∧ e.ready < s.now).length + (s.me.q q).pops

/-- R144 to R147. That QPUSH's entry is held until C's earlier accesses have taken place is log 54. -/
def Obligations.QueueInstructions : Prop :=
  (∀ (w : BitVec 2) (v : BitVec 32) (s : State), Can (.pushfmt w v) w s →
    ((s.me.q 12).entries.length + (s.me.q 12).pops < 32 → Does (.pushfmt w v) s (pushed s 12 (v.setWidth 2048) true)) ∧
    (32 ≤ (s.me.q 12).entries.length + (s.me.q 12).pops → Waits (.pushfmt w v) s 0 12)) ∧
  (∀ (w : BitVec 2) (q : BitVec 4) (n : BitVec 5) (s : State), Can (.qpush w q n) w s → 7 ≤ q.toNat → q.toNat ≤ 9 → Free s (.s n) →
    ((s.me.q q.toNat).entries.length + (s.me.q q.toNat).pops < 8 →
      Does (.qpush w q n) s (pushed s q.toNat ((s.me.getS n).setWidth 2048) (s.me.settled .c s.me.seq))) ∧
    (8 ≤ (s.me.q q.toNat).entries.length + (s.me.q q.toNat).pops → Waits (.qpush w q n) s 0 q.toNat)) ∧
  (∀ (w : BitVec 2) (q : BitVec 4) (n : BitVec 5) (s : State), Can (.qpop w q n) w s → q.toNat = 10 ∨ q.toNat = 11 →
    (∀ v rest, (s.me.q q.toNat).poppable s.now = v :: rest →
      Does (.qpop w q n) s (gave (s.setMe (s.me.setQ q.toNat
        { entries := (s.me.q q.toNat).entries.drop 1, pops := (s.me.q q.toNat).pops + 1, rpos := (s.me.q q.toNat).rpos + 1 }))
          n (v.setWidth 64) 0)) ∧
    ((s.me.q q.toNat).poppable s.now = [] → Waits (.qpop w q n) s 0 q.toNat)) ∧
  (∀ (w : BitVec 2) (q : BitVec 4) (n : BitVec 5) (s : State), Can (.qpush w q n) w s → (q.toNat < 7 ∨ 9 < q.toNat) →
    Happens (.qpush w q n) s (s.laneTrap .queueMisuse 0 [] none)) ∧
  (∀ (w : BitVec 2) (q : BitVec 4) (n : BitVec 5) (s : State), Can (.qpop w q n) w s → (q.toNat < 10 ∨ 11 < q.toNat) →
    Happens (.qpop w q n) s (s.laneTrap .queueMisuse 0 [] none)) ∧
  (∀ (w : BitVec 2) (q : BitVec 4) (n : BitVec 5) (s : State), Can (.qstat w q n) w s →
    Does (.qstat w q n) s (gave s n (BitVec.ofNat 64 (writtenBefore s q.toNat + 2 ^ 32 * queueDepth q.toNat)) 0)) ∧
  ∀ (w : BitVec 2) (a b : BitVec 5) (s : State), Can (.cont w a b) w s → Free s (.s a) → Free s (.s b) → Free s (.s (b + 1)) →
    Free s (.s (b + 2)) →
    (s.me.conts.length < 16 → Does (.cont w a b) s (s.setMe { s.me with
      conts := s.me.conts ++ [{ wid := s.me.getS a, p0 := s.me.getS b, p1 := s.me.getS (b + 1), p2 := s.me.getS (b + 2) }] })) ∧
    (16 ≤ s.me.conts.length → Happens (.cont w a b) s (s.laneTrap .queueMisuse 0 [] none))

/-- The registers of a compute core (R109). -/
def Sys2Proof.Claims.coreCsr (s : State) (n : Nat) : Option DWord :=
  let c := s.me
  if n ≤ 5 then some ((c.regs.i.getD n 0).setWidth 64)
  else if n = 6 then some c.regs.wid
  else if 8 ≤ n ∧ n ≤ 13 then some ((c.c.loops.getD (n - 8) {}).index.setWidth 64)
  else if n = 0x10 then some c.regs.tcycle
  else if n = 0x11 then some ((c.view .c s.now).flags.setWidth 64)
  else if n = 0x12 then some (c.regs.lcore.setWidth 64)
  else if n = 0x13 then some (BitVec.ofNat 64 s.core)
  else if n = 0x14 then some (c.regs.phase.setWidth 64)
  else if 0x20 ≤ n ∧ n ≤ 0x2F then some (((c.view .c s.now).counters.getD (n - 0x20) 0).setWidth 64)
  else if n = 0x30 then some c.c.digest
  else if n = 0x31 then some c.a.digest
  else if n = 0x32 then some c.k.digest
  else if n = 0x33 then some c.d.digest
  else none

/-- The registers of a yardmaster but TRAPQ (R109). -/
def Sys2Proof.Claims.yardCsr (s : State) (n : Nat) : Option DWord :=
  let y := s.yard s.core
  if n = 0x800 then some y.ytvec
  else if n = 0x801 then some y.ytepc
  else if n = 0x802 then some y.ytcause
  else if n = 0x803 then some y.ytval
  else if n = 0x804 then some y.yscratch
  else if n = 0x805 then some (BitVec.ofNat 64 (2 * y.pie.toNat + y.ie.toNat))
  else if n = 0x806 then some (BitVec.ofNat 64 (2 * y.yip.toNat + if s.trapFifo = [] then 0 else 1))
  else if n = 0x810 then some 0
  else none

/-- R109, R152. -/
def Obligations.CsrReads : Prop :=
  ∀ (w : BitVec 2) (d : BitVec 5) (n : BitVec 12) (s : State),
    (∀ v, s.core < 512 → Can (.csrr w d n) w s → coreCsr s n.toNat = some v → Does (.csrr w d n) s (gave s d v 0)) ∧
    (∀ v, 512 ≤ s.core → Can (.csrr w d n) w s → yardCsr s n.toNat = some v → Does (.csrr w d n) s (gave s d v 0)) ∧
    (512 ≤ s.core → Can (.csrr w d n) w s → n = 0x811 →
      Does (.csrr w d n) s (gave { s with trapFifo := s.trapFifo.drop 1 } d (s.trapFifo.headD 0) 0)) ∧
    (s.core < 512 → s.stream = .c → coreCsr s n.toNat = none → Happens (.csrr w d n) s (s.laneTrap .illegalInstruction 0 [] none)) ∧
    (512 ≤ s.core → s.stream = .c → yardCsr s n.toNat = none → n ≠ 0x811 →
      Happens (.csrr w d n) s (s.laneTrap .illegalInstruction 0 [] none))

/-- The three ways of R152. -/
def Sys2Proof.Claims.csrOps : List ((BitVec 2 → BitVec 5 → BitVec 5 → BitVec 12 → Instr) × (DWord → DWord → DWord)) := [
  (.csrw, fun _ v => v), (.csrs, fun old v => old ||| v), (.csrc, fun old v => old &&& ~~~v)]

/-- A yardmaster's registers after a write of `v` to register `n` (R109). That bits [62:6] of YTCAUSE stay zero and that a write of YTEPC
drops the pending transfer of a trap's shadow is the model's choice (log 102). -/
def Sys2Proof.Claims.yardAfter (y : Yard) (n : Nat) (v : DWord) : Yard :=
  if n = 0x800 then { y with ytvec := v &&& ~~~0x1F }
  else if n = 0x801 then { y with ytepc := v &&& ~~~0x18, shadow := [] }
  else if n = 0x802 then { y with ytcause := v &&& 0x800000000000003F }
  else if n = 0x803 then { y with ytval := v }
  else if n = 0x804 then { y with yscratch := v }
  else if n = 0x805 then { y with pie := v.getLsbD 1, ie := v.getLsbD 0 }
  else if n = 0x806 then { y with yip := y.yip &&& ~~~(v.extractLsb' 1 3) }
  else if n = 0x810 then { y with hb := 0 }
  else y

/-- R109, R152; the ready time of s[d] is log 120, what `yardAfter` leaves of YTCAUSE and YTEPC log 102. -/
def Obligations.CsrWrites : Prop :=
  ∀ x ∈ csrOps, ∀ (w : BitVec 2) (d a : BitVec 5) (n : BitVec 12) (s : State),
    let i := x.1 w d a n
    (∀ old, (s.core = 512 ∨ s.core = 513) → Can i w s → Free s (.s a) → yardCsr s n.toNat = some old →
      ∃ t, Does i s t ∧ t.yard s.core = yardAfter (s.yard s.core) n.toNat (x.2 old (s.me.getS a)) ∧
        (∀ r, t.me.getS r = if r = 0 then 0 else if r = d then old else s.me.getS r) ∧
        t.yard (1025 - s.core) = s.yard (1025 - s.core) ∧ t.me.c = s.me.c ∧ t.mem = s.mem ∧ OtherCores s t s.core) ∧
    ((s.core = 512 ∨ s.core = 513) → Can i w s → Free s (.s a) → n = 0x811 →
      Does i s (gave { s with trapFifo := s.trapFifo.drop 1 } d (s.trapFifo.headD 0) 0)) ∧
    (∀ old, s.core < 512 → Can i w s → Free s (.s a) → coreCsr s n.toNat = some old → n ≠ 0x11 →
      (n.toNat < 0x20 ∨ 0x30 ≤ n.toNat) → Does i s (gave s d old 0)) ∧
    (∀ old, s.core < 512 → Can i w s → Free s (.s a) → coreCsr s n.toNat = some old → 0x20 ≤ n.toNat → n.toNat < 0x30 →
      ∃ t, Does i s t ∧ t.me.counters = s.me.counters ∧ t.mem = s.mem ∧ OtherCores s t s.core ∧
        t.me.deferred = s.me.deferred ++
          [⟨s.stream, s.now, s.me.seq, false, .cntSet (BitVec.ofNat 4 (n.toNat - 0x20)) ((x.2 old (s.me.getS a)).setWidth 32)⟩]) ∧
    (s.core < 512 → Can i w s → Free s (.s a) → n = 0x11 →
      ∃ t, Does i s t ∧ t.me.flags = s.me.flags ∧ t.mem = s.mem ∧ OtherCores s t s.core ∧
        (∀ r, t.me.getS r = if r = 0 then 0 else if r = d then ((s.me.view .c s.now).flags.setWidth 64) else s.me.getS r) ∧
        ∃ ds, t.me.deferred = s.me.deferred ++ ds ∧ (∀ e ∈ ds, e.st = s.stream ∧ e.release = true) ∧
          ∀ f : BitVec 8, ∀ k : BitVec 3, (ds.foldl (fun (c : Core) (e : Deferred) => c.apply e.eff) { s.me with flags := f }).flags.getLsbD k.toNat =
            (x.2 (f.setWidth 64) (s.me.getS a)).getLsbD k.toNat)

/-- The word of a group barrier after one arrival (R141, R339): count in bits 15:0, arrivals in 31:16, phase in 32. -/
def Sys2Proof.Claims.arrived (v : Nat) : Nat :=
  let count := v % 2 ^ 16
  let arrivals := v / 2 ^ 16 % 2 ^ 16
  let phase := v / 2 ^ 32 % 2
  if arrivals + 1 = count then count + 2 ^ 32 * (1 - phase) else count + 2 ^ 16 * (arrivals + 1) + 2 ^ 32 * phase

/-- R141, R339. -/
def Obligations.GroupBarriers : Prop :=
  (∀ (w : BitVec 2) (a : BitVec 5) (s s1 : State) (g : Target), Can (.barArvGroup w a) w s → Free s (.s a) →
    resolve .amo (s.me.getS a) 8 s = .ok (g, s1) → inYard g.pa = true →
    ∃ t x, Does (.barArvGroup w a) s t ∧ t.me.gbArrives = s1.me.gbArrives ++ [x] ∧ x.pa = g.pa ∧ x.va = s.me.getS a ∧
      x.seq = s1.me.seq ∧ t.me.regs = s1.me.regs ∧ t.mem = s1.mem ∧ OtherCores s1 t s.core) ∧
  (∀ (w : BitVec 2) (a : BitVec 5) (ph : BitVec 1) (s s1 : State) (g : Target),
    Can (.barWaitGroup w a ph) w s → Free s (.s a) → resolve .load (s.me.getS a) 8 s = .ok (g, s1) → inYard g.pa = true →
    let mine := fun (x : GbPoll) => decide (x.lane = s1.laneNo) && decide (x.va = s.me.getS a)
    (∀ x v, s1.me.gbPolls.find? mine = some x → x.reply = some v → s1.poisoned g.pa = false → v.getLsbD 32 ≠ decide (ph = 1) →
      Does (.barWaitGroup w a ph) s (s1.setMe { s1.me with gbPolls := s1.me.gbPolls.filter (!mine ·) })) ∧
    (s1 = s → s.me.gbPolls = [] → ∃ t x, Happens (.barWaitGroup w a ph) s t ∧
      t.lane = .waiting (.object 4 0) (some (.poll (s.me.getS a) g.pa g.win)) ∧ t.me.gbPolls = [x] ∧ x.lane = s.laneNo ∧
      x.va = s.me.getS a ∧ x.pa = g.pa ∧ x.reply = none ∧ t.me.regs = s.me.regs ∧ t.mem = s.mem ∧ OtherCores s t s.core)) ∧
  (∀ (s : State) (p : Nat) (g : GbPoll) (rest : List GbPoll), (s.cr p).gbPolls = g :: rest → g ∉ rest → g.reply = none →
    g.due ≤ s.now → (s.cr p).free ((s.cr p).pollLoad g).access = true → (s.cr p).stores = [] →
    ∃ t, Happens (.groupBarrierPollReply p) s t ∧
      (t.cr p).gbPolls = { g with reply := some (BitVec.ofNat 64 (s.readNat g.pa 8)) } :: rest ∧
      (t.cr p).regs = (s.cr p).regs ∧ t.mem = s.mem ∧ OtherCores s t p) ∧
  (∀ (s : State) (p : Nat) (x : GbArrive) (rest : List GbArrive), (s.cr p).gbArrives = x :: rest → (∀ y ∈ rest, y.seq ≠ x.seq) →
    x.due ≤ s.now → (s.cr p).free x.access = true → s.lineLocked x.pa = false → s.poisoned x.pa = false → s.scrubbed x.pa = false →
    let v := s.readNat x.pa 8
    v < 2 ^ 33 → 0 < v % 2 ^ 16 → v / 2 ^ 16 % 2 ^ 16 < v % 2 ^ 16 →
    ∃ t, Happens (.groupBarrierUpdate p) s t ∧ (t.cr p).gbArrives = rest ∧
      WroteBytes s t (s.key (x.pa / 256 * 256) + x.pa % 256) (valBytes 8 (arrived v)) ∧
      (t.cr p).regs = (s.cr p).regs ∧ OtherCores s t p)

/-! ### Launches -/

/-- The status of a push (R333). -/
def Sys2Proof.Claims.pushStatus (x : LaunchQueue) : Option (BitVec 512) → Nat
  | none => 3
  | some r => if !recordOk r then 3 else if x.st ≠ .opened then 2 else if 16 ≤ x.recs.length then 1 else 0

/-- Of these, nothing but the launch queue `q` has changed. -/
def Sys2Proof.Claims.OnlyQueue (s t : State) (q : Nat) : Prop :=
  (∀ k, k ≠ q → t.lq k = s.lq k) ∧ t.mem = s.mem ∧ t.cores = s.cores ∧ t.launches = s.launches ∧ t.ctxs = s.ctxs

/-- A record as it stands in its queue: with its kernel as it reads at the push (log 40), or unread, with what its push releases
(log 54). -/
def Sys2Proof.Claims.queuedRecord (s : State) (hold : Option (Nat × Nat)) (v : BitVec 512) : LqRecord :=
  match hold with
  | none => ⟨v, (s.kernelPushed v []).1, (s.kernelPushed v []).2.2, none⟩
  | some h => ⟨v, .wait, [], some h⟩

/-- A record has been pushed to a queue, or refused with a status; its doorbell, YIP bit 1, is set, or will be after the CSR instructions
of the cycle (R152). -/
def Sys2Proof.Claims.LaunchPushed (s t : State) (q : Nat) (r : Option (BitVec 512)) (hold : Option (Nat × Nat)) : Prop :=
  let x := s.lq q
  let n := pushStatus x r
  let up := fun (v : BitVec 3) => if n = 0 then v ||| 1 else v
  t.lq q = { x with last := BitVec.ofNat 2 n
                    recs := if n = 0 then x.recs ++ r.toList.map (queuedRecord s hold) else x.recs } ∧
  (s.turn = .events → (t.yard s.primary).yip = up (s.yard s.primary).yip ∧ t.yipUp = s.yipUp) ∧
  (s.turn ≠ .events → (t.yard s.primary).yip = (s.yard s.primary).yip ∧ t.yipUp = up s.yipUp) ∧ OnlyQueue s t q

/-- What R334 makes of a queue: open, quiesce (with a running launch of the queue or none), disable. -/
def Sys2Proof.Claims.lqOpened (x : LaunchQueue) : LaunchQueue :=
  if x.st = .disabled ∨ x.st = .closed then { x with st := .opened } else x
def Sys2Proof.Claims.lqQuiesced (running : Bool) (x : LaunchQueue) : LaunchQueue :=
  if x.st = .opened then { x with st := if running then .quiescing else .closed } else x
def Sys2Proof.Claims.lqDisabled (x : LaunchQueue) : LaunchQueue :=
  if x.st = .closed then { x with st := .disabled, recs := [], elev := 0, aged := 0 } else x

/-- R148, R333 to R335. When the kernel is read is log 40, that the record of a LAUNCH with earlier accesses stays unread log 54, status 3
for a poisoned line or a peer's window log 99, the ready time of s[d] log 120. -/
def Obligations.LaunchQueues : Prop :=
  (∀ (s : State) (q : Nat) (v : BitVec 64),
    ∃ t, Happens (.launchQueuePush q v) s t ∧ LaunchPushed s t q ((s.pushed v 6).map s.record64) none) ∧
  (∀ (w : BitVec 2) (d a b : BitVec 5) (s s1 : State) (g : Target),
    let va := s.me.getS a
    let v := (s.me.getS b).toNat
    Can (.launch w d a b) w s → Free s (.s a) → Free s (.s b) →
    (va.toNat % 64 ≠ 0 → Happens (.launch w d a b) s (s.laneTrap .alignment va [] none)) ∧
    (va.toNat % 64 = 0 → resolve .load va 8 s = .ok (g, s1) →
      ((s1.lq (v % 64)).ctx.toNat ≠ s1.me.ctxId → Happens (.launch w d a b) s (s.laneTrap .accessViolation 0 [] none)) ∧
      ((s1.lq (v % 64)).ctx.toNat = s1.me.ctxId →
        let r := if 64 ≤ v ∨ s1.poisoned g.pa ∨ (s1.peer? g.pa).isSome then none else some (s1.launchRecord s1.core g)
        let hold := if s1.me.settled .c s1.me.seq then none else some (s1.core, s1.me.seq)
        ∃ t, LaunchPushed s1 t (v % 64) r hold ∧
          Does (.launch w d a b) s (gave t d (BitVec.ofNat 64 (pushStatus (s1.lq (v % 64)) r)) 0)))) ∧
  (∀ (s : State) (q : Nat),
    (∃ t, Happens (.launchQueueOpen q) s t ∧ t.lq q = lqOpened (s.lq q) ∧ OnlyQueue s t q) ∧
    (∃ t, Happens (.launchQueueQuiesce q) s t ∧
      t.lq q = lqQuiesced (s.launches.any fun l => l.active && l.queue = q) (s.lq q) ∧ OnlyQueue s t q) ∧
    (∃ t, Happens (.launchQueueDisable q) s t ∧ t.lq q = lqDisabled (s.lq q) ∧ OnlyQueue s t q)) ∧
  ∀ (s : State) (q : Nat), (s.lq q).st = .opened → (s.lq q).recs ≠ [] → 2 ^ 24 ≤ (s.lq q).aged →
    (s.lq q).prio.toNat + (s.lq q).elev < 3 →
    ∃ t, Happens (.launchAgingTick q) s t ∧ t.lq q = { s.lq q with elev := (s.lq q).elev + 1, aged := 0 } ∧ OnlyQueue s t q

/-- No pre-empted launch waits to resume. -/
abbrev Sys2Proof.Claims.NoneParked (s : State) : Prop := ∀ l ∈ s.launches, l.st ≠ .preempted

/-- The bytes of the status word of an ended launch (R350): the code, and the phase above it. -/
def Sys2Proof.Claims.statusBytes (code phase : Nat) : List Byte := valBytes 8 (code + 256 * (phase % 256))

/-- A core at the start of a task (R23, R28): joined at the entry line, with nothing set, pending or queued. -/
def Sys2Proof.Claims.Started (c : Core) (t : TaskId) (entry : DWord) (lcore : Nat) : Prop :=
  c.task = some t ∧ c.forked = false ∧ c.c = { line := entry } ∧ c.a = { line := entry } ∧ c.k = { line := entry } ∧
  c.d = { line := entry } ∧ c.regs.wid = t.wid ∧ c.regs.tcycle = 0 ∧ c.regs.lcore = BitVec.ofNat 9 lcore ∧
  c.regs.phase = BitVec.ofNat 8 t.phase ∧ c.regs.a = .replicate 16 0 ∧ c.regs.d = .replicate 16 0 ∧ c.regs.k = .replicate 8 0 ∧
  c.regs.v = .replicate 32 0 ∧ c.regs.p = .replicate 8 0 ∧ c.flags = 0 ∧ c.counters = .replicate 16 0 ∧
  c.bars = .replicate 16 {} ∧ c.rdvs = .replicate 8 .disarmed ∧ c.tokens = .replicate 6 [] ∧ c.queues = .replicate 14 {} ∧
  c.loads = [] ∧ c.pend = [] ∧ c.aq = [] ∧ c.dq = [] ∧ c.first = c.seq

/-- R28, R30, R351. -/
def Obligations.LaunchesRun : Prop :=
  (∀ (s : State) (q : Nat) (x : LqRecord) (rest : List LqRecord),
    (∀ l ∈ s.launches, l.st ≠ .accepting) → NoneParked s → s.firmwareRuns = true → s.nextQueue = some q →
    (s.lq q).recs = x :: rest →
    let r := x.bits
    (s.recordGroup q r = none → recordOk r = true → s.scrubbed (bits r.toNat 128 64) = false → s.coresOf s.nextLaunch = [] →
      ∃ t, Happens (.launchTake q) s t ∧ (t.lq q).recs = rest ∧ (t.launch? s.nextLaunch).map (·.st) = some .refused ∧
        t.nextLaunch = s.nextLaunch + 1 ∧ WroteBytes s t (bits r.toNat 128 64) (statusBytes 4 0) ∧
        t.msis = s.msis ++ (if bits r.toNat 192 64 = 0 then [] else [(bits r.toNat 192 64, BitVec.ofNat 32 (bits r.toNat 256 32))])) ∧
    (∀ ctx g c k, s.recordGroup q r = some (ctx, g) → s.launchesOf ctx g = [] → s.ctx? ctx = some c →
      x.text = .ok k → phCont (k.phases.getD 0 0) = false →
      walkSize (k.phases.getD 0 0) ≠ 0 →
      ∃ t l, Happens (.launchTake q) s t ∧ (t.lq q).recs = rest ∧ t.launch? s.nextLaunch = some l ∧ l.st = .running ∧
        l.ctx = ctx ∧ l.group = g ∧ l.hdr = k.hdr ∧ l.binds = k.binds ∧ l.phases = k.phases ∧ l.phase = 0 ∧ l.base = s.now ∧
        l.next = 0 ∧ (t.group ctx g).st = .running ∧ t.cores = s.cores)) ∧
  (∀ (s : State) (id k : Nat) (l : Launch), s.launch? id = some l → l.st = .running → l.parked = [] → l.halted = false →
    l.mismatched = false → l.next + 1 < l.size l.phase → l.phaseDone l.phase = false → l.phase < l.sizes.length →
    (∀ t, l.timed l.next = some t → t ≤ s.now ∧ s.now ≤ t + phSlack (l.record l.phase)) →
    s.predPoison l l.next = none → s.predsCommitted l l.next = true → s.pickCore l l.next = some k →
    let p := physical (s.binding l) k
    let wid := l.widAt l.phase l.next
    ∃ t, Happens (.taskStart id) s t ∧
      Started (t.cr p) { ctx := l.ctx, launch := id, phase := l.phase, ordinal := l.next, wid := wid, attempt := l.attempt }
        (hdrEntry l.hdr &&& ~~~0x1F) k ∧
      (∀ j < 6, (t.cr p).regs.i[j]? = some (BitVec.ofNat 32 (bits wid.toNat (hdrLow l.hdr j) (hdrWidth l.hdr j)))) ∧
      (phCont (l.record l.phase) = false → (t.cr p).regs.s = .replicate 32 0) ∧
      (∃ places, t.launch? id = some { l with next := l.next + 1, lastStart := s.now, placed := l.placed ++ places } ∧
        ∀ x ∈ places, x = (l.phase, l.next, k)) ∧ t.mem = s.mem ∧ OtherCores s t p) ∧
  (∀ (s : State) (id n t0 : Nat) (l : Launch), s.launch? id = some l → l.st = .running → l.halted = false →
    l.next ≤ n → n < l.size l.phase → l.timed n = some t0 → t0 + phSlack (l.record l.phase) < s.now →
    (∀ m t, l.next ≤ m → m < n → l.timed m = some t → s.now ≤ t + phSlack (l.record l.phase)) →
    let p := physical (s.binding l) (n % groupN (s.binding l))
    let wid := l.widAt l.phase n
    ∃ t, Happens (.scheduleSlip id) s t ∧ t.launch? id = some { l with halted := true, slipped := n } ∧
      t.trapWait = s.trapWait ++ [(s.now, ⟨p, [trapWord0 l.ctx p 0 0 5 0 .scheduleSlip, wid, 0, 0], none⟩)] ∧
      t.mem = s.mem ∧ t.cores = s.cores) ∧
  ∀ (s : State) (id t0 : Nat) (l : Launch), s.launch? id = some l → l.st = .running → l.halted = true →
    l.timed l.slipped = some t0 →
    ∃ t, Happens (.walkerResume id) s t ∧
      (s.deltas = [] → t.launch? id = some { l with halted := false, delta := l.delta + (s.now - t0) }) ∧
      (∀ d rest, s.deltas = d :: rest →
        t.launch? id = some { l with halted := false, delta := l.delta + d.toNat } ∧ t.deltas = rest) ∧
      t.mem = s.mem ∧ t.cores = s.cores

/-- Launch `id` is back at the start of phase `p` (R394): its later commits are gone and none of its tasks is on a core. The base cycle
is the model's choice (log 101). -/
def Sys2Proof.Claims.Restarted (s t : State) (id p : Nat) (l : Launch) : Prop :=
  ∃ k, t.launch? id = some k ∧ k.st = .running ∧ k.phase = p ∧ k.next = 0 ∧ k.base = s.now ∧ k.attempt = l.attempt + 1 ∧
    k.commits = l.commits.filter (·.1 < p) ∧ k.parked = [] ∧
    ∀ q, (s.cr q).task.map (·.launch) = some id → (t.cr q).task = none

/-- Nothing of the core is on its way to memory: no store, atomic or barrier arrival, no line of D. -/
def Sys2Proof.Claims.Quiet (c : Core) : Prop := c.stores = [] ∧ c.amos = [] ∧ c.gbArrives = [] ∧ c.drain.buf = []

/-- What an UNCORRECTABLE is known by (R394): the address of its record, or the record where that is zero. -/
def Sys2Proof.Claims.repairKey (r : List DWord) : List DWord := if r.getD 3 0 = 0 then r else [r.getD 3 0]

/-- R34, R38, R354, R394. The base cycle of a restarted phase is log 101, what counts as `repairable` log 31. -/
def Obligations.LaunchesEnd : Prop :=
  (∀ (s : State) (p : Nat) (t : TaskId), (s.cr p).task = some t → (s.cr p).c.ended = true → (s.cr p).c.bp = false →
    (s.cr p).freezeHeld = false → (s.cr p).thawed = false → (s.cr p).stops = [] → s.outstanding p t = false →
    ((∃ q ∈ (s.cr p).queues.toList, q.entries ≠ []) →
      Happens (.taskCommit p) s (s.takeTrap p .c (s.cr p).c.lane .queueMisuse 0 0 0 0)) ∧
    (∀ l, (∀ q ∈ (s.cr p).queues.toList, q.entries = []) → s.launch? t.launch = some l → Quiet (s.cr p) → (s.cr p).aloads = [] →
      (s.cr p).matrix.queue = [] → (s.cr p).matrix.rows = [] →
      s.contsBlocked l (s.cr p).conts.length = false → l.phase = t.phase → t.phase < l.sizes.length → l.next ≠ l.size t.phase →
      l.committed t.phase + 1 ≠ l.size t.phase →
      ∃ u k, Happens (.taskCommit p) s u ∧ (u.cr p).task = none ∧ (u.cr p).matrix.slots = (s.cr p).matrix.slots ∧
        u.launch? t.launch = some k ∧ k.commits = l.commits ++ [(t.phase, t.ordinal, s.now)] ∧ k.next = l.next ∧
        OtherCoresButPort3 s u p ∧
        (inYard (s.commitPlane l t.phase + t.ordinal / 8) = true →
          bit (u.readNat (s.commitPlane l t.phase + t.ordinal / 8) 1) (t.ordinal % 8) = true) ∧
        (hdrDet l.hdr = false → (s.ctx? l.ctx).isSome = true →
          (u.group l.ctx l.group).queue = (s.group l.ctx l.group).queue ++
            (s.cr p).conts.map fun r => { r with launch := l.id, phase := t.phase }))) ∧
  (∀ (s : State) (id code : Nat) (l : Launch), s.launch? id = some l → (l.st = .running ∨ l.st = .preempted) → 5 ≤ code →
    code ≤ 7 → (∀ k ∈ s.launches, k.st = .preempted → k.id = id) →
    ∃ t, Happens (.launchAbort id code) s t ∧ (t.launch? id).map (·.st) = some .aborted ∧
      (∀ q, (s.cr q).task.map (·.launch) = some id → (t.cr q).task = none) ∧
      ((∀ q, (s.cr q).task.map (·.launch) = some id → Quiet (s.cr q)) →
        (inYard l.stat = true → l.stat % 8 = 0 → s.scrubbed l.stat = false →
          WroteBytes s t l.stat (statusBytes code l.phase)) ∧
        (inYard l.stat = false → t.mem = s.mem))) ∧
  (∀ (s : State) (id : Nat) (l : Launch) (c : Context), s.launch? id = some l → l.st = .running → l.phase ≤ l.sizes.length →
    s.ctx? l.ctx = some c → s.ringRoom c (errorRecord s.fwRecord (s.wroteOf l)).length = true →
    (repairKey s.fwRecord ∈ l.repaired → NoneParked s →
      ∃ t, Happens (.phaseRollBack id) s t ∧ (t.launch? id).map (·.st) = some .aborted) ∧
    (repairKey s.fwRecord ∉ l.repaired → s.repairable c (s.wroteOf l) s.fwRecord = true → phCont (l.record l.runningPhase) = false → walkSize (l.record l.runningPhase) ≠ 0 →
      ∃ t, Happens (.phaseRollBack id) s t ∧ Restarted s t id l.runningPhase l ∧
        (t.launch? id).map (·.repaired) = some (repairKey s.fwRecord :: l.repaired))) ∧
  ∀ (s : State) (id : Nat) (l : Launch), s.launch? id = some l → l.st = .running → l.mismatched = true →
    l.phase ≤ l.sizes.length → phCont (l.record l.phase) = false → walkSize (l.record l.phase) ≠ 0 →
    ∃ t, Happens (.serialisedReRun id) s t ∧ Restarted s t id l.phase l ∧
      (t.launch? id).map (·.rerun) = some true ∧ (t.launch? id).map (·.mismatched) = some false

/-! ### Stream A -/

/-- The state with a[d] written. -/
def Sys2Proof.Claims.wroteA (s : State) (d : BitVec 5) (v : DWord) : State :=
  s.setMe { s.me with regs := { s.me.regs with a := s.me.regs.a.setIfInBounds d.toNat v } }

/-- The state after the head of a queue has been popped. -/
def Sys2Proof.Claims.popped (s : State) (q : Nat) : State :=
  s.setMe (s.me.setQ q ⟨(s.me.q q).entries.drop 1, (s.me.q q).pops + 1, (s.me.q q).rpos + 1⟩)

/-- The instruction gives a[d] a value whose element `e` is `f e`. -/
def Sys2Proof.Claims.GivesA (i : Instr) (s s1 : State) (d : BitVec 5) (f : Nat → BitVec 16) : Prop :=
  ∃ v : DWord, (∀ e < 4, v.extractLsb' (16 * e) 16 = f e) ∧ Does i s (wroteA s1 d v)

/-- R161. -/
def Obligations.Coordinates : Prop :=
  ∀ (w : BitVec 2) (d a b : BitVec 5) (s : State), d.toNat < 16 →
    let x := s.me.getAD .a a
    let old := s.me.regs.a.getD d.toNat 0
    let elem := fun (v : DWord) (e : Nat) => v.extractLsb' (16 * e) 16
    (∀ em : BitVec 4, Can (.aadd w d a b em) w s → GivesA (.aadd w d a b em) s s d fun e =>
      if em.getLsbD e then elem x e + elem (s.me.getAD .a b) e else elem x e) ∧
    (∀ (k : BitVec 2) (imm : BitVec 11), Can (.aaddi w d a k imm) w s → GivesA (.aaddi w d a k imm) s s d fun e =>
      if e = k.toNat then elem x e + BitVec.ofInt 16 imm.toInt else elem x e) ∧
    (∀ sel : BitVec 8, Can (.amov w d a 0 sel) w s → GivesA (.amov w d a 0 sel) s s d fun e =>
      elem x (sel.toNat / 4 ^ e % 4)) ∧
    (∀ (k : BitVec 2) (rsh : BitVec 6) (lsh : BitVec 4), Can (.aset w d a k rsh 0 lsh) w s →
      GivesA (.aset w d a k rsh 0 lsh) s s d fun e =>
        if e = k.toNat then BitVec.ofNat 16 (x.toNat / 2 ^ rsh.toNat * 2 ^ lsh.toNat) else elem old e) ∧
    (∀ (pair : BitVec 1) (lo hi : BitVec 16), Can (.ali w d pair lo hi) w s → GivesA (.ali w d pair lo hi) s s d fun e =>
      if e = 2 * pair.toNat then lo else if e = 2 * pair.toNat + 1 then hi else elem old e) ∧
    (∀ (k : BitVec 2) (rsh : BitVec 6) (lsh : BitVec 4) (sel : BitVec 8) (v : Line) (rest : List Line),
      (s.me.q 7).poppable s.now = v :: rest →
      (Can (.amov w d a 1 sel) w s → GivesA (.amov w d a 1 sel) s (popped s 7) d fun e =>
        elem (v.setWidth 64) (sel.toNat / 4 ^ e % 4)) ∧
      (Can (.aset w d a k rsh 1 lsh) w s → GivesA (.aset w d a k rsh 1 lsh) s (popped s 7) d fun e =>
        if e = k.toNat then BitVec.ofNat 16 ((v.setWidth 64).toNat / 2 ^ rsh.toNat * 2 ^ lsh.toNat) else elem old e)) ∧
    ∀ (k : BitVec 2) (rsh : BitVec 6) (lsh : BitVec 4) (sel : BitVec 8), (s.me.q 7).poppable s.now = [] →
      (Can (.amov w d a 1 sel) w s → Waits (.amov w d a 1 sel) s 0 7) ∧
      (Can (.aset w d a k rsh 1 lsh) w s → Waits (.aset w d a k rsh 1 lsh) s 0 7)

/-- The port's tile cache holds the entry at `ea`, of a RESIDENT block, whose byte `off` lies behind a peer window or can be read
now (R254 to R256, R386, R399). -/
def Sys2Proof.Claims.HeldTile (s : State) (port ea off : Nat) : Prop :=
  (s.me.lookups.tiles.getD port []).length ≤ 256 ∧ s.poisoned ea = false ∧
    ∃ e, (s.me.lookups.tiles.getD port []).find? (·.1 = ea) = some (ea, e) ∧ tileOk e = true ∧ tState e = 0 ∧
      ((s.peer? (tBase e + off)).isSome = true ∨ s.farState (tBase e + off) = .ok)

/-- The operand of a load passes checks 1 and 3 of R158: its object, coordinates, block, offset and bit. -/
def Sys2Proof.Claims.Operand (s : State) (t : BitVec 6) (c : BitVec 4) (b : Bound) (v : DWord) (blk off bit : Nat) : Prop :=
  loadOperand t c (fun _ => true) s = .ok ((b, v, blk, off, bit), s)

/-- The queue has room for `n` entries more (R328, R329). -/
def Sys2Proof.Claims.Room (s : State) (q n : Nat) : Prop := (s.me.q q).entries.length + (s.me.q q).pops + n ≤ queueDepth q

/-- Loads of kinds `ks` are in flight behind the earlier ones, numbered from the next sequence number on. -/
def Sys2Proof.Claims.InFlight (s t : State) (ks : List ALoadKind) : Prop :=
  ∃ ls, t.me.aloads = s.me.aloads ++ ls ∧ ls.map (·.kind) = ks ∧
    ls.map (·.id) = (List.range ks.length).map (s.me.seq + ·) ∧ t.me.seq = s.me.seq + ks.length ∧
    t.me.regs = s.me.regs ∧ t.me.flags = s.me.flags ∧ t.me.matrix = s.me.matrix ∧ t.mem = s.mem ∧ t.core = s.core

/-- Every queue but `q` is as before. -/
def Sys2Proof.Claims.OtherQueues (s t : State) (q : Nat) : Prop := ∀ k, k ≠ q → t.me.q k = s.me.q k

/-- The load fills queue `q`: entries are reserved for the loads `ids`. -/
def Sys2Proof.Claims.Reserved (s t : State) (q : Nat) (ids : List Nat) : Prop :=
  (t.me.q q).entries = (s.me.q q).entries ++ ids.map (fun i => ⟨none, 0, i, 0⟩) ∧ (t.me.q q).pops = (s.me.q q).pops ∧
    OtherQueues s t q

/-- The plane pair belongs to the running context, with no claim of it in progress (R280). -/
def Sys2Proof.Claims.OwnPlanes (s : State) : Prop :=
  (s.me.matrix.claims.any (·.what = 32)) = false ∧ Sparse.get 0 s.me.matrix.owner 32 = s.me.ctxId

/-- The blocks of a column of `n` elements are of the tensor, held and RESIDENT. -/
def Sys2Proof.Claims.HeldColumn (s : State) (b : Bound) (v : DWord) (n : Nat) : Prop :=
  ∀ x ∈ columnPlaces b.lay v n, x.1 ≤ b.lay.nblkm1 ∧ HeldTile s (s.me.aReqs % 2) (b.lay.entry x.1) x.2

/-- R162 to R167. -/
def Obligations.TensorLoads : Prop :=
  (∀ (w : BitVec 2) (t : BitVec 6) (c : BitVec 4) (s : State) (b : Bound) (v : DWord) (blk off bit : Nat),
    Operand s t c b v blk off bit →
    let held := fun k o => HeldTile s ((s.me.aReqs + k) % 2) (b.lay.entry blk) o
    let line := off / 256 * 256
    let first := b.lay.lineStart (coords v) = true
    let wide := fmtWidth b.lay.fmt % 8 = 0
    (∀ (q : BitVec 4) (n : BitVec 1), (q.toNat ≤ 3 ∨ q = 6) → Can (.tld w q t c n) w s → first → Room s q.toNat (n.toNat + 1) →
      held 0 line → (n = 1 → off / 256 ≠ 127 ∧ held 1 (line + 256)) →
      ∃ u, Does (.tld w q t c n) s u ∧ InFlight s u ((List.range (n.toNat + 1)).map (.tld q.toNat b.idx v ·)) ∧
        Reserved s u q.toNat ((List.range (n.toNat + 1)).map (s.me.seq + ·))) ∧
    (∀ n : BitVec 1, Can (.tld w 11 t c n) w s → Room s 11 1 → held 0 line →
      ∃ u, Does (.tld w 11 t c n) s u ∧ InFlight s u [.word b.idx v] ∧ Reserved s u 11 [s.me.seq]) ∧
    (∀ q : BitVec 4, (q.toNat ≤ 3 ∨ q = 6) → Can (.tldT w q t c) w s → wide → Room s q.toNat 1 →
      HeldColumn s b v (256 / (fmtWidth b.lay.fmt / 8)) →
      ∃ u, Does (.tldT w q t c) s u ∧ InFlight s u [.column q.toNat b.idx v] ∧ Reserved s u q.toNat [s.me.seq]) ∧
    (∀ (q : BitVec 4) (x : BitVec 2), (q.toNat ≤ 3 ∨ q = 6) → Can (.tldb w q t c x) w s →
      let p := s.me.regs.x.getD x.toNat {}
      p.loaded = true → Free s (.x x) → bit = 0 → off + patBytes p.record ≤ 32768 → Room s q.toNat 1 → held 0 off →
      (256 < off % 256 + patBytes p.record → held 1 (line + 256)) →
      ∃ u, Does (.tldb w q t c x) s u ∧ InFlight s u [.pattern q.toNat b.idx v p.record (patBytes p.record)] ∧
        Reserved s u q.toNat [s.me.seq]) ∧
    (∀ n : BitVec 6, Can (.ild w t c n) w s → off % 4 = 0 → off % 256 + 4 * (n.toNat + 1) ≤ 256 → Room s 13 (n.toNat + 1) →
      held 0 off → ∃ u, Does (.ild w t c n) s u ∧ InFlight s u [.index b.idx v (n.toNat + 1)] ∧
        Reserved s u 13 (List.replicate (n.toNat + 1) s.me.seq)) ∧
    (∀ (spa : BitVec 1) (m : BitVec 7), Can (.mldw w t c spa m) w s → first → OwnPlanes s → held 0 line →
      ∃ u, Does (.mldw w t c spa m) s u ∧
        InFlight s u [.plane 0 m.toNat b.idx v (some (BitVec.ofNat 4 b.lay.fmt, decide (spa = 1)))] ∧ u.me.queues = s.me.queues) ∧
    (∀ k : BitVec 7, Can (.mldwT w t c k) w s → wide → k.toNat < passDepth b.lay.fmt → OwnPlanes s → HeldColumn s b v 64 →
      ∃ u, Does (.mldwT w t c k) s u ∧ InFlight s u [.planeColumn k.toNat b.idx v (BitVec.ofNat 4 b.lay.fmt)] ∧
        u.me.queues = s.me.queues) ∧
    (∀ (kind : BitVec 2) (m : BitVec 7), Can (.mlds w t c kind m) w s → sideFormat kind.toNat b.lay.fmt = true → first →
      OwnPlanes s → held 0 line →
      ∃ u, Does (.mlds w t c kind m) s u ∧ InFlight s u [.plane (kind.toNat + 1) m.toNat b.idx v none] ∧
        u.me.queues = s.me.queues)) ∧
  ∀ (w : BitVec 2) (x : BitVec 2) (a : BitVec 5) (imm : BitVec 13) (s s1 s2 : State) (g : Target) (due : Nat),
    let va := s.me.getAD .a a + signed imm
    let i := Instr.bfxcfg w x a imm
    let first := 256 - va.toNat % 256
    let reads := fun (k : ALoadKind) => s2.fetchLoad (fun n => .aload s2.core 0 n) s2.core k
    let refused := fun (k : ALoadKind) => ∃ bs, reads k = .data bs false ∧ patOk (BitVec.ofNat 576 (bytesVal bs)) = false
    let outcome := fun (k : ALoadKind) =>
      (refused k → Happens i s (s.laneTrap .formatInvalid 0 [] none)) ∧
      (¬ refused k → ∃ u, Does i s u ∧ InFlight s1 u [k] ∧ u.me.queues = s1.me.queues)
    Can i w s → resolve .load va 8 s = .ok (g, s1) → linearRequest g.pa s1 = .ok (due, s2) →
    (72 ≤ first → outcome (.bfx x va g.pa 0 g.win)) ∧
    ∀ (s3 : State) (g2 : Target), first < 72 → resolve .load (va + BitVec.ofNat 64 first) 8 s2 = .ok (g2, s3) →
      outcome (.bfx x va g.pa g2.pa g.win)

/-- The load at the head of core `p`'s loads of stream A has come with bytes, poisoned or not: it waits for no lookup, its ports have read
it in their cycles or it is read as it arrives (log 19), its layout entry is still valid, and a plane load comes upon planes of its own
context. -/
def Sys2Proof.Claims.Came (s : State) (p : Nat) (l : ALoad) (rest : List ALoad) (bs : List Byte) (bad : Bool) : Prop :=
  (s.cr p).aloads = l :: rest ∧ (∀ x ∈ rest, x.id ≠ l.id) ∧ l.due ≤ s.now ∧ l.failed = false ∧ (s.cr p).restored = false ∧
    l.look = none ∧ s.waitsPort3 (.aload p l.id) = false ∧ (l.kind.planes = true → (s.cr p).mustClaim (some 32) = none) ∧
    ((l.reads ≠ [] ∧ l.got.length = l.reads.length ∧ l.got.flatMap (·.1) = bs ∧ l.got.any (·.2) = bad) ∨
      ((l.reads = [] ∨ l.got.length ≠ l.reads.length) ∧ s.fetchLoad (fun k => .aload p l.id k) p l.kind = .data bs bad ∧
        ((∃ x va pa pa2 win, l.kind = .bfx x va pa pa2 win) ∨ s.layOk (s.cr p).ctxId l.kind.where_.1 = true)))

/-- The load is done: it is in flight no longer; registers but pattern registers, memory and other cores are unchanged. -/
def Sys2Proof.Claims.Landed (s t : State) (p : Nat) (rest : List ALoad) : Prop :=
  (t.cr p).aloads = rest ∧ { (t.cr p).regs with x := (s.cr p).regs.x } = (s.cr p).regs ∧ t.mem = s.mem ∧ OtherCores s t p

/-- A trap record of a core with a cause waits for the trap FIFO. -/
def Sys2Proof.Claims.Reported (s t : State) (p : Nat) (c : Cause) : Prop :=
  ∃ r, t.trapWait = s.trapWait ++ [(s.now, r)] ∧ r.core = p ∧ bits (r.words.getD 0 0).toNat 0 6 = c.code

/-- R164, R168, R256, R329, R379. Which entry leaves a full TLB is log 18, the cycle of a read behind another home log 19. -/
def Obligations.LoadsArrive : Prop :=
  (∀ (s : State) (p q : Nat) (l : ALoad) (rest : List ALoad) (bs : List Byte), q < 14 → l.kind.queue = some q →
    (Came s p l rest bs false → ∃ t, Happens (.tldLineArrival p q) s t ∧ Landed s t p rest ∧
      (t.cr p).q q = (l.kind.entries bs).foldl (fun cq v => cq.fill l.id s.now v) ((s.cr p).q q) ∧
      (∀ k, k ≠ q → (t.cr p).q k = (s.cr p).q k)) ∧
    (Came s p l rest bs true → ∃ t, Happens (.tldLineArrival p q) s t ∧
      Landed s t p (rest ++ [{ l with failed := true }]) ∧ (t.cr p).queues = (s.cr p).queues ∧
      Reported s t p .uncorrectable)) ∧
  (∀ (s : State) (p area m lay : Nat) (c : DWord) (f : Option (BitVec 4 × Bool)) (l : ALoad) (rest : List ALoad)
      (bs : List Byte), l.kind = .plane area m lay c f → Came s p l rest bs false →
    ∃ t, Happens (.planeLineArrival p) s t ∧ Landed s t p rest ∧ (t.cr p).queues = (s.cr p).queues ∧
      (t.cr p).matrix.shadow.nat (planeArea area + 256 * m) bs.length = bytesVal bs ∧
      (∀ x : BitVec 4 × Bool, f = some x → ((t.cr p).matrix.shadow.fmt, (t.cr p).matrix.shadow.spa) = x) ∧
      (t.cr p).matrix.active1 = (s.cr p).matrix.active1 ∧
      (if (s.cr p).matrix.active1 then (t.cr p).matrix.plane1 = (s.cr p).matrix.plane1
        else (t.cr p).matrix.plane0 = (s.cr p).matrix.plane0)) ∧
  (∀ (s : State) (p k lay : Nat) (c : DWord) (f : BitVec 4) (l : ALoad) (rest : List ALoad) (bs : List Byte),
    l.kind = .planeColumn k lay c f → Came s p l rest bs false →
    ∃ t, Happens (.planeLineArrival p) s t ∧ Landed s t p rest ∧ (t.cr p).queues = (s.cr p).queues ∧
      (t.cr p).matrix.shadow.nat (k * 8 * fmtWidth f.toNat) bs.length = bytesVal bs ∧
      (t.cr p).matrix.shadow.fmt = f ∧ (t.cr p).matrix.shadow.spa = false ∧
      (t.cr p).matrix.active1 = (s.cr p).matrix.active1) ∧
  (∀ (s : State) (p pa pa2 : Nat) (x : BitVec 2) (va : DWord) (win : Bool) (l : ALoad) (rest : List ALoad) (bs : List Byte),
    l.kind = .bfx x va pa pa2 win → Came s p l rest bs false →
    let r : BitVec 576 := BitVec.ofNat 576 (bytesVal bs)
    ∃ t, Happens (.bfxcfgRecordLoaded p) s t ∧ Landed s t p rest ∧ (t.cr p).queues = (s.cr p).queues ∧
      (patOk r = true → (t.cr p).regs.x[x.toNat]? = some ⟨r, true⟩ ∧
        ∀ y : Nat, y ≠ x.toNat → (t.cr p).regs.x[y]? = (s.cr p).regs.x[y]?) ∧
      (patOk r = false → (t.cr p).regs.x = (s.cr p).regs.x ∧ Reported s t p .formatInvalid)) ∧
  (∀ (s : State) (p port ea due : Nat) (rest : List (Nat × Nat × Nat)), port < 4 →
    (s.cr p).lookups.tileReqs = (port, ea, due) :: rest → due ≤ s.now →
    let e := s.tileEntry ea
    ∃ t, Happens (.tileLookupComplete p port) s t ∧ (t.cr p).lookups.tileReqs = rest ∧ (t.cr p).regs = (s.cr p).regs ∧
      OtherCores s t p ∧
      (tileOk e = true → tState e = 0 → s.scrubbed ea = false → ea % 16 = 0 →
        ((t.cr p).lookups.tiles.getD port []).find? (·.1 = ea) = some (ea, e ||| BitVec.ofNat 128 (2 ^ (116 + shedOf p))) ∧
        WroteBytes s t (s.key (ea / 256 * 256) + ea % 256) (valBytes 16 (e ||| BitVec.ofNat 128 (2 ^ (116 + shedOf p))).toNat)) ∧
      (¬ (tileOk e = true ∧ tState e = 0) → t.mem = s.mem ∧ (port, ea) ∈ (t.cr p).lookups.tileDone)) ∧
  ∀ (s : State) (p : Nat) (r : WalkReq) (rest : List WalkReq), (s.cr p).lookups.walks = r :: rest → r.due ≤ s.now →
    (r.hit = none → s.walk r.root r.va ≠ .wait) →
    let filled := fun (c : Core) (e : TlbEntry) => c.lookups.tlb = (e :: (s.cr p).lookups.tlb.filter (· ≠ e)).take 64
    ∃ t, Happens (.pageWalkComplete p) s t ∧ (t.cr p).lookups.walks = rest ∧ (t.cr p).regs = (s.cr p).regs ∧ t.mem = s.mem ∧
      OtherCores s t p ∧
      (∀ e, r.hit = some e → filled (t.cr p) e ∧ t.shedTlbs = s.shedTlbs) ∧
      (∀ level pte, r.hit = none → s.walk r.root r.va = .leaf level pte → pteAllows r.acc pte = true →
        let e : TlbEntry := ⟨r.asid, r.va.toNat % 2 ^ 57 / 2 ^ (12 + 9 * level), level, pte⟩
        filled (t.cr p) e ∧ e ∈ Sparse.get [] t.shedTlbs (shedOf p)) ∧
      ∀ k : Cause, r.hit = none →
        ((∃ a, s.walk r.root r.va = .fail k a) ∨ (k = .pageFault ∧
          (s.walk r.root r.va = .fault ∨ ∃ level pte, s.walk r.root r.va = .leaf level pte ∧ pteAllows r.acc pte = false))) →
        (r.acc, r.asid, r.va.toNat / 2 ^ 12 % 2 ^ 45, s.now, k) ∈ (t.cr p).lookups.walkFaults ∧
          (t.cr p).lookups.tlb = (s.cr p).lookups.tlb ∧ t.shedTlbs = s.shedTlbs

/-! ### Engine commands -/

/-- A command of kind `k` with properties `f` stands at the end of the acting stream's command queue. -/
def Sys2Proof.Claims.Queued (s t : State) (k : EngKind) (f : EngCmd → Prop) : Prop :=
  ∃ e, (if s.stream = .a then t.me.aq = s.me.aq ++ [e] ∧ t.me.dq = s.me.dq else t.me.dq = s.me.dq ++ [e] ∧ t.me.aq = s.me.aq) ∧
    e.kind = k ∧ e.id = s.nextCmd ∧ t.nextCmd = s.nextCmd + 1 ∧ e.core = s.core ∧ e.st = s.stream ∧ e.seq = s.me.seq ∧
    e.started = false ∧ e.finished = false ∧ e.progress = 0 ∧ f e ∧ t.me.regs = s.me.regs ∧ t.me.tokens = s.me.tokens ∧
    t.me.counters = s.me.counters ∧ t.me.flags = s.me.flags ∧ t.me.queues = s.me.queues ∧ t.mem = s.mem ∧ t.core = s.core ∧
    OtherCores s t s.core

/-- The element at coordinates `v` of a bound tensor is inside it (check 3 of R158), at a place that `f` holds of: block, offset. -/
def Sys2Proof.Claims.Within (s : State) (port : Nat) (b : Bound) (v : DWord) (f : Nat → Nat → Prop) : Prop :=
  ∃ blk off bit, inTensor port b v s = .ok ((blk, off, bit), s) ∧ f blk off

/-- The port's tile cache holds the valid entry at `ea` (R255, R256). -/
def Sys2Proof.Claims.Known (s : State) (port ea : Nat) : Prop :=
  (s.me.lookups.tiles.getD port []).length ≤ 256 ∧ s.poisoned ea = false ∧
    ∃ e, (s.me.lookups.tiles.getD port []).find? (·.1 = ea) = some (ea, e) ∧ tileOk e = true

/-- A copy's rows are inside the tensor, within one line each, in blocks whose entries the port holds (R172). -/
def Sys2Proof.Claims.RowsHeld (s : State) (port : Nat) (b : Bound) (bytes : Nat) (rows : List (Option DWord)) : Prop :=
  ∀ r ∈ rows, ∃ v, r = some v ∧ Within s port b v fun blk off => off % 256 + bytes ≤ 256 ∧ Known s port (b.lay.entry blk)

/-- The state after `n` entries of iq have been popped, and the values popped. -/
def Sys2Proof.Claims.indicesTaken (s : State) (n : Nat) : State :=
  s.setMe (s.me.setQ 13 ⟨(s.me.q 13).entries.drop n, (s.me.q 13).pops + n, (s.me.q 13).rpos + n⟩)
def Sys2Proof.Claims.indices (s : State) (n : Nat) : List Nat :=
  (((s.me.q 13).poppable s.now).take n).map fun v => v.toNat % 2 ^ 32

/-- The state after a QC pop of sq2 into d[c], where the bit asks for it (R232). -/
def Sys2Proof.Claims.coordTaken (s : State) (qc : BitVec 1) (c : BitVec 4) : State :=
  if qc = 1 then
    let t := popped s 9
    t.setMe { t.me with regs := { t.me.regs with
      d := t.me.regs.d.setIfInBounds c.toNat ((((s.me.q 9).poppable s.now).headD 0).setWidth 64) } }
  else s

/-- The pop that the bit asks for can be made. -/
def Sys2Proof.Claims.CoordReady (s : State) (qc : BitVec 1) : Prop := qc = 1 → (s.me.q 9).poppable s.now ≠ []

/-- The reducing writes (R242): kind and element width. -/
def Sys2Proof.Claims.rwrs (w : BitVec 2) (q : BitVec 4) (m : BitVec 7) (t : BitVec 6) (c : BitVec 4) (wt sg : BitVec 3)
    (cnt : BitVec 4) (inc : BitVec 8) (qc : BitVec 1) : List (Instr × EngKind × Nat) := [
  (.rwrAddF32 w q m t c wt sg cnt inc qc, .rwrAddF32, 32), (.rwrAddBf16 w q m t c wt sg cnt inc qc, .rwrAddBf16, 16),
  (.rwrMaxF32 w q m t c wt sg cnt inc qc, .rwrMaxF32, 32), (.rwrAddI32 w q m t c wt sg cnt inc qc, .rwrAddI32, 32)]

/-- R170, R228. -/
def Obligations.EngineCommandsIssue : Prop :=
  ∀ (w : BitVec 2) (t t2 : BitVec 6) (c c2 : BitVec 4) (wt sg : BitVec 3) (cnt : BitVec 4) (inc : BitVec 8),
    let tail := fun (e : EngCmd) => e.waitt = wt ∧ e.sigt = sg ∧ e.cnt = cnt ∧ e.inc = inc
    (∀ s : State, commandTokens .a wt sg = true → s.me.aq.length < 16 →
      let v := s.me.regs.a.getD c.toNat 0
      let v2 := s.me.regs.a.getD c2.toNat 0
      let held := fun (s : State) (b : Bound) (v : DWord) => Within s 3 b v fun blk _ => Known s 3 (b.lay.entry blk)
      (∀ a b, binding 3 false t s = .ok (a, s) → binding 3 false t2 s = .ok (b, s) → held s a v → held s b v2 →
        let ops := fun e => tail e ∧ e.lay1 = a.idx ∧ e.c1 = v ∧ e.lay2 = b.idx ∧ e.c2 = v2
        (Can (.xchgP w t c t2 c2 wt sg cnt inc) w s →
          ∃ u, Does (.xchgP w t c t2 c2 wt sg cnt inc) s u ∧ Queued s u .xchgP ops) ∧
        (Can (.xchgD w t c t2 c2 wt sg cnt inc) w s →
          ∃ u, Does (.xchgD w t c t2 c2 wt sg cnt inc) s u ∧ Queued s u .xchgD ops) ∧
        (∀ n : BitVec 7, Can (.xfer w n t c t2 c2 wt sg cnt inc) w s → s.outputOk b.idx = true →
          a.lay.lineStart (coords v) = true → b.lay.lineStart (coords v2) = true →
          (Within s 3 a v fun _ off => off / 256 + n.toNat + 1 ≤ 128) → (Within s 3 b v2 fun _ off => off / 256 + n.toNat + 1 ≤ 128) →
          ∃ u, Does (.xfer w n t c t2 c2 wt sg cnt inc) s u ∧ Queued s u .xfer fun e => ops e ∧ e.n = n.toNat + 1)) ∧
      (∀ (mode : BitVec 2) (a b : Bound), binding 3 false t s = .ok (a, s) → binding 3 true t2 s = .ok (b, s) →
        let r := Region.of b.raw
        r.ok = true → stashFormat mode.toNat a.lay.fmt = true → r.mode = mode.toNat → (v2.extractLsb' 0 16).toNat ≤ r.nslotm1 →
        held s a v →
        let ops := fun e => tail e ∧ e.lay1 = a.idx ∧ e.c1 = v ∧ e.lay2 = b.idx ∧ e.c2 = v2 ∧ e.rb = mode.toNat
        (Can (.stash w mode t c t2 c2 wt sg cnt inc) w s →
          ∃ u, Does (.stash w mode t c t2 c2 wt sg cnt inc) s u ∧ Queued s u .stash ops) ∧
        (Can (.restore w mode t c t2 c2 wt sg cnt inc) w s → s.outputOk a.idx = true →
          ∃ u, Does (.restore w mode t c t2 c2 wt sg cnt inc) s u ∧ Queued s u .restore ops)) ∧
      (∀ (n : BitVec 6) (rb : BitVec 3) (a b : Bound), Can (.gather w n rb t c t2 c2 wt sg cnt inc) w s →
        let k := n.toNat + 1
        let s1 := indicesTaken s k
        let idx := indices s k
        k ≤ ((s.me.q 13).poppable s.now).length → binding 0 false t s1 = .ok (a, s1) → binding 3 false t2 s1 = .ok (b, s1) →
        fmtWidth a.lay.fmt = fmtWidth b.lay.fmt → RowsHeld s1 0 a (16 * 2 ^ rb.toNat) (idx.map (advance v)) →
        RowsHeld s1 3 b (16 * 2 ^ rb.toNat) ((List.range k).map (advance v2)) → s1.outputOk b.idx = true →
        ∃ u, Does (.gather w n rb t c t2 c2 wt sg cnt inc) s u ∧ Queued s1 u .gather fun e =>
          tail e ∧ e.lay1 = a.idx ∧ e.c1 = v ∧ e.lay2 = b.idx ∧ e.c2 = v2 ∧ e.n = k ∧ e.rb = 16 * 2 ^ rb.toNat ∧ e.idx = idx)) ∧
    ∀ (s : State) (q : BitVec 4) (qc qc2 : BitVec 1), commandTokens .d wt sg = true → 4 ≤ q.toNat → q.toNat ≤ 6 → CoordReady s qc →
      (∀ (n : BitVec 6) (rb : BitVec 3) (a b : Bound) (e0 : Line) (rest : List Line),
        Can (.scatter w q n rb t c t2 c2 wt sg cnt inc qc qc2) w s →
        let s1 := coordTaken s qc c
        let s2 := coordTaken s1 qc2 c2
        let s3 := popped s2 q.toNat
        let k := n.toNat + 1
        let v := s3.me.regs.d.getD c.toNat 0
        let v2 := s3.me.regs.d.getD c2.toNat 0
        let idx := (List.range k).map fun j => e0.toNat / 2 ^ (32 * j) % 2 ^ 32
        CoordReady s1 qc2 → (s2.me.q q.toNat).poppable s.now = e0 :: rest → binding 0 false t s3 = .ok (a, s3) →
        binding 3 false t2 s3 = .ok (b, s3) → fmtWidth a.lay.fmt = fmtWidth b.lay.fmt →
        RowsHeld s3 0 a (16 * 2 ^ rb.toNat) ((List.range k).map (advance v)) →
        RowsHeld s3 3 b (16 * 2 ^ rb.toNat) (idx.map (advance v2)) → s3.outputOk b.idx = true → s3.me.dq.length < 8 →
        ∃ u, Does (.scatter w q n rb t c t2 c2 wt sg cnt inc qc qc2) s u ∧ Queued s3 u .scatter fun e =>
          tail e ∧ e.lay1 = a.idx ∧ e.c1 = v ∧ e.lay2 = b.idx ∧ e.c2 = v2 ∧ e.n = k ∧ e.rb = 16 * 2 ^ rb.toNat ∧ e.idx = idx) ∧
      ∀ (m : BitVec 7) (b : Bound) (e0 : Line) (rest : List Line), ∀ x ∈ rwrs w q m t c wt sg cnt inc qc, Can x.1 w s →
        let s1 := coordTaken s qc c
        let s2 := popped s1 q.toNat
        let v := s2.me.regs.d.getD c.toNat 0
        let num := s2.me.drain.rwr.getD (q.toNat - 4) 0
        (s1.me.q q.toNat).poppable s.now = e0 :: rest → binding 3 false t s2 = .ok (b, s2) → fmtWidth b.lay.fmt = x.2.2 →
        (Within s2 3 b v fun blk off => off % (x.2.2 / 8) = 0 ∧ off % 256 + (m.toNat + 1) * (x.2.2 / 8) ≤ 256 ∧
          Known s2 3 (b.lay.entry blk)) →
        s2.outputOk b.idx = true → s2.me.dq.length < 8 →
        ∃ u, Does x.1 s u ∧ u.me.drain.rwr[q.toNat - 4]? = some (num + 1) ∧ Queued s2 u x.2.1 fun e =>
          tail e ∧ e.lay1 = b.idx ∧ e.c1 = v ∧ e.n = m.toNat + 1 ∧ e.data = e0 ∧ e.queue = q.toNat ∧ e.number = num

/-- The command of an identifier at its engines; it is the first of that identifier, unfinished and due. -/
def Sys2Proof.Claims.AtEngine (s : State) (id : Nat) (x : EngCmd) : Prop :=
  s.engines.find? (·.id = id) = some x ∧ x.id = id ∧ x.finished = false ∧ x.due ≤ s.now

/-- The command has gone one part further, and is finished after `n` parts. -/
def Sys2Proof.Claims.Further (t : State) (id : Nat) (x : EngCmd) (n : Nat) : Prop :=
  ∃ y, t.engines.find? (·.id = id) = some y ∧ y.progress = x.progress + 1 ∧ y.finished = decide (x.progress + 1 = n) ∧
    y.failed = x.failed ∧ y.started = x.started ∧ y.kind = x.kind

/-- A plain place of the device: no peer's, and no line of it waits for its scrub. -/
def Sys2Proof.Claims.Plain (s : State) (pa : Nat) : Prop := s.peer? pa = none ∧ s.scrubbed pa = false

/-- Bytes of one line have been written at an address. -/
def Sys2Proof.Claims.WroteAt (s t : State) (pa : Nat) (bs : List Byte) : Prop :=
  WroteBytes s t (s.key (pa / 256 * 256) + pa % 256) bs

/-- A write of port 3 of a near store waits for the end of the cycle (R13); elsewhere its bytes have been written. -/
def Sys2Proof.Claims.PortStored (s t : State) (pa : Nat) (bs : List Byte) : Prop :=
  match place pa with
  | .near _ _ => t.writes = s.writes ++ [⟨3, pa, bs, false⟩] ∧ t.mem = s.mem
  | _ => WroteAt s t pa bs ∧ t.writes = s.writes

/-- A command's access to a place has its turn: port 3 has served it, the place is not in a near store, or it is a read of the gather
engine in its core's near store and one of A's ports is idle (R11). -/
def Sys2Proof.Claims.Turn (s : State) (x : EngCmd) (pa : Nat) (read : Bool) : Prop :=
  x.served = true ∨ (∀ q f, place pa ≠ .near q f) ∨
    (read = true ∧ (x.kind = .gather ∨ x.kind = .scatter) ∧ inNear x.core pa = true ∧
      ((s.cr x.core).gatherPort s.now).isSome = true)

/-- Nothing of any core has changed but the lookups and the ports' turns of core `p`. -/
def Sys2Proof.Claims.CoresButPorts (s t : State) (p : Nat) : Prop :=
  OtherCores s t p ∧ t.cr p = { s.cr p with lookups := (t.cr p).lookups, ports := (t.cr p).ports }

/-- R170 to R174, R241 to R243, R289, R290. -/
def Obligations.EngineCommandsRun : Prop :=
  (∀ (s : State) (p : Nat) (st : Stream) (x : EngCmd) (rest : List EngCmd), st = .a ∨ st = .d →
    (if st = .a then (s.cr p).aq else (s.cr p).dq) = x :: rest → (s.cr p).frozen = false →
    (st = .d → (s.cr p).clocked = true) →
    (x.waitt = 7 ∨ ∃ k r, (s.cr p).tokens[x.waitt.toNat]? = some (k :: r) ∧ k.countable = true) →
    (x.kind.reduces = true → (s.engines.filter fun y =>
      y.kind.reduces && y.core = p && y.task = x.task && y.queue = x.queue).length < 8) →
    (s.cr p).settled st x.seq = true →
    ∃ t due, Happens (.engineCommandDispatch p st) s t ∧ t.engines = s.engines ++ [{ x with due := due }] ∧ s.now < due ∧
      (if st = .a then (t.cr p).aq = rest else (t.cr p).dq = rest) ∧ (x.waitt = 7 → (t.cr p).tokens = (s.cr p).tokens) ∧
      (∀ k r, x.waitt ≠ 7 → (s.cr p).tokens[x.waitt.toNat]? = some (k :: r) → (t.cr p).tokens[x.waitt.toNat]? = some r) ∧
      (t.cr p).regs = (s.cr p).regs ∧ t.mem = s.mem ∧ OtherCores s t p) ∧
  (∀ (s : State) (id : Nat) (x : EngCmd), (s.engines.find? fun y => y.id = id && y.finished) = some x →
    (s.cr x.core).runsTask x.task = true → (x.sigt.toNat < 6 → ((s.cr x.core).tokens.getD x.sigt.toNat []).length < 63) →
    (x.sigt.toNat < 6 ∨ x.sigt = 7) →
    ∃ t, Happens (.engineCommandCompletion id) s t ∧ t.engines = s.engines.filter (·.id ≠ id) ∧
      (∀ v, (s.cr x.core).counters[x.cnt.toNat]? = some v → (t.cr x.core).counters[x.cnt.toNat]? = some (BitVec.ofNat 32
        ((v.toNat + x.inc.toNat) % 2 ^ 31 + if x.failed ∨ 2 ^ 31 ≤ v.toNat then 2 ^ 31 else 0))) ∧
      (∀ k, k ≠ x.cnt.toNat → (t.cr x.core).counters[k]? = (s.cr x.core).counters[k]?) ∧
      (t.cr x.core).tokens = (if x.sigt = 7 then (s.cr x.core).tokens else
        (s.cr x.core).tokens.setIfInBounds x.sigt.toNat ((s.cr x.core).tokens.getD x.sigt.toNat [] ++ [⟨0, true⟩])) ∧
      (t.cr x.core).regs = (s.cr x.core).regs ∧ t.mem = s.mem ∧ OtherCores s t x.core) ∧
  (∀ y ∈ [(Instr.gatherExecute, EngKind.gather), (.scatterExecute, .scatter), (.xferExecute, .xfer)],
    ∀ (s : State) (id : Nat) (x : EngCmd), AtEngine s id x → x.kind = y.2 →
    (x.started = false → s.copyCheck x = .go → (x.st = .d → (s.cr x.core).clocked = true) →
      (∀ r ∈ s.copyTiles x, s.tileKnown x.core r.1 r.2 = true) →
      (∀ z ∈ s.engines, z.core = x.core → z.kind ∈ [.gather, .scatter, .xfer] → z.before x = true →
        z.started = true ∨ z.finished = true) →
      ∃ t, Happens (y.1 id) s t ∧ t.engines.find? (·.id = id) = some (s.startCmd x) ∧ t.mem = s.mem ∧
        CoresButPorts s t x.core) ∧
    (x.started = true →
      let r := s.copyRow x x.progress
      let ea := (s.cmdLay x x.lay1).entry r.blk
      (∀ bs, x.row = none → s.readBlock x.reads ea r.off (if x.kind = .xfer then 256 else x.rb) = .data bs false →
        Turn s x ((s.spotLate ea r.off).getD 0) true →
        ∃ t, Happens (y.1 id) s t ∧ t.engines.find? (·.id = id) = some { x with row := some bs, served := false } ∧
          t.mem = s.mem ∧ t.writes = s.writes ∧ CoresButPorts s t x.core) ∧
      ∀ bs pa, x.row = some bs → s.destOf (s.cmdLay x x.lay2) r.blk2 r.off2 true = .at pa → Plain s pa → Turn s x pa false →
        ∃ t, Happens (y.1 id) s t ∧ Further t id x x.n ∧ PortStored s t pa bs ∧ t.cores = s.cores)) ∧
  (∀ (s : State) (id : Nat) (x : EngCmd), AtEngine s id x → x.started = true →
    let l := s.cmdLay x x.lay1
    let blk := (l.place (coords x.c1)).1
    let base := s.slotBase x
    let wide := stashBits x.rb
    let per := 2048 / (64 * wide)
    let n := groupBytes x.rb
    (∀ bs, x.kind = .stash → x.rb < 4 → s.readBlock x.reads (l.entry blk) (256 * x.progress) 256 = .data bs false →
      bs.length = 256 → Turn s x ((s.spotLate (l.entry blk) (256 * x.progress)).getD 0) true → inYard base = true →
      inYard (base + slotBytes x.rb) = true → x.progress < 128 →
      (∀ a, base ≤ a → a < base + slotBytes x.rb → s.scrubbed a = false ∧ s.farLink a = .ok) →
      let stw := (s.cmdRegion x).stw
      inYard stw = true → s.scrubbed stw = false → s.farLink stw = .ok → s.poisoned stw = false →
      let group := fun (i : Nat) =>
        stashEncode (codeBits x.rb) l.fmt ((List.range 64).map fun k => elem (bytesVal bs) wide (64 * i + k))
      let nans := x.nans + ((List.range per).filter fun i => (group i).2.2).length
      ∃ t m, Happens (.stashEncode id) s t ∧ Further t id x 128 ∧ (t.engines.find? (·.id = id)).map (·.nans) = some nans ∧
        t.cores = s.cores ∧
        let u : State := { s with mem := m }
        WroteBytes s u (base + per * x.progress * n) ((List.range per).flatMap fun i =>
          stashBytes (codeBits x.rb) (group i).1 (group i).2.1) ∧
        (if nans = 0 ∨ x.progress ≠ 127 then ∀ a, byteAt t a = byteAt u a
          else WroteBytes u t stw (valBytes 8 (2 ^ 63 + min 65535 (u.readNat stw 8 % 65536 + nans))))) ∧
    (∀ pa, x.kind = .restore →
      let parts := (List.range per).flatMap fun i => lineParts (base + (per * x.progress + i) * n) n
      let bs := parts.flatMap fun q => s.readBytes q.1 q.2.2
      (∀ q ∈ parts, s.poisoned q.1 = false ∧ s.farLink q.1 = .ok) → s.destOf l blk (256 * x.progress) true = .at pa →
      Plain s pa → Turn s x pa false →
      ∃ t, Happens (.restoreDecode id) s t ∧ Further t id x 128 ∧ t.cores = s.cores ∧
        PortStored s t pa (valBytes 256 (pack wide ((List.range per).flatMap fun i =>
          stashDecode (codeBits x.rb) l.fmt ((bs.drop (i * n)).take n)))))) ∧
  ∀ (s : State) (id pa : Nat) (x : EngCmd), AtEngine s id x → x.kind.reduces = true →
    (∀ z ∈ s.engines, z.kind.reduces = true → z.source = x.source → x.id ≤ z.id ∨ z.finished = true) →
    let l := s.cmdLay x x.lay1
    let at_ := l.place (coords x.c1)
    let ea := l.entry at_.1
    (x.started = false → (s.cr x.core).clocked = true → s.laysCheck x [x.lay1] = .go → s.tileKnown x.core 3 ea = true →
      s.tilesCheck [(ea, s.tileEntry ea)] = .go →
      ∃ t, Happens (.reduceRequestApply id) s t ∧ t.engines.find? (·.id = id) = some (s.startCmd x) ∧ t.mem = s.mem ∧
        t.windows = s.windows ∧ CoresButPorts s t x.core) ∧
    (x.started = true → s.destOf l at_.1 at_.2.1 true = .at pa → Plain s pa → s.poisoned pa = false → Turn s x pa false →
    let win := fun (v : Window) => v.unit = s.unitOf pa && v.source = x.source && v.launch = x.task.launch
    (s.windows.find? win = none → (s.windows.filter fun v => v.unit = s.unitOf pa).length < 32768 →
      ∃ t y, Happens (.reduceRequestApply id) s t ∧ t.engines.find? (·.id = id) = some y ∧ y.finished = true ∧ y.failed = x.failed ∧
        t.windows = s.windows ++ [⟨s.unitOf pa, x.source, x.number, 1, x.task.launch⟩] ∧ t.cores = s.cores ∧
        PortStored s t pa (s.reduceBytes x.kind pa x.rb x.n x.data)) ∧
    (∀ v, s.windows.find? win = some v → v.has x.number = true →
      ∃ t y, Happens (.reduceRequestApply id) s t ∧ t.engines.find? (·.id = id) = some y ∧ y.finished = true ∧
        t.windows = s.windows ∧ t.mem = s.mem ∧ t.writes = s.writes ∧ t.cores = s.cores))

/-! ### Exchanges -/

/-- A place in near or yard memory, where an address is its own key (R254). -/
def Sys2Proof.Claims.inPackage (pa : Nat) : Bool :=
  match place pa with
  | .near _ _ | .yard _ => true
  | _ => false

/-- The shunter runs `x`, whose entries lie in yard memory, apart from each other and from the frames that it exchanges. -/
def Sys2Proof.Claims.Exchanging (s : State) (n : Nat) (x : Exchange) : Prop :=
  (s.shunter n).run = some x ∧ inYard x.e1 = true ∧ inYard x.e2 = true ∧ x.e1 % 16 = 0 ∧ x.e2 % 16 = 0 ∧ x.e1 ≠ x.e2 ∧
    x.f1 % 32768 = 0 ∧ x.f2 % 32768 = 0 ∧ x.f1 ≠ x.f2 ∧
    ∀ e ∈ [x.e1, x.e2], ∀ f ∈ [x.f1, x.f2], e / 32768 ≠ f / 32768

/-- Line `l` of both frames holds what line `l` of the other held, and every other line of them what it held. -/
def Sys2Proof.Claims.Crossed (s t : State) (x : Exchange) (l : Nat) : Prop :=
  t.readBytes (x.f1 + 256 * l) 256 = s.readBytes (x.f2 + 256 * l) 256 ∧
  t.readBytes (x.f2 + 256 * l) 256 = s.readBytes (x.f1 + 256 * l) 256 ∧
  ∀ f ∈ [x.f1, x.f2], ∀ k < 128, k ≠ l → t.readBytes (f + 256 * k) 256 = s.readBytes (f + 256 * k) 256

/-- Both entries are RESIDENT: crossed, each has the frame that the other had. -/
def Sys2Proof.Claims.Settled (s t : State) (n : Nat) (x : Exchange) (crossed : Bool) : Prop :=
  let a := s.tileEntry x.e1
  let b := s.tileEntry x.e2
  let a' := t.tileEntry x.e1
  let b' := t.tileEntry x.e2
  (t.shunter n).run = none ∧ tState a' = 0 ∧ tState b' = 0 ∧ tShr a' = 0 ∧ tShr b' = 0 ∧ tV a' = tV a ∧ tV b' = tV b ∧
  (if crossed then tLevel a' = tLevel b ∧ tFrame a' = tFrame b ∧ tLevel b' = tLevel a ∧ tFrame b' = tFrame a
    else tLevel a' = tLevel a ∧ tFrame a' = tFrame a ∧ tLevel b' = tLevel b ∧ tFrame b' = tFrame b)

/-- No tile cache of a core holds an entry of the exchange (R256). -/
def Sys2Proof.Claims.Unshared (t : State) (a b : Nat) : Prop :=
  ∀ p port k v, (k, v) ∈ (t.cr p).lookups.tiles.getD port [] → k ≠ a ∧ k ≠ b

/-- R258 to R262. -/
def Obligations.ExchangesRun : Prop :=
  (∀ y ∈ [(Instr.xchgPStart, EngKind.xchgP), (.xchgDStart, .xchgD)], ∀ (s : State) (n a b : Nat) (x : EngCmd),
    s.nextWork n = some (.cmd x a b) → x.kind = y.2 → s.laysCheck x [x.lay1, x.lay2] = .go → s.poisoned a = false →
    s.poisoned b = false → tileOk (s.tileEntry a) = true → tileOk (s.tileEntry b) = true → a ≠ b →
    inYard a = true → inYard b = true → a % 16 = 0 → b % 16 = 0 → s.refusesBlock x.task.ctx (s.tileEntry a) = none →
    s.refusesBlock x.task.ctx (s.tileEntry b) = none →
    ∃ t r, Happens (y.1 n) s t ∧ (t.shunter n).run = some r ∧ r.e1 = a ∧ r.e2 = b ∧ r.cursor = 0 ∧ r.rollback = false ∧
      r.f1 = tBase (s.tileEntry a) ∧ r.f2 = tBase (s.tileEntry b) ∧ r.placement = decide (y.2 = .xchgP) ∧ r.marked = false ∧
      s.now < r.due ∧ t.mem = s.mem ∧ Unshared t a b) ∧
  (∀ (s : State) (n : Nat) (x : Exchange), Exchanging s n x → inPackage x.f1 = true → inPackage x.f2 = true →
    (x.rollback = false → x.cursor < 128 → s.mustRollBack x = false → x.marked = false → x.due ≤ s.now →
      ∃ t, Happens (.exchangeLineSwap n) s t ∧
        (t.shunter n).run = some { x with marked := true, drained := x.placement, due := s.now + x.per } ∧ Unshared t x.e1 x.e2 ∧
        (∀ e ∈ [(x.e1, x.e2), (x.e2, x.e1)], tState (t.tileEntry e.1) = (if x.placement then 1 else 2) ∧
          tPartner (t.tileEntry e.1) = e.2 ∧ tCursor (t.tileEntry e.1) = 0 ∧ tRb (t.tileEntry e.1) = false ∧
          tShr (t.tileEntry e.1) = 0 ∧ tV (t.tileEntry e.1) = tV (s.tileEntry e.1) ∧
          tLevel (t.tileEntry e.1) = tLevel (s.tileEntry e.1) ∧ tFrame (t.tileEntry e.1) = tFrame (s.tileEntry e.1)) ∧
        ∀ f ∈ [x.f1, x.f2], ∀ k < 128, t.readBytes (f + 256 * k) 256 = s.readBytes (f + 256 * k) 256) ∧
    (x.rollback = false → x.cursor < 128 → s.mustRollBack x = false → x.marked = true → x.drained = true → x.due ≤ s.now →
      s.linkWaits x = false →
      ∃ t r, Happens (.exchangeLineSwap n) s t ∧ Crossed s t x x.cursor ∧ (t.shunter n).run = some r ∧ r.cursor = x.cursor + 1 ∧
        ∀ p, t.cr p = (s.cr p).follow (x.crossed x.cursor)) ∧
    (x.rollback = false → x.cursor < 128 → s.mustRollBack x = false → x.marked = true → x.drained = false →
      s.inFlight x = false →
      ∃ t r, Happens (.exchangeLineSwap n) s t ∧ (t.shunter n).run = some r ∧ r = { x with drained := true, due := r.due } ∧
        t.mem = s.mem ∧ t.cores = s.cores) ∧
    (x.backDue s.now = true → s.farLink x.f1 = .ok → s.farLink x.f2 = .ok →
      x.cursor ≤ 128 →
      ∃ t r, Happens (.rollbackLineSwap n) s t ∧ Crossed s t x (x.cursor - 1) ∧ (t.shunter n).run = some r ∧
        r.cursor = x.cursor - 1 ∧ ∀ p, t.cr p = (s.cr p).follow (x.crossed (x.cursor - 1)))) ∧
  ∀ (s : State) (n : Nat) (x : Exchange), Exchanging s n x →
    (s.mustRollBack x = true →
      ∃ t r, Happens (.exchangeRollbackStart n) s t ∧ (t.shunter n).run = some r ∧ r.rollback = true ∧ r.cursor = x.cursor ∧
        (x.marked = true → tRb (t.tileEntry x.e1) = true ∧ tRb (t.tileEntry x.e2) = true) ∧
        (x.marked = false → t.mem = s.mem) ∧ t.cores = s.cores) ∧
    (x.backDue s.now = true → s.linkLost x = true →
      ∃ t r, Happens (.rollbackLinkLost n) s t ∧ (t.shunter n).run = some r ∧ r.cursor = x.cursor - 1 ∧ r.linkLost = true ∧
        t.cores = s.cores ∧ ∀ f ∈ [x.f1, x.f2], s.key (f + 256 * (x.cursor - 1)) / 256 ∈ t.poison) ∧
    (∀ y s1, x.rollback = false → x.cursor = 128 → x.marked = true → x.due ≤ s.now → s.mustRollBack x = false → x.cmd = some y → s.deliver { y with failed := false } = some s1 →
      ∃ t, Happens (.exchangeCommit n) s t ∧ Settled s t n x x.placement ∧ t.engines = s.engines.filter (·.id ≠ y.id) ∧
        t.cores = s1.cores) ∧
    (∀ y s1, x.rollback = true → x.cursor = 0 → s.exchangeDoomed x = false → x.cmd = some y →
      s.deliver { y with failed := true } = some s1 →
      ∃ t r, Happens (.rollbackComplete n) s t ∧ (x.marked = true → Settled s t n x false) ∧
        (x.marked = false → (t.shunter n).run = none ∧ t.mem = s.mem) ∧ t.engines = s.engines.filter (·.id ≠ y.id) ∧
        t.cores = s1.cores ∧ (s.now, r) ∈ t.trapWait ∧ r.core = y.core ∧
        bits (r.words.getD 0 0).toNat 0 6 = Cause.exchangeAborted.code)

/-- The completion word of a record has received its increment, and bit 31 on a failure (R270). -/
def Sys2Proof.Claims.Completed (s t : State) (r : Service) (fail : Bool) : Prop :=
  WroteAt s t r.done.toNat (valBytes 4 (bumpCounter (BitVec.ofNat 32 (s.readNat r.done.toNat 4)) r.inc fail).toNat)

/-- R257, R270. -/
def Obligations.ServiceRecords : Prop :=
  (∀ y ∈ [(Instr.serviceXchgP, 0), (.serviceXchgD, 1)], ∀ (s : State) (n : Nat) (r : Service),
    s.nextWork n = some (.service r) → r.op = y.2 →
    let a := r.e1.toNat
    let b := r.e2.toNat
    ((r.ok = false ∨ s.poisoned a = true ∨ s.poisoned b = true ∨ s.serviceRefused a b = true) → s.scrubbed r.done.toNat = false → r.done.toNat % 4 = 0 →
      ∃ t, Happens (y.1 n) s t ∧ (t.shunter n).service = (s.shunter n).service.erase r ∧ (t.shunter n).run = none ∧
        Completed s t r true ∧ t.cores = s.cores) ∧
    (r.ok = true → s.poisoned a = false → s.poisoned b = false → s.serviceRefused a b = false → a ≠ b →
      ∃ t x, Happens (y.1 n) s t ∧ (t.shunter n).service = (s.shunter n).service.erase r ∧ (t.shunter n).run = some x ∧
        x.e1 = a ∧ x.e2 = b ∧ x.cursor = 0 ∧ x.placement = decide (y.2 = 0) ∧ x.cmd = none ∧ x.inc = r.inc ∧
        x.done = r.done.toNat)) ∧
  (∀ (s : State) (n : Nat) (r : Service), s.nextWork n = some (.service r) → r.op = 2 →
    let a := r.e1.toNat
    let b := r.e2.toNat
    ((r.ok = false ∨ s.poisoned a = true ∨ s.poisoned b = true ∨ s.grantFrames a b = none) → s.scrubbed r.done.toNat = false → r.done.toNat % 4 = 0 →
      ∃ t, Happens (.grant n) s t ∧ (t.shunter n).service = (s.shunter n).service.erase r ∧ Completed s t r true ∧
        t.cores = s.cores) ∧
    (∀ c2, r.ok = true → s.poisoned a = false → s.poisoned b = false → a ≠ b → tileOk (s.tileEntry a) = true → s.isVoid (s.tag (tBase (s.tileEntry a))).owner a = true →
      s.refusesBlock (s.tag (tBase (s.tileEntry a))).owner (s.tileEntry a) = none → tV (s.tileEntry b) = true →
      s.identityCtx b = some c2 → tState (s.tileEntry b) = 3 → inYard a = true → inYard b = true → inYard r.done.toNat = true →
      r.done.toNat % 4 = 0 → r.done.toNat / 256 ≠ a / 256 → r.done.toNat / 256 ≠ b / 256 →
      r.done.toNat / 32768 ≠ tBase (s.tileEntry a) / 32768 → a / 32768 ≠ tBase (s.tileEntry a) / 32768 →
      b / 32768 ≠ tBase (s.tileEntry a) / 32768 →
      ∃ t, Happens (.grant n) s t ∧ (t.shunter n).service = (s.shunter n).service.erase r ∧
        tState (t.tileEntry a) = 3 ∧ tState (t.tileEntry b) = 0 ∧ tLevel (t.tileEntry b) = tLevel (s.tileEntry a) ∧
        tFrame (t.tileEntry b) = tFrame (s.tileEntry a) ∧ (t.tag (tBase (s.tileEntry a))).owner = c2 ∧
        (t.tag (tBase (s.tileEntry a))).scrub = BitVec.allOnes 128)) ∧
  ∀ (s : State) (frame line : Nat), line < 128 → s.scrubbed (frame * 32768 + line * 256) = true →
    ∃ t, Happens (.idleScrubWrite frame line) s t ∧ t.scrubbed (frame * 32768 + line * 256) = false ∧
      WroteAt s t (frame * 32768 + line * 256) (List.replicate 256 0) ∧ t.cores = s.cores

/-! ### The matrix engine -/

/-- Matrix commands of kinds `ks` stand behind the earlier ones; slots, planes, registers, flags and memory are as they were. -/
def Sys2Proof.Claims.MatrixAdded (s t : State) (ks : List MKind) : Prop :=
  ∃ ms, t.me.matrix.queue = s.me.matrix.queue ++ ms ∧ ms.map (·.kind) = ks ∧ (∀ m ∈ ms, m.rows = 0 ∧ m.issued = s.me.clk) ∧
    ms.map (·.seq) = (List.range ks.length).map (s.me.seq + ·) ∧ t.me.matrix.slots = s.me.matrix.slots ∧
    t.me.matrix.plane0 = s.me.matrix.plane0 ∧ t.me.matrix.plane1 = s.me.matrix.plane1 ∧ t.me.regs = s.me.regs ∧
    t.me.flags = s.me.flags ∧ t.mem = s.mem ∧ t.core = s.core ∧ OtherCores s t s.core

/-- Fewer than 8 commands of instructions wait (R183). -/
abbrev Sys2Proof.Claims.MatrixRoom (s : State) : Prop := (s.me.matrix.queue.filter fun c => c.kind.counted).length < 8

/-- resolve(L) of R193: the slot, and the commands that mapping it queues; none where SLOT_EXHAUSTED is raised. -/
def Sys2Proof.Claims.resolved (m : Matrix) (l : BitVec 6) : Option (Nat × List MKind) :=
  match m.slotOf l, m.freeSlot, m.polFault, m.freeImage with
  | some x, _, _, _ => some (x, [])
  | none, some x, _, _ => some (x, [.zeroSlot x])
  | none, none, false, some i => some (m.victim, [.spill m.victim (m.imageFrame i) false, .zeroSlot m.victim])
  | _, _, _, _ => none

/-- The instruction raises an exception with nothing to report but its cause, after the pops that it keeps. -/
def Sys2Proof.Claims.Raises (i : Instr) (s : State) (c : Cause) (keep : List (Nat × Option Nat)) : Prop :=
  Happens i s (s.laneTrap c 0 keep none)

/-- One entry of a queue has been popped, and no other queue has changed. -/
def Sys2Proof.Claims.Popped (s t : State) (q : Nat) : Prop :=
  t.me.q q = ⟨(s.me.q q).entries.drop 1, (s.me.q q).pops + 1, (s.me.q q).rpos + 1⟩ ∧ ∀ k, k ≠ q → t.me.q k = s.me.q k

/-- The map of labels, the images, the policy and the spill area are as they were. -/
def Sys2Proof.Claims.SameMap (s t : State) : Prop :=
  t.me.matrix.map = s.me.matrix.map ∧ t.me.matrix.images = s.me.matrix.images ∧ t.me.matrix.polFault = s.me.matrix.polFault ∧
    t.me.matrix.area = s.me.matrix.area

/-- R188 to R198. -/
def Obligations.MatrixCommands : Prop :=
  (∀ (w : BitVec 2) (s : State), Can (.mflip w) w s → MatrixRoom s →
    ∃ t, Does (.mflip w) s t ∧ MatrixAdded s t [.flip] ∧ SameMap s t ∧ t.me.queues = s.me.queues) ∧
  (∀ (w : BitVec 2) (q sq : BitVec 4) (row0 nr : BitVec 6) (iq : BitVec 2) (s : State), q.toNat ≤ 3 → MatrixRoom s →
    ∀ y ∈ [(Instr.mstream w q row0 sq nr, row0.toNat, none), (.mstreamIdx w q sq iq nr, 0, some iq.toNat)], Can y.1 w s →
    ((s.me.q 12).poppable s.now = [] → Raises y.1 s .formatUnderflow []) ∧
    ∀ (head : Line) (rest : List Line), (s.me.q 12).poppable s.now = head :: rest →
      let x : Word := head.setWidth 32
      let p := (s.ownPlanes s.core).nextPlane
      (formatOk x p.fmt p.spa = false → Raises y.1 s .formatInvalid [(12, none)]) ∧
      (formatOk x p.fmt p.spa = true → (fwMx x = true → sq ≠ q) →
        (∀ i, y.2.2 = some i → i ≠ q.toNat ∧ (fwMx x = true → i ≠ sq.toNat)) →
        (resolved s.me.matrix (fwLabel x) = none → Raises y.1 s .slotExhausted []) ∧
        ∀ slot ks, resolved s.me.matrix (fwLabel x) = some (slot, ks) →
          ∃ t, Does y.1 s t ∧ Popped s t 12 ∧ t.me.matrix.slotOf (fwLabel x) = some slot ∧
            Sparse.get 0 t.me.matrix.use slot = s.me.seq + ks.length ∧
            MatrixAdded s t (ks ++ [.stream slot x q.toNat sq.toNat y.2.1 (nr.toNat + 1) y.2.2]) ∧
            (ks = [] → SameMap s t))) ∧
  (∀ (w : BitVec 2) (l : BitVec 6) (s : State),
    (Can (.mzero w l) w s → MatrixRoom s → ∃ t, Does (.mzero w l) s t ∧ MatrixAdded s t [.zero (s.me.matrix.slotOf l)] ∧
      t.me.matrix.map = s.me.matrix.map ∧ t.me.matrix.images = s.me.matrix.images.filter (·.label ≠ l)) ∧
    (Can (.slotfree w l) w s → MatrixRoom s → ∃ t, Does (.slotfree w l) s t ∧ MatrixAdded s t [.free] ∧
      t.me.matrix.map = s.me.matrix.map.filter (·.1 ≠ l.toNat) ∧ t.me.matrix.images = s.me.matrix.images.filter (·.label ≠ l)) ∧
    (Can (.slotfreeAll w) w s → MatrixRoom s → ∃ t, Does (.slotfreeAll w) s t ∧ MatrixAdded s t [.free] ∧
      t.me.matrix.map = [] ∧ t.me.matrix.images = []) ∧
    (Can (.mspill w l) w s → MatrixRoom s →
      (s.me.matrix.slotOf l = none → ∃ t, Does (.mspill w l) s t ∧ MatrixAdded s t [.free] ∧ SameMap s t) ∧
      (∀ slot, s.me.matrix.slotOf l = some slot →
        (s.me.matrix.polFault = true ∨ s.me.matrix.freeImage = none → Raises (.mspill w l) s .slotExhausted []) ∧
        (∀ i, s.me.matrix.polFault = false → s.me.matrix.freeImage = some i →
          ∃ t, Does (.mspill w l) s t ∧ MatrixAdded s t [.spill slot (s.me.matrix.imageFrame i) true] ∧
            t.me.matrix.map = s.me.matrix.map.filter (·.1 ≠ l.toNat) ∧
            t.me.matrix.images = s.me.matrix.images ++ [⟨i, l⟩]))) ∧
    (∀ slot : BitVec 5, Can (.slotmapMap w slot l) w s →
      ((s.me.matrix.slotOf l).isSome = true ∨ (∃ x ∈ s.me.matrix.map, x.2 = slot.toNat) →
        Raises (.slotmapMap w slot l) s .illegalInstruction []) ∧
      (s.me.matrix.slotOf l = none → (∀ x ∈ s.me.matrix.map, x.2 ≠ slot.toNat) →
        ∃ t, Does (.slotmapMap w slot l) s t ∧ MatrixAdded s t [.zeroSlot slot.toNat] ∧
          t.me.matrix.map = s.me.matrix.map ++ [(l.toNat, slot.toNat)] ∧ Sparse.get 0 t.me.matrix.use slot.toNat = s.me.seq)) ∧
    (∀ d : BitVec 5, Can (.slotmapRead w d l) w s → d.toNat < 8 →
      ∃ t, Does (.slotmapRead w d l) s t ∧ t.me.matrix = s.me.matrix ∧ t.mem = s.mem ∧ OtherCores s t s.core ∧
        (∀ k, t.me.regs.k[k]? = if k = d.toNat then some (BitVec.ofNat 32 (64 * (s.me.matrix.imagesOf l).length +
          match s.me.matrix.slotOf l with | some x => 32 + x | none => 0)) else s.me.regs.k[k]?))) ∧
  (∀ (w : BitVec 2) (q : BitVec 4) (l : BitVec 6) (s : State), Can (.bind w q l) w s → q.toNat ≤ 3 → MatrixRoom s →
    ((s.me.q 8).poppable s.now = [] → Waits (.bind w q l) s 0 8) ∧
    ∀ (head : Line) (rest : List Line), (s.me.q 8).poppable s.now = head :: rest →
      (resolved s.me.matrix l = none → Raises (.bind w q l) s .slotExhausted []) ∧
      ∀ slot ks, resolved s.me.matrix l = some (slot, ks) →
        ∃ t srcs, Does (.bind w q l) s t ∧ Popped s t 8 ∧ MatrixAdded s t (ks ++ [.bind slot q.toNat srcs]) ∧
          t.me.matrix.slotOf l = some slot ∧ t.me.matrix.imagesOf l = [] ∧
          (ks = [] → srcs = ((List.range 64).filter head.getLsbD).map fun k =>
            (s.me.matrix.slotOf (BitVec.ofNat 6 k), (s.me.matrix.imagesOf (BitVec.ofNat 6 k)).map s.me.matrix.imageFrame))) ∧
  ∀ (w : BitVec 2) (s : State),
    let pin := fun (t : State) (f : Nat) => (t.tag (Config.nearBase + s.core * 2 ^ 22 + f * 2 ^ 15)).pin
    (∀ (nim : BitVec 6) (first : BitVec 7), Can (.slotcfg w nim first) w s →
      (s.me.matrix.images ≠ [] →
        Happens (.slotcfg w nim first) s (s.laneTrap .accessViolation 0 [] (some ⟨4 * s.core + 3, 0x06, 0, false⟩))) ∧
      (s.me.matrix.images = [] →
        (∀ i ≤ nim.toNat, let o := (s.tag (Config.nearBase + s.core * 2 ^ 22 + (first.toNat + i) * 2 ^ 15)).owner
          o = 0 ∨ o = s.me.ctxId) →
        ∃ t, Does (.slotcfg w nim first) s t ∧ MatrixAdded s t [] ∧ t.me.matrix.area = some (first.toNat, nim.toNat + 1) ∧
          t.me.matrix.polFault = false ∧ t.me.matrix.map = s.me.matrix.map ∧
          ∀ i ≤ nim.toNat, pin t (first.toNat + i) = true)) ∧
    (Can (.slotcfgFault w) w s →
      (s.me.matrix.images ≠ [] →
        Happens (.slotcfgFault w) s (s.laneTrap .accessViolation 0 [] (some ⟨4 * s.core + 3, 0x06, 0, false⟩))) ∧
      (s.me.matrix.images = [] → ∃ t, Does (.slotcfgFault w) s t ∧ MatrixAdded s t [] ∧ t.me.matrix.area = none ∧
        t.me.matrix.polFault = true ∧ t.me.matrix.map = s.me.matrix.map ∧
        ∀ first n, s.me.matrix.area = some (first, n) → ∀ i < n, pin t (first + i) = false)) ∧
    ∀ n : BitVec 12, Can (.mhint w n) w s → ∃ t, Does (.mhint w n) s t ∧ MatrixAdded s t [] ∧ SameMap s t ∧
      t.me.matrix.hint = some (s.me.clk + n.toNat) ∧ (s.me.matrix.warm = true → t.me.matrix.rampEnd = none) ∧
      (s.me.matrix.warm = false → s.me.matrix.rampEnd = none →
        t.me.matrix.rampEnd = some (max s.me.clk (s.me.clk + n.toNat - 16) + 16))

/-- Element `n` of row `r` of a slot. -/
def Sys2Proof.Claims.slotElem (c : Core) (slot r n : Nat) : DWord := Sparse.get 0 c.matrix.slots (slot * 4096 + r * 64 + n)

/-- Nothing but the matrix engine of core `p`, and what the second part names, has changed. -/
def Sys2Proof.Claims.OnlyMatrix (s t : State) (p : Nat) : Prop :=
  { t.cr p with matrix := (s.cr p).matrix } = s.cr p ∧ t.mem = s.mem ∧ OtherCores s t p

/-- The clock of core `p` runs: it is not frozen, stalled, or stopped by a fault of joined mode (R20, R178, R367). -/
def Sys2Proof.Claims.Clocked (s : State) (p : Nat) : Prop :=
  (s.cr p).freezeHeld = false ∧ (s.cr p).thawed = false ∧ (s.cr p).stalled = none ∧
    ((s.cr p).forked = true ∨ (s.cr p).stops = [])

/-- A factor or a product: a NaN, an infinity with its sign, or an exact value. -/
abbrev Sys2Proof.Claims.Factor := Option Bool ⊕ Rat
def Sys2Proof.Claims.factor : Machine.Num → Factor
  | .nan => .inl none
  | .inf neg => .inl (some neg)
  | .zero _ => .inr 0
  | .fin m e => .inr (m * 2 ^ e)

/-- The number has a value. -/
def Sys2Proof.Claims.HasValue (y : Machine.Num) (v : Rat) : Prop := factor y = .inr v

/-- The sign of a factor. -/
def Sys2Proof.Claims.isNegative : Factor → Bool
  | .inl (some neg) => neg
  | .inl none => false
  | .inr v => decide (v < 0)

/-- One of the factors is `f`. -/
def Sys2Proof.Claims.among (fs : List Factor) (f : Factor) : Bool := fs.any fun g => decide (g = f)

/-- A product of factors by R97: NaN, an infinity of a sign, or the exact product. -/
def Sys2Proof.Claims.product (fs : List Factor) : Factor :=
  let infinite := fs.any fun f => decide (f = .inl (some true) ∨ f = .inl (some false))
  if among fs (.inl none) || (infinite && among fs (.inr 0)) then .inl none
  else if infinite then .inl (some (decide ((fs.filter isNegative).length % 2 = 1)))
  else .inr (fs.map fun f => match f with | .inr v => v | .inl _ => 0).prod

/-- The sum of a group by the table of R97. -/
def Sys2Proof.Claims.GroupSumIs (ps : List Factor) (sum : Machine.Num) : Prop :=
  if among ps (.inl none) = true ∨ (among ps (.inl (some true)) = true ∧ among ps (.inl (some false)) = true) then sum = .nan
  else if among ps (.inl (some true)) = true then sum = .inf true
  else if among ps (.inl (some false)) = true then sum = .inf false
  else
    let v := (ps.map fun f => match f with | .inr v => v | .inl _ => 0).sum
    if v = 0 then sum = .zero false else HasValue sum v

/-- The products P(k, n) of R96: a sign, the streamed element, its E8M0 scale, the asymmetric scale and the distance from the zero point,
or the stationary element. Two kept values of one position are two products, but under asymmetric scales one element (log 109). -/
def Sys2Proof.Claims.groupProducts (p : Plane) (x : Word) (row : Nat) (scale : Nat → Nat) (k n : Nat) : List Factor :=
  let g := k / groupSize x
  let streamed : List Factor := [.inr (if fwNeg x then -1 else 1), factor (fmtDecode (fwA x) (row / 2 ^ (fmtWidth (fwA x) * k) % 2 ^ fmtWidth (fwA x)))] ++
    (if fwMx x then [if scale (k / 32) = 255 then .inl none else .inr (2 ^ ((scale (k / 32) : Int) - 127))] else [])
  if fwAsym x then
    let q := ((stationary p x k n).map fun v => match factor v with | .inr v => v | .inl _ => 0).sum
    let z := p.nat (planeArea 2 + 64 * g + n) 1
    let zero : Int := if fwB x = 10 ∨ fwB x = 12 then (BitVec.ofNat 8 z).toInt else z
    [product (streamed ++ [factor (asymScale p g n), .inr (q - zero)])]
  else (stationary p x k n).map fun q => product (streamed ++ [factor q])

/-- Rounding once to FP64 by RNE, and the value of an FP64 element (R86, R101). -/
def Sys2Proof.Claims.rne64 (y : Machine.Num) : DWord := BitVec.ofNat 64 (fpRound ⟨11, 52, 1023, 0⟩ 0 true y)
def Sys2Proof.Claims.of64 (d : DWord) : Machine.Num := fpDecode ⟨11, 52, 1023, 0⟩ d.toNat

/-- `y` is the exact sum or product of two numbers, with the special values and the signs of zero of IEEE 754. -/
def Sys2Proof.Claims.IsSum (a b y : Machine.Num) : Prop :=
  match factor a, factor b with
  | .inl none, _ => y = .nan
  | _, .inl none => y = .nan
  | .inl (some i), .inl (some j) => y = if i = j then .inf i else .nan
  | .inl (some i), .inr _ => y = .inf i
  | .inr _, .inl (some i) => y = .inf i
  | .inr v, .inr w => if v + w = 0 then y = .zero (decide (a = .zero true ∧ b = .zero true)) else HasValue y (v + w)
def Sys2Proof.Claims.IsProduct (a b y : Machine.Num) : Prop :=
  match product [factor a, factor b] with
  | .inl none => y = .nan
  | .inl (some i) => y = .inf i
  | .inr v => if v = 0 then y = .zero (a.neg? ^^ b.neg?) else HasValue y v

/-- `out` is what BIND makes of an accumulator with the labels' coefficients, image sums and resident elements (R198). -/
def Sys2Proof.Claims.BindIs : DWord → List (Machine.Num × DWord × DWord) → DWord → Prop
  | acc, [], out => out = acc
  | acc, (coef, images, resident) :: rest, out => ∃ part prod sum, IsSum (of64 images) (of64 resident) part ∧
      IsProduct coef (of64 (rne64 part)) prod ∧ IsSum prod (of64 acc) sum ∧ Sys2Proof.Claims.BindIs (rne64 sum) rest out

/-- R96 to R99: the sums of a column, and what they add to an element. -/
def Sys2Proof.Claims.ExactSums : Prop :=
  (∀ (p : Plane) (x : Word) (row : Nat) (scale : Nat → Nat) (n : Nat),
    (fwA x ≠ 0 → (fwAsym x = true → 10 ≤ fwB x) → ∀ g < streamDepth x / groupSize x,
      ∃ sum, (columnSums p x row scale n)[g]? = some sum ∧
        GroupSumIs ((List.range (groupSize x)).flatMap fun i => groupProducts p x row scale (g * groupSize x + i) n) sum) ∧
    (fwA x = 0 → fwSpa x = false → ∀ k < 64,
      let a := of64 (BitVec.ofNat 64 (row / 2 ^ (64 * k)))
      (columnSums p x row scale n)[2 * k]? = some (if fwNeg x then a.negate else a) ∧
      (columnSums p x row scale n)[2 * k + 1]? = (stationary p x k n)[0]?)) ∧
  ∀ (x : Word) (acc : DWord),
    contribute x acc [] = acc ∧
    (∀ a b rest, fwA x = 0 → (∀ e, a ≠ .fin 0 e) → (∀ e, b ≠ .fin 0 e) →
      ∃ prod sum, IsProduct a b prod ∧ IsSum prod (of64 acc) sum ∧
        contribute x acc (a :: b :: rest) = contribute x (rne64 sum) rest) ∧
    (∀ a rest, fwA x ≠ 0 → fwAcck x ≠ 1 → ∃ sum, IsSum (of64 acc) (of64 (rne64 a)) sum ∧
      contribute x acc (a :: rest) = contribute x (if fwAcck x = 2
        then rne64 (fpDecode ⟨8, 23, 127, 0⟩ (fpRound ⟨8, 23, 127, 0⟩ 0 true sum)) else rne64 sum) rest) ∧
    ∀ (sums : List Machine.Num) (zs : List Int), fwA x ≠ 0 → fwAcck x = 1 →
      List.Forall₂ (fun a (z : Int) => HasValue a z) sums zs → contribute x acc sums = acc + BitVec.ofInt 64 zs.sum

/-- R198, R199: what a BIND reads of its images, and the elements that it writes. -/
def Sys2Proof.Claims.BindCombines : Prop :=
  (∀ (h : MCmd) (m : Matrix) (r n : Nat) (srcs : List (Option Nat × List Nat)), r < 64 → n < 64 → h.coefs.length = srcs.length →
    BindIs 0 ((List.range srcs.length).map fun l =>
      (fpDecode ⟨8, 23, 127, 0⟩ ((h.coefs.getD l 0).toNat / 2 ^ (32 * r) % 2 ^ 32), Sparse.get 0 h.parts (l * 4096 + r * 64 + n),
        match (srcs.map (·.1)).getD l none with | some x => Sparse.get 0 m.slots (x * 4096 + r * 64 + n) | none => 0))
      ((h.bindRow m r srcs).1.getD n 0)) ∧
  ∀ (h : MCmd) (s : State) (p clk key : Nat) (srcs : List (Option Nat × List Nat)),
    let image := ((srcs.map (·.2)).getD h.label []).getD (h.lines / 128) 0
    let line := h.lines % 128
    let first := h.label * 4096 + 32 * line
    let old := Sparse.get 0 h.parts key
    let new := Sparse.get 0 (h.readImage s p clk srcs).parts key
    if first ≤ key ∧ key < first + 32 then
      ∃ sum, IsSum (of64 old) (of64 (BitVec.ofNat 64 (bytesVal (s.readBytes (nearFrame p image + 256 * line + 8 * (key - first)) 8)))) sum ∧
        new = rne64 sum
    else new = old

/-- R185 to R199, R280; `groupProducts` rests on log 109 where two kept values of one position meet asymmetric scales. -/
def Obligations.MatrixSteps : Prop :=
  ExactSums ∧ BindCombines ∧ ∀ (s : State) (p : Nat), let c := s.cr p
    (∀ (h : MCmd) (rest : List MCmd), Clocked s p → c.matrix.queue = h :: rest → c.headState s.now = .go →
      (∀ slot x q sq row0 n, h.kind = .stream slot x q sq row0 n none → row0 + h.rows < 64 → c.matrix.warm = true → q < 14 →
        c.matrix.active.bad = [] →
        (fwMx x = true → sq ≠ q) →
        ∃ t, Happens (.matrixRowEntry p) s t ∧ t.mem = s.mem ∧ OtherCores s t p ∧ (t.cr p).regs = c.regs ∧
          (t.cr p).matrix.slots = c.matrix.slots ∧
          (t.cr p).q q = ⟨(c.q q).entries.drop (rowEntries x h.rows n).2.1, (c.q q).pops + (rowEntries x h.rows n).2.1,
            (c.q q).rpos + (rowEntries x h.rows n).2.1⟩ ∧
          (t.cr p).matrix.queue = (if h.rows + 1 = n then rest else { h with rows := h.rows + 1 } :: rest) ∧
          (t.cr p).matrix.freeAt = c.clk + rowCycles x ∧
          ∃ r, (t.cr p).matrix.rows = c.matrix.rows ++ [r] ∧ r.slot = slot ∧ r.addAt = c.clk + rowCycles x + 19 ∧
            r.land = .sums (row0 + h.rows) x ((List.range 64).map (columnSums c.matrix.active x
              (rowBits ((c.q q).poppable s.now) x h.rows n)
              fun g => ((((c.q sq).poppable s.now).head?.map lineBytes).getD []).getD (16 * (h.rows % 16) + g) 0 |>.toNat))
              (fwSop x = 1)) ∧
      (∀ slot x q sq row0 n iq, h.kind = .stream slot x q sq row0 n iq → c.matrix.warm = false →
        ∃ t, Happens (.matrixRowEntry p) s t ∧ OnlyMatrix s t p ∧ (t.cr p).matrix = { c.matrix with rampEnd := some (c.clk + 16) }) ∧
      (∀ slot, h.kind = .zero (some slot) →
        ∃ t, Happens (.matrixRowEntry p) s t ∧ OnlyMatrix s t p ∧ (t.cr p).matrix.queue = rest ∧
          (t.cr p).matrix.rows = c.matrix.rows ++ [⟨slot, .zeros, c.clk + 20, h.seq⟩]) ∧
      (h.kind = .flip → ∃ t, Happens (.mflipEffect p) s t ∧ OnlyMatrix s t p ∧
        (t.cr p).matrix = { c.matrix with queue := rest, active1 := !c.matrix.active1 }) ∧
      (∀ slot frame own, h.kind = .spill slot frame own →
        (h.lines = 128 → ∃ t, Happens (.slotSpill p) s t ∧ OnlyMatrix s t p ∧
          (t.cr p).matrix = { c.matrix with queue := rest, freeAt := c.clk + 1 }) ∧
        (∀ f, h.lines < 128 → h.cursor ≤ c.clk → place (nearFrame p frame + 256 * h.lines) = .near p f → c.matrix.poison = [] →
          s.headTurn p = some (.spill h slot frame) ∧
            let t := s.matrixServe p (.spill h slot frame)
            ∃ bs : List Byte, t.writes = s.writes ++ [⟨3, nearFrame p frame + 256 * h.lines, bs, false⟩] ∧ bs.length = 256 ∧
              (∀ j < 32, bytesVal ((bs.drop (8 * j)).take 8) =
                (slotElem c slot (h.lines / 2) (32 * (h.lines % 2) + j)).toNat) ∧
              OnlyMatrix s t p ∧
              (t.cr p).matrix = { c.matrix with queue := { h with lines := h.lines + 1, cursor := c.clk + 1 } :: rest })) ∧
      (∀ slot q srcs, h.kind = .bind slot q srcs → h.start = none → h.coefs = [] → q < 14 →
        srcs.length ≤ ((c.q q).poppable s.now).length →
        ∃ t h2, Happens (.bindStart p) s t ∧ t.mem = s.mem ∧ OtherCores s t p ∧
          (t.cr p).q q = ⟨(c.q q).entries.drop srcs.length, (c.q q).pops + srcs.length, (c.q q).rpos + srcs.length⟩ ∧
          (t.cr p).matrix = { c.matrix with queue := h2 :: rest } ∧ h2.kind = h.kind ∧ h2.start = some c.clk ∧
          h2.coefs = ((c.q q).poppable s.now).take srcs.length ∧ h2.rows = h.rows ∧ h2.seq = h.seq) ∧
      ∀ slot q srcs e, h.kind = .bind slot q srcs → h.start.isSome = true → h.bindRowAt srcs.length h.rows = some e →
        e ≤ c.clk → h.rows < 64 →
        ∃ t, Happens (.bindRowWrite p) s t ∧ OnlyMatrix s t p ∧
          (∀ n < 64, slotElem (t.cr p) slot h.rows n = (h.bindRow c.matrix h.rows srcs).1.getD n 0) ∧
          (∀ k, k / 64 ≠ slot * 64 + h.rows → Sparse.get 0 (t.cr p).matrix.slots k = Sparse.get 0 c.matrix.slots k) ∧
          (t.cr p).matrix.queue = (if h.rows = 63 then rest else { h with rows := h.rows + 1 } :: rest)) ∧
    (∀ (r : ArrayRow) (rest : List ArrayRow), Clocked s p → c.matrix.rows = r :: rest → r.addAt ≤ c.clk →
      c.mustClaim (some r.slot) = none →
      (∀ row x cols zero, r.land = .sums row x cols zero → row < 64 → cols.length = 64 →
        ∃ t, Happens (.slotRowAdd p) s t ∧ OnlyMatrix s t p ∧ (t.cr p).matrix.rows = rest ∧
          (∀ n < 64, slotElem (t.cr p) r.slot row n =
            contribute x (if zero then 0 else slotElem c r.slot row n) (cols.getD n [])) ∧
          (∀ k, k / 64 ≠ r.slot * 64 + row → Sparse.get 0 (t.cr p).matrix.slots k = Sparse.get 0 c.matrix.slots k)) ∧
      (r.land = .zeros → ∃ t, Happens (.mzeroEffect p) s t ∧ OnlyMatrix s t p ∧ (t.cr p).matrix.rows = rest ∧
        ∀ k, Sparse.get 0 (t.cr p).matrix.slots k = if k / 4096 = r.slot then 0 else Sparse.get 0 c.matrix.slots k)) ∧
    (∀ e, Clocked s p → c.matrix.rampEnd = some e → e ≤ c.clk →
      ∃ t, Happens (.rampUpEnd p) s t ∧ OnlyMatrix s t p ∧
        (t.cr p).matrix = { c.matrix with warm := true, rampEnd := none, idle := 0 }) ∧
    (∀ e, Clocked s p → c.matrix.hint = some e → e ≤ c.clk →
      ∃ t, Happens (.hintTargetReached p) s t ∧ OnlyMatrix s t p ∧ (t.cr p).matrix = { c.matrix with hint := none, idle := 0 }) ∧
    (Clocked s p → c.matrix.warm = true → 64 ≤ c.matrix.idle → c.matrix.hint = none → c.matrix.rampEnd = none →
      ∃ t, Happens (.arrayCold p) s t ∧ OnlyMatrix s t p ∧ (t.cr p).matrix = { c.matrix with warm := false }) ∧
    ∀ (x : Claim) (rest : List Claim), c.matrix.claims = x :: rest → x.saves = 0 → x.loads = 0 → x.due ≤ s.now →
      (∀ y ∈ rest, y.what ≠ x.what) → s.claimFault p x.what = none →
      ∃ t, Happens (.claimComplete p) s t ∧ Sparse.get 0 (t.cr p).matrix.owner x.what = c.ctxId ∧
        (t.cr p).matrix.claims = rest ∧ OtherCores s t p ∧ (t.cr p).regs = c.regs

/-! ### The vector unit -/

/-- Lane `j` of width `w` of a register. -/
def Sys2Proof.Claims.laneAt (w : Nat) (v : Line) (j : Nat) : Nat := v.toNat / 2 ^ (w * j) % 2 ^ w

/-- The cycle in which the vector unit starts an instruction: one starts in a cycle (R207). -/
def Sys2Proof.Claims.startAt (s : State) : Nat := max s.me.rclk s.me.vnext

/-- The vector unit has started an instruction; in a joined line the further ones freeze the core (R207). -/
def Sys2Proof.Claims.vstarted (s : State) : State :=
  s.setMe { s.me with vnext := startAt s + 1, vhold := if s.me.forked then s.me.vhold else max s.me.vhold (startAt s + 1) }

/-- No spill of K's earlier commands is still to be written, and no BIND of them is still to read an image: a push of K releases them
(R308; that its entry stands held until then is the model's reading, log 54). -/
def Sys2Proof.Claims.spilled (s : State) : Bool :=
  !s.me.matrix.queue.any fun m => m.seq < s.me.seq && match m.kind with
    | .spill .. => true
    | .bind _ _ srcs => srcs.any fun x => !x.2.isEmpty
    | _ => false

/-- v[d] receives a value, `lat` cycles after the start (R207). -/
def Sys2Proof.Claims.gaveV (s : State) (d : BitVec 5) (v : Line) (lat : Nat) : State :=
  let t := vstarted s
  if lat = 0 then
    let c := t.me.kill (.v d)
    t.setMe { c with regs := { c.regs with v := c.regs.v.setIfInBounds d.toNat v } }
  else t.setMe (t.me.later (.v d) v (startAt s) lat)

/-- k[d] receives a value, `lat` cycles after the start. -/
def Sys2Proof.Claims.gaveK (s : State) (d : BitVec 5) (v : Word) (lat : Nat) : State :=
  let t := vstarted s
  if lat = 0 then
    let c := t.me.kill (.k d)
    t.setMe { c with regs := { c.regs with k := c.regs.k.setIfInBounds d.toNat v } }
  else t.setMe (t.me.later (.k d) (v.setWidth 2048) (startAt s) lat)

/-- p[d] receives a value. -/
def Sys2Proof.Claims.gaveP (s : State) (d : BitVec 5) (v : BitVec 256) : State :=
  let t := vstarted s
  t.setMe { t.me with regs := { t.me.regs with p := t.me.regs.p.setIfInBounds d.toNat v } }

/-- Lane `j` is active under a governing field: P0 governs nothing (R204). -/
def Sys2Proof.Claims.active (s : State) (p : BitVec 3) (j : Nat) : Prop := p = 0 ∨ (s.me.regs.p.getD p.toNat 0).getLsbD j = true

/-- The registers. -/
def Sys2Proof.Claims.vreg (s : State) (n : BitVec 5) : Line := s.me.regs.v.getD n.toNat 0
def Sys2Proof.Claims.preg (s : State) (n : BitVec 5) : BitVec 256 := s.me.regs.p.getD n.toNat 0

/-- The instruction gives v[d] a line whose lane `j` of width `w` is `f j`. -/
def Sys2Proof.Claims.GivesV (i : Instr) (s s1 : State) (d : BitVec 5) (lat w : Nat) (f : Nat → Nat → Prop) : Prop :=
  ∃ v, Does i s (gaveV s1 d v lat) ∧ ∀ j < 2048 / w, f j (laneAt w v j)

/-- A lane-wise instruction (R204, R205): active lanes receive `f j`, others zero or what they held. -/
def Sys2Proof.Claims.LaneWise (i : Instr) (s : State) (d : BitVec 5) (z : BitVec 1) (p ty : BitVec 3) (lat : Nat) (f : Nat → Nat) : Prop :=
  GivesV i s s d lat (Machine.tyWidth ty) fun j x =>
    (active s p j → x = f j % 2 ^ Machine.tyWidth ty) ∧
    (¬ active s p j → x = if z = 1 then 0 else laneAt (Machine.tyWidth ty) (vreg s d) j)

/-- Lanes that are not active are kept, so that the old destination is read (R205). -/
def Sys2Proof.Claims.FreeOld (s : State) (d : BitVec 5) (z : BitVec 1) (p : BitVec 3) : Prop := z = 0 → p ≠ 0 → Free s (.v d)

/-- The predicate operations (R224). -/
def Sys2Proof.Claims.predOps : List ((BitVec 2 → BitVec 5 → BitVec 5 → BitVec 5 → Instr) × (Bool → Bool → Bool)) :=
  [(.pand, (· && ·)), (.por, (· || ·)), (.pxor, (· ^^ ·))]

/-- R209 to R211, R217, R221, R224, R225. When a pushed entry can be popped is log 54. -/
def Obligations.VectorMoves : Prop :=
  ∀ (w : BitVec 2) (d a b : BitVec 5) (z : BitVec 1) (p ty : BitVec 3) (s : State),
    let k := fun (r : BitVec 5) => ((s.me.getK r).setWidth 32 : Word).toNat
    let n := 2048 / Machine.tyWidth ty
    (∀ q : BitVec 5, Can (.vpop w d q) w s →
      (3 < q.toNat → Raises (.vpop w d q) s .queueMisuse []) ∧
      (q.toNat ≤ 3 → (s.me.q q.toNat).poppable s.now = [] → Waits (.vpop w d q) s 0 q.toNat) ∧
      (∀ v rest, q.toNat ≤ 3 → (s.me.q q.toNat).poppable s.now = v :: rest →
        Does (.vpop w d q) s (gaveV (popped s q.toNat) d v 0))) ∧
    (∀ v rest, Can (.vpopK w d 8) w s → (s.me.q 8).poppable s.now = v :: rest →
      Does (.vpopK w d 8) s (gaveK (popped s 8) d (v.setWidth 32) 0)) ∧
    (∀ q : BitVec 5, q ≠ 8 → Can (.vpopK w d q) w s → Raises (.vpopK w d q) s .queueMisuse []) ∧
    (∀ q : BitVec 5, q ≠ 10 → Can (.vpushOq0 w q a) w s → Raises (.vpushOq0 w q a) s .queueMisuse []) ∧
    (∀ q : BitVec 5, q ≠ 4 → q ≠ 5 → Can (.vpush w q a) w s → Raises (.vpush w q a) s .queueMisuse []) ∧
    (∀ q : BitVec 5, Can (.vpush w q a) w s → (q = 4 ∨ q = 5) → Free s (.v a) →
      (Room s q.toNat 1 → Does (.vpush w q a) s (vstarted (pushed s q.toNat (vreg s a) (spilled s)))) ∧
      (¬ Room s q.toNat 1 → Waits (.vpush w q a) s 0 q.toNat)) ∧
    (Can (.vpushOq0 w 10 a) w s → Free s (.k a) →
      (Room s 10 1 → Does (.vpushOq0 w 10 a) s (vstarted (pushed s 10 ((s.me.getK a).setWidth 2048) (spilled s)))) ∧
      (¬ Room s 10 1 → Waits (.vpushOq0 w 10 a) s 0 10)) ∧
    (Can (.vmov w d a z p ty) w s → Free s (.v a) → FreeOld s d z p →
      LaneWise (.vmov w d a z p ty) s d z p ty 0 fun j => laneAt (Machine.tyWidth ty) (vreg s a) j) ∧
    (Can (.vbcast w d a z p ty) w s → Free s (.k a) → FreeOld s d z p →
      LaneWise (.vbcast w d a z p ty) s d z p ty 0 fun _ => k a) ∧
    (Can (.vbcastLane w d a b z p ty) w s → Free s (.v a) → Free s (.k b) → FreeOld s d z p →
      LaneWise (.vbcastLane w d a b z p ty) s d z p ty 0 fun _ => laneAt (Machine.tyWidth ty) (vreg s a) (k b % n)) ∧
    (∀ imm : BitVec 32, Can (.vli w d z p ty imm) w s → FreeOld s d z p →
      LaneWise (.vli w d z p ty imm) s d z p ty 0 fun _ => imm.toNat) ∧
    (∀ imm : BitVec 32, Can (.vliK w d imm) w s → Does (.vliK w d imm) s (gaveK s d imm 0)) ∧
    (Can (.vmovK w d a b ty) w s → Free s (.v a) → Free s (.k b) →
      let x := laneAt (Machine.tyWidth ty) (vreg s a) (k b % n)
      Does (.vmovK w d a b ty) s (gaveK s d (if ty = 4 ∨ ty = 5 then (BitVec.ofNat (Machine.tyWidth ty) x).signExtend 32
        else BitVec.ofNat 32 x) 0)) ∧
    (Can (.vsel w d a b p ty) w s → Free s (.v a) → Free s (.v b) → GivesV (.vsel w d a b p ty) s s d 0 (Machine.tyWidth ty) fun j x =>
      (active s p j → x = laneAt (Machine.tyWidth ty) (vreg s a) j) ∧ (¬ active s p j → x = laneAt (Machine.tyWidth ty) (vreg s b) j)) ∧
    (Can (.vperm w d a b z p ty) w s → Free s (.v a) → Free s (.v b) → FreeOld s d z p →
      LaneWise (.vperm w d a b z p ty) s d z p ty 0 fun j =>
        let i := laneAt (Machine.tyWidth ty) (vreg s b) j
        if i < n then laneAt (Machine.tyWidth ty) (vreg s a) i else 0) ∧
    (∀ x ∈ predOps, Can (x.1 w d a b) w s → ∃ v, Does (x.1 w d a b) s (gaveP s d v) ∧
      ∀ j < 256, v.getLsbD j = x.2 ((preg s a).getLsbD j) ((preg s b).getLsbD j)) ∧
    (Can (.pnot w d a) w s → Does (.pnot w d a) s (gaveP s d (~~~(preg s a)))) ∧
    ∀ kind : BitVec 2, Can (.pset w d a kind) w s → (2 ≤ kind.toNat → Free s (.k a)) →
      ∃ v, Does (.pset w d a kind) s (gaveP s d v) ∧
        ∀ j < 256, v.getLsbD j = (if kind = 0 then false else if kind = 1 then true else decide (j < k a))

/-- The format of a float lane type of R203: FP32, BF16, FP16. -/
def Sys2Proof.Claims.floatFormat (ty : BitVec 3) : FpFmt :=
  if ty = 0 then ⟨8, 23, 127, 0⟩ else if ty = 1 then ⟨8, 7, 127, 0⟩ else ⟨5, 10, 15, 0⟩

/-- The value of lane `j` of a register. -/
def Sys2Proof.Claims.valueAt (ty : BitVec 3) (v : Line) (j : Nat) : Machine.Num := fpDecode (floatFormat ty) (laneAt (Machine.tyWidth ty) v j)

/-- Operations of one source with their ready time, of two, and of two and the old destination (R212, R213). -/
def Sys2Proof.Claims.float1s : List ((BitVec 2 → BitVec 5 → BitVec 5 → BitVec 1 → BitVec 3 → BitVec 3 → Instr) × Nat × (Machine.Num → Machine.Num)) := [
  (.vabs, 4, Machine.Num.abs), (.vneg, 4, Machine.Num.negate), (.vrcp, 12, Machine.Num.recip), (.vrsq, 12, Machine.Num.rsqrt), (.vexp2, 12, Machine.Num.exp2),
  (.vlog2, 12, Machine.Num.log2)]
def Sys2Proof.Claims.float2s : List ((BitVec 2 → BitVec 5 → BitVec 5 → BitVec 5 → BitVec 1 → BitVec 3 → BitVec 3 → Instr) ×
    (Machine.Num → Machine.Num → Machine.Num)) := [
  (.vadd, Machine.Num.add), (.vsub, fun x y => x.add y.negate), (.vmul, Machine.Num.mul), (.vmin, Machine.Num.min), (.vmax, Machine.Num.max)]
def Sys2Proof.Claims.float3s : List ((BitVec 2 → BitVec 5 → BitVec 5 → BitVec 5 → BitVec 1 → BitVec 3 → BitVec 3 → Instr) ×
    (Machine.Num → Machine.Num → Machine.Num → Machine.Num)) := [
  (.vfma, fun x y d => (x.mul y).add d), (.vfms, fun x y d => (x.mul y).add d.negate),
  (.vnfma, fun x y d => (x.mul y).negate.add d)]

/-- R212, R213. -/
def Obligations.VectorFloat : Prop :=
  ∀ (w : BitVec 2) (d a b : BitVec 5) (z : BitVec 1) (p ty : BitVec 3) (s : State), ty.toNat < 3 →
    let x := fun j => valueAt ty (vreg s a) j
    let y := fun j => valueAt ty (vreg s b) j
    let round := fpRound (floatFormat ty) 0 true
    (∀ o ∈ float1s, Can (o.1 w d a z p ty) w s → Free s (.v a) → FreeOld s d z p →
      LaneWise (o.1 w d a z p ty) s d z p ty o.2.1 fun j => round (o.2.2 (x j))) ∧
    (∀ o ∈ float2s, Can (o.1 w d a b z p ty) w s → Free s (.v a) → Free s (.v b) → FreeOld s d z p →
      LaneWise (o.1 w d a b z p ty) s d z p ty 4 fun j => round (o.2 (x j) (y j))) ∧
    ∀ o ∈ float3s, Can (o.1 w d a b z p ty) w s → Free s (.v a) → Free s (.v b) → Free s (.v d) →
      LaneWise (o.1 w d a b z p ty) s d z p ty 4 fun j => round (o.2 (x j) (y j) (valueAt ty (vreg s d) j))

/-- A lane as a signed number, and a signed result that wraps to its lane or saturates. -/
def Sys2Proof.Claims.signedLane (w x : Nat) : Int := (BitVec.ofNat w x).toInt
def Sys2Proof.Claims.fitted (w : Nat) (sat : Bool) (r : Int) : Nat :=
  (BitVec.ofInt w (if sat then max (-2 ^ (w - 1)) (min (2 ^ (w - 1) - 1) r) else r)).toNat

/-- The operations of R218 on two raw lanes of width `w`: without and with the X bit. -/
def Sys2Proof.Claims.rawOps : List ((BitVec 2 → BitVec 5 → BitVec 5 → BitVec 5 → BitVec 1 → BitVec 3 → BitVec 3 → Instr) ×
    (Nat → Nat → Nat → Nat)) := [
  (.vand, fun _ x y => x &&& y), (.vor, fun _ x y => x ||| y), (.vxor, fun _ x y => x ^^^ y),
  (.vshl, fun w x y => x * 2 ^ (y % w)), (.vshr, fun w x y => x / 2 ^ (y % w)),
  (.vsar, fun w x y => fitted w false (signedLane w x / 2 ^ (y % w)))]
def Sys2Proof.Claims.intOps : List ((BitVec 2 → BitVec 5 → BitVec 5 → BitVec 5 → BitVec 1 → BitVec 3 → BitVec 1 → BitVec 3 → Instr) ×
    Nat × (Nat → Bool → Nat → Nat → Nat)) := [
  (.viadd, 0, fun w sat x y => fitted w sat (signedLane w x + signedLane w y)),
  (.visub, 0, fun w sat x y => fitted w sat (signedLane w x - signedLane w y)),
  (.vimul, 4, fun w sat x y => fitted w sat (signedLane w x * signedLane w y)),
  (.vimin, 0, fun w unsigned x y => if unsigned then min x y else fitted w false (min (signedLane w x) (signedLane w y))),
  (.vimax, 0, fun w unsigned x y => if unsigned then max x y else fitted w false (max (signedLane w x) (signedLane w y)))]

/-- R218. -/
def Obligations.VectorInteger : Prop :=
  ∀ (w : BitVec 2) (d a b : BitVec 5) (z : BitVec 1) (p ty : BitVec 3) (s : State), Free s (.v a) → Free s (.v b) → FreeOld s d z p →
    let n := Machine.tyWidth ty
    let x := fun j => laneAt n (vreg s a) j
    let y := fun j => laneAt n (vreg s b) j
    (∀ o ∈ rawOps, Can (o.1 w d a b z p ty) w s → LaneWise (o.1 w d a b z p ty) s d z p ty 0 fun j => o.2 n (x j) (y j)) ∧
    ∀ o ∈ intOps, ∀ sat : BitVec 1, Can (o.1 w d a b z p sat ty) w s →
      LaneWise (o.1 w d a b z p sat ty) s d z p ty o.2.1 fun j => o.2.2 n (decide (sat = 1)) (x j) (y j)

/-- The reductions of R219 on integers and on exact values, with their neutral values. -/
def Sys2Proof.Claims.foldInt (w : Nat) (op : BitVec 2) (xs : List Int) : Int :=
  if op = 0 then xs.sum else if op = 1 then xs.foldl max (-2 ^ (w - 1)) else xs.foldl min (2 ^ (w - 1) - 1)
def Sys2Proof.Claims.foldNum (op : BitVec 2) (xs : List Machine.Num) : Machine.Num :=
  if op = 0 then (match xs.foldl Machine.Num.add (.zero false) with | .zero _ => .zero false | x => x)
  else if op = 1 then xs.foldl Machine.Num.max (.inf true) else xs.foldl Machine.Num.min (.inf false)

/-- The condition of VCMP on integers and on values (R216). -/
def Sys2Proof.Claims.holdsInt (cond : BitVec 3) (x y : Int) (ux uy : Nat) : Prop :=
  if cond = 0 then x = y else if cond = 1 then x ≠ y else if cond = 2 then x < y else if cond = 3 then x ≤ y
  else if cond = 4 then y < x else if cond = 5 then y ≤ x else if cond = 6 then ux < uy else uy ≤ ux
def Sys2Proof.Claims.holdsNum (cond : BitVec 3) (x y : Machine.Num) : Prop :=
  let un := x = .nan ∨ y = .nan
  let lt := x.lt y = true
  let gt := y.lt x = true
  if cond = 0 then ¬ un ∧ ¬ lt ∧ ¬ gt else if cond = 1 then un ∨ lt ∨ gt else if cond = 2 then lt
  else if cond = 3 then ¬ un ∧ ¬ gt else if cond = 4 then gt else if cond = 5 then ¬ un ∧ ¬ lt else if cond = 6 then un else ¬ un

/-- R214 to R216, R219, R220, R222, R223. -/
def Obligations.VectorConversions : Prop :=
  ∀ (w : BitVec 2) (d a b : BitVec 5) (p ty : BitVec 3) (s : State), Free s (.v a) →
    let n := Machine.tyWidth ty
    let lanes := 2048 / n
    let x := fun j => laneAt n (vreg s a) j
    let y := fun j => laneAt n (vreg s b) j
    (∀ (dty : BitVec 3) (rnd seg : BitVec 2) (ov : BitVec 1), Can (.vcvt w d a dty rnd seg ov ty) w s →
      let m := Machine.tyWidth dty
      let k := 2048 / max n m
      let conv := fun (v : Nat) => if tyInt dty then intConvert m true rnd.toNat (decide (ov = 1)) (tyNum ty v)
        else fpRound (fpFmt (tyFmt dty)) rnd.toNat (decide (ov = 1)) (tyNum ty v)
      (m < n → Free s (.v d)) → GivesV (.vcvt w d a dty rnd seg ov ty) s s d 4 m fun j v =>
        v = (if n < m then conv (x (seg.toNat * k + j))
          else if m < n then (if j / k = seg.toNat then conv (x (j % k)) else laneAt m (vreg s d) j)
          else conv (x j)) % 2 ^ m) ∧
    (∀ (rnd : BitVec 2) (ov : BitVec 1) (fmt : BitVec 4), Free s (.v d) → fmt.toNat ≤ 13 →
      let f := fmtWidth fmt.toNat
      let vals := (List.range 64).map fun j => fmtDecode 1 (laneAt 32 (vreg s a) j)
      let shifted := fun (v : Line) (codes : List Nat) =>
        (∀ j < 64, v.toNat / 2 ^ (2048 - 64 * f + f * j) % 2 ^ f = codes.getD j 0 % 2 ^ f) ∧
        v.toNat % 2 ^ (2048 - 64 * f) = (vreg s d).toNat / 2 ^ (64 * f)
      (Can (.vq w d a b rnd ov 0 fmt) w s → Free s (.k b) →
        ∃ v, Does (.vq w d a b rnd ov 0 fmt) s (gaveV s d v 4) ∧ shifted v (vals.map fun e =>
          fmtConvert fmt.toNat rnd.toNat (decide (ov = 1)) (decide (ov = 1))
            (e.mul (fmtDecode 1 ((s.me.getK b).setWidth 32 : Word).toNat)))) ∧
      (Can (.vq w d a b rnd ov 1 fmt) w s → (5 ≤ fmt.toNat ∧ fmt.toNat ≤ 9) →
        let g0 := mxGroup fmt.toNat rnd.toNat (decide (ov = 1)) (vals.take 32)
        let g1 := mxGroup fmt.toNat rnd.toNat (decide (ov = 1)) (vals.drop 32)
        ∃ v, shifted v (g0.2 ++ g1.2) ∧ Does (.vq w d a b rnd ov 1 fmt) s ((gaveV s d v 4).setMe
          ((gaveV s d v 4).me.later (.k b) (BitVec.ofNat 2048 (g1.1 * 256 + g0.1)) (startAt s) 4)))) ∧
    (∀ cond : BitVec 3, Can (.vcmp w d a b cond ty) w s → Free s (.v b) →
      ∃ v, Does (.vcmp w d a b cond ty) s (gaveP s d v) ∧ (∀ j, lanes ≤ j → v.getLsbD j = false) ∧
        ∀ j < lanes, (v.getLsbD j = true ↔ if tyInt ty then holdsInt cond (signedLane n (x j)) (signedLane n (y j)) (x j) (y j)
          else holdsNum cond (tyNum ty (x j)) (tyNum ty (y j)))) ∧
    (∀ op : BitVec 2, op.toNat ≤ 2 → ∀ act : Nat → Bool, (∀ j, act j = true ↔ active s p j) →
      let upTo := fun (k : Nat) => ((List.range k).filter act).map x
      let whole := fun (k : Nat) => foldInt n op ((upTo k).map (signedLane n))
      let real := fun (k : Nat) => foldNum op ((upTo k).map (tyNum ty))
      (Can (.vred w d a op p ty) w s → Does (.vred w d a op p ty) s (gaveK s d
        (if tyInt ty then BitVec.ofInt 32 (whole lanes) else BitVec.ofNat 32 (fpRound (fpFmt 1) 0 true (real lanes))) 8)) ∧
      (Can (.vscan w d a op p ty) w s → GivesV (.vscan w d a op p ty) s s d 8 n fun j v =>
        v = if act j then (if tyInt ty then (BitVec.ofInt n (whole (j + 1))).toNat
          else fpRound (fpFmt (tyFmt ty)) 0 true (real (j + 1)) % 2 ^ n) else 0)) ∧
    ∀ op : BitVec 2, Free s (.v b) →
      let segs := if op = 0 then 1 else 2 * 2 ^ op.toNat
      (Can (.vthr w d a b op p ty) w s → ∀ act : Nat → Bool, (∀ j, act j = true ↔ active s p j) →
        GivesV (.vthr w d a b op p ty) s s d 8 32 fun g v => v = if g < segs then
          ((List.range (lanes / segs)).filter fun j => act (g * (lanes / segs) + j) &&
            (let e := tyNum ty (x (g * (lanes / segs) + j))
             let t := tyNum ty (y g)
             e ≠ .nan && t ≠ .nan && !e.lt t)).length else 0) ∧
      (Can (.vtopk w d a b op p ty) w s → ∀ act : Nat → Bool, (∀ j, act j = true ↔ active s p j) →
        let m := 64 / segs
        let rank := fun (k : Nat) => ((List.range m).filter fun j => ranksAhead ty act (vreg s a) (vreg s b) (k / m * m + j) k).length
        GivesV (.vtopk w d a b op p ty) s s d 16 32 fun i v =>
          ∀ k, k / m = i / m → rank k = i % m → (∀ l < k, l / m = i / m → rank l ≠ i % m) → v = k)

/-! ### The drain stream -/

/-- A store command stands at the end of the store queue; all else but the tile caches is as it was. -/
def Sys2Proof.Claims.StoreQueued (s t : State) (k : SKind) (b : Bound) (v : DWord) (u : Nat) (runs : List Run) : Prop :=
  t.me.drain = { s.me.drain with cmds := s.me.drain.cmds ++ [SCmd.mk k b.idx v s.me.seq
    (s.position s.core s.stream s.laneNo) s.me.clk u runs none none 0 [] 0 false] } ∧
  t.me.seq = s.me.seq + 1 ∧ t.me.regs = s.me.regs ∧ t.me.flags = s.me.flags ∧ t.me.tokens = s.me.tokens ∧
  t.me.counters = s.me.counters ∧ t.me.queues = s.me.queues ∧ t.me.matrix = s.me.matrix ∧ t.mem = s.mem ∧ t.core = s.core ∧
  OtherCores s t s.core

/-- The run of `n` elements of `w` bits from coordinates `x`: none where `x` lies past the extents; else it passes the checks
of R158, fits as `fits` says, and is cut at the extent (R233). -/
def Sys2Proof.Claims.RunIs (s : State) (b : Bound) (x : List Nat) (row kind n w : Nat) (fits : Nat → Nat → Prop) (r : Option Run) : Prop :=
  (b.lay.inside x = false ∧ r = none) ∨
  (b.lay.inside x = true ∧ ∃ blk off, b.lay.place x = (blk, off, 0) ∧ blk ≤ b.lay.nblkm1 ∧ Known s 2 (b.lay.entry blk) ∧
    fits blk off ∧ r = some ⟨row, kind, b.idx, blk, off, min n (b.lay.ext.getD 0 0 - x.getD 0 0) * w⟩)

/-- A converted row is one run of its block and of lines as R233 asks. -/
def Sys2Proof.Claims.RowFits (b : Bound) (x : List Nat) (n w : Nat) (_ off : Nat) : Prop :=
  let r := n * w / 8
  x.getD 0 0 % 2 ^ b.lay.bcoll + n ≤ 2 ^ b.lay.bcoll ∧
    if r < 256 then off % 256 % r = 0 ∧ off % 256 + r ≤ 256 else off % 256 = 0

/-- The coordinates advanced along elements 0 and 1. -/
def Sys2Proof.Claims.moved (v : DWord) (i j : Nat) : List Nat :=
  let e := coords v
  [e.getD 0 0 + i, e.getD 1 0 + j, e.getD 2 0, e.getD 3 0]

/-- A destination of a store command: its first element is inside the tensor, the task may write it, and the runs of its rows
`0 … n-1` are `rs`. -/
def Sys2Proof.Claims.Destination (s : State) (b : Bound) (v : DWord) (n kind elems w : Nat) (rs : List (Option Run)) : Prop :=
  Within s 2 b v (fun _ _ => True) ∧ s.outputOk b.idx = true ∧ rs.length = n ∧
    ∀ j < n, RunIs s b (moved v 0 j) j kind elems w (RowFits b (moved v 0 j) elems w) (rs.getD j none)

/-- R231 to R240. -/
def Obligations.StoreCommands : Prop :=
  (∀ (w : BitVec 2) (t : BitVec 6) (c : BitVec 4) (dt : BitVec 5) (sk qc : BitVec 1) (lbl row0 nrow : BitVec 6) (rnd : BitVec 2)
      (ovf wrap : BitVec 1) (s : State), Can (.drain w t c dt sk qc lbl row0 nrow rnd ovf wrap) w s →
    let i := Instr.drain w t c dt sk qc lbl row0 nrow rnd ovf wrap
    let s1 := coordTaken s qc c
    let width := if dt.toNat = 16 ∨ dt.toNat = 17 then 32 else if dt.toNat = 18 then 64 else fmtWidth dt.toNat
    let v := s1.me.regs.d.getD c.toNat 0
    (¬ CoordReady s qc → Waits i s 0 9) ∧
    (CoordReady s qc → ∀ (cause : Cause) (info : DWord) (log : Option LogRec), binding 2 false t s1 = .error (.trap cause info [] log) →
      Happens i s (s.laneTrap cause info (if qc = 1 then [(9, some c.toNat)] else []) log)) ∧
    (CoordReady s qc → ∀ (b : Bound), binding 2 false t s1 = .ok (b, s1) →
      ((dt = 14 ∨ dt = 15 ∨ fmtWidth b.lay.fmt ≠ width) → Raises i s .formatInvalid (if qc = 1 then [(9, some c.toNat)] else [])) ∧
      ∀ rs, dt ≠ 14 → dt ≠ 15 → fmtWidth b.lay.fmt = width → Destination s1 b v (nrow.toNat + 1) 0 64 width rs →
        s1.me.drain.cmds.length < 4 →
        ∃ u, Does i s u ∧ StoreQueued s1 u (.drain dt (decide (sk = 1)) lbl row0.toNat (nrow.toNat + 1) rnd (decide (ovf = 1))
          (decide (wrap = 1))) b v (max 1 ((8 * width + 255) / 256)) (rs.filterMap id))) ∧
  (∀ (w : BitVec 2) (t : BitVec 6) (c qf : BitVec 4) (kind gs qc : BitVec 1) (lbl row0 nrow : BitVec 6) (rnd : BitVec 2)
      (ovf : BitVec 1) (st : BitVec 6) (sc : BitVec 4) (s : State) (b bs : Bound) (rs : List (Option Run)),
    let i := Instr.drainQ w t c qf kind gs qc lbl row0 nrow rnd ovf st sc
    let s1 := coordTaken s qc c
    let n := nrow.toNat + 1
    let g := if gs = 1 then 64 else 32
    let width := fmtWidth qf.toNat
    let v := s1.me.regs.d.getD c.toNat 0
    let vs := s1.me.regs.d.getD sc.toNat 0
    Can i w s → CoordReady s qc → binding 2 false t s1 = .ok (b, s1) → fmtWidth b.lay.fmt = width →
    binding 2 false st s1 = .ok (bs, s1) → Destination s1 b v n 0 64 width rs → s1.me.drain.cmds.length < 4 →
    (∀ ss : List (Option Run), kind = 0 → 5 ≤ qf.toNat → qf.toNat ≤ 9 → fmtWidth bs.lay.fmt = 8 →
      Within s1 2 bs vs (fun _ _ => True) → s1.outputOk bs.idx = true → ss.length = n →
      (∀ j < n, RunIs s1 bs (moved vs 0 j) j 1 2 8 (fun blk off => ∃ k, bs.lay.place (moved vs 1 j) = (blk, off + 1, k) ∧
        off / 256 = (off + 1) / 256) (ss.getD j none)) →
      ∃ u, Does i s u ∧ StoreQueued s1 u (.drainQ qf false g lbl row0.toNat n rnd (decide (ovf = 1)) bs.idx vs 0) b v 1
        (rs.filterMap id ++ ss.filterMap id)) ∧
    (∀ (bz : Bound) (ss zs : List (Option Run)), kind = 1 → 10 ≤ qf.toNat → qf.toNat ≤ 13 → fmtWidth bs.lay.fmt = 16 → st ≠ 63 →
      binding 2 false (st + 1) s1 = .ok (bz, s1) → fmtWidth bz.lay.fmt = 8 → Destination s1 bs vs (n / g) 1 64 16 ss →
      Destination s1 bz vs (n / g) 2 64 8 zs →
      ∃ u, Does i s u ∧ StoreQueued s1 u (.drainQ qf true g lbl row0.toNat n rnd (decide (ovf = 1)) bs.idx vs bz.idx) b v 1
        (rs.filterMap id ++ ss.filterMap id ++ zs.filterMap id))) ∧
  ∀ (w : BitVec 2) (q : BitVec 4) (t : BitVec 6) (c : BitVec 4) (qc : BitVec 1) (s : State), Can (.tst w q t c qc) w s →
    CoordReady s qc →
    let s1 := coordTaken s qc c
    let s2 := popped s1 q.toNat
    let v := s2.me.regs.d.getD c.toNat 0
    (¬ (4 ≤ q.toNat ∧ q.toNat ≤ 6) → Raises (.tst w q t c qc) s .queueMisuse (if qc = 1 then [(9, some c.toNat)] else [])) ∧
    (4 ≤ q.toNat → q.toNat ≤ 6 → (s1.me.q q.toNat).poppable s.now = [] → Waits (.tst w q t c qc) s 0 q.toNat) ∧
    ∀ (e : Line) (rest : List Line) (b : Bound) (blk off bit : Nat), 4 ≤ q.toNat → q.toNat ≤ 6 →
      (s1.me.q q.toNat).poppable s.now = e :: rest → binding 2 false t s2 = .ok (b, s2) →
      inTensor 2 b v s2 = .ok ((blk, off, bit), s2) → b.lay.lineStart (coords v) = true → Known s2 2 (b.lay.entry blk) →
      s2.outputOk b.idx = true → s2.me.drain.cmds.length < 4 → b.lay.ok b.raw = true →
      ∃ u runs, Does (.tst w q t c qc) s u ∧ StoreQueued s2 u (.tst e) b v 1 runs ∧
        (∀ r ∈ runs, r.row = 0 ∧ r.kind = 0 ∧ r.lay = b.idx ∧ r.blk = blk) ∧
        ∀ g, off / 256 * 2048 ≤ g → g < off / 256 * 2048 + 2048 →
          ((∃ r ∈ runs, 8 * r.off ≤ g ∧ g < 8 * r.off + r.len) ↔
            g / b.lay.pitchBits < 2 ^ b.lay.browl ∧
            (coords v).getD 0 0 / 2 ^ b.lay.bcoll * 2 ^ b.lay.bcoll + g % b.lay.pitchBits / fmtWidth b.lay.fmt < b.lay.ext.getD 0 0 ∧
            let row := (coords v).getD 1 0 / 2 ^ b.lay.browl * 2 ^ b.lay.browl + g / b.lay.pitchBits
            if b.lay.nextm1 = 0 then row = 0 else row < b.lay.ext.getD 1 0)

/-- One element of DRAIN (R235): bits unchanged, or the exact value converted. -/
def Sys2Proof.Claims.drained (dt rnd : Nat) (i64 ovf wrap : Bool) (x : DWord) : Nat :=
  let v := if i64 then Machine.Num.ofInt x.toInt else fpDecode ⟨11, 52, 1023, 0⟩ x.toNat
  if (dt = 0 ∧ i64 = false) ∨ (dt = 18 ∧ i64 = true) then x.toNat
  else if dt = 16 then intConvert 32 true rnd wrap v
  else if dt = 17 then intConvert 32 false rnd wrap v
  else if dt = 18 then intConvert 64 true rnd wrap v
  else fmtConvert dt rnd ovf wrap v

/-- The read row `j` of a command of `x`'s label sends runs: `wants` gives kind and row of a run, its clock and its bits. The
command goes on with `held`, or leaves the store queue after its last row of `n`. -/
def Sys2Proof.Claims.RowRead (s t : State) (p : Nat) (x : SCmd) (rest : List SCmd) (slot : Option Nat) (n : Nat)
    (held : List (List DWord)) (wants : List (Nat × Nat × Nat × Nat)) : Prop :=
  let d := (s.cr p).drain
  let clk := (s.cr p).clk
  let left := x.runs.filter fun r => !wants.any fun y => y.1 = r.kind && y.2.1 = r.row
  let y := { x with start := some (x.start.getD clk), slot := slot, reads := x.reads + 1, runs := left, held := held }
  (t.cr p).drain.cmds = (if x.reads + 1 = n then rest else y :: rest) ∧
  (∃ ds, (t.cr p).drain.deliveries = d.deliveries ++ ds ∧
    ds.map (fun z => ((z.seq, z.pos), (z.time, z.run), (z.data.length, bytesVal z.data))) =
      wants.flatMap fun y => (x.runs.find? fun r => r.kind = y.1 && r.row = y.2.1).toList.map fun r =>
        ((x.seq, x.pos), (y.2.2.1, r), ((r.len + 7) / 8, y.2.2.2 % 2 ^ r.len))) ∧
  (t.cr p).drain.freeAt = (if x.reads + 1 = n then clk + 1 else clk + x.u) ∧ (t.cr p).drain.buf = d.buf ∧
  (t.cr p).matrix = (s.cr p).matrix ∧ (t.cr p).regs = (s.cr p).regs ∧ t.mem = s.mem ∧ OtherCores s t p

/-- Bytes of a delivered run: offset in the line, byte, and the bits of it that are written. -/
def Sys2Proof.Claims.shareOf (z : Delivery) : List (Nat × Byte × Byte) :=
  (List.range z.data.length).map fun i =>
    (z.run.off % 256 + i, z.data.getD i 0, BitVec.ofNat 8 (2 ^ min 8 (z.run.len - 8 * i) - 1))

/-- The written bits of a line of the write buffer stand in memory at an address, all else is as before (R229). -/
def Sys2Proof.Claims.LineWritten (s t : State) (pa : Nat) (l : WLine) : Prop :=
  let k := s.key pa
  (∀ x ∈ l.bytes, byteAt t (k + x.1) = (byteAt s (k + x.1) &&& ~~~x.2.2) ||| (x.2.1 &&& x.2.2)) ∧
  ∀ a, (∀ x ∈ l.bytes, a ≠ k + x.1) → byteAt t a = byteAt s a

/-- The writes of a port that stand for a line are made at the end of the cycle in a near store, elsewhere now (R13). -/
def Sys2Proof.Claims.LineStored (s t : State) (port pa : Nat) (l : WLine) : Prop :=
  match place pa with
  | .near _ _ => t.mem = s.mem ∧ ∃ ws, t.writes = s.writes ++ ws ∧ (∀ w ∈ ws, w.port = port ∧ w.bad = false) ∧
      LineWritten s (ws.foldl (fun s w => s.writeBytes w.pa w.bytes) s) pa l
  | _ => LineWritten s t pa l ∧ t.writes = s.writes

/-- R229, R230, R235 to R239, R247. -/
def Obligations.DrainPipeline : Prop :=
  (∀ (s : State) (p : Nat) (x : SCmd) (rest : List SCmd),
    let c := s.cr p
    c.drain.cmds = x :: rest → c.clocked = true → c.drain.freeAt ≤ c.clk →
    (c.drain.buf.filter fun l => l.complete && l.remote.isNone).length < 16 →
    (c.matrix.claims.any (·.stream = .d)) = false →
    (∀ (lbl : BitVec 6) (slot : Option Nat) (r0 : Nat), x.kind.label = some lbl → x.kind.row0 = r0 →
      slot = (if x.start.isSome then x.slot else c.matrix.slotOf lbl) →
      (∀ k, slot = some k → Sparse.get 0 c.matrix.owner k = c.ctxId) →
      let r := r0 + x.reads
      let row := (List.range 64).map fun n => match slot with | some k => Sparse.get 0 c.matrix.slots (k * 4096 + r * 64 + n) | none => 0
      (∀ k, slot = some k → c.matrix.poison.contains (k * 64 + r) = true →
        ∃ t, Happens (.drainRowRead p) s t ∧ (t.cr p).drain.cmds = rest ∧ (t.cr p).drain.deliveries = c.drain.deliveries ∧
          (t.cr p).drain.buf.map (fun l => { l with complete := false }) = c.drain.buf.map (fun l => { l with complete := false }) ∧
          (∀ l ∈ (t.cr p).drain.buf, l.seq = x.seq → l.complete = true ∨ ∃ y ∈ c.drain.deliveries, y.seq = x.seq) ∧
          Reported s t p .uncorrectable ∧ t.mem = s.mem ∧ OtherCores s t p) ∧
      ((∀ k, slot = some k → c.matrix.poison.contains (k * 64 + r) = false) →
        (∀ dt i64 n rnd ovf wrap, x.kind = .drain dt i64 lbl r0 n rnd ovf wrap →
          let w := if dt.toNat = 16 ∨ dt.toNat = 17 then 32 else if dt.toNat = 18 then 64 else fmtWidth dt.toNat
          ∃ t, Happens (.drainRowRead p) s t ∧ RowRead s t p x rest slot n x.held
            [(0, x.reads, c.clk + 4, pack w (row.map (drained dt.toNat rnd.toNat i64 ovf wrap)))]) ∧
        (∀ qf g n rnd ovf l vs z, x.kind = .drainQ qf false g lbl r0 n rnd ovf l vs z →
          let num := row.map fun (e : DWord) => fpDecode ⟨11, 52, 1023, 0⟩ e.toNat
          let g0 := mxGroup qf.toNat rnd.toNat ovf (num.take 32)
          let g1 := mxGroup qf.toNat rnd.toNat ovf (num.drop 32)
          ∃ t, Happens (.drainRowRead p) s t ∧ RowRead s t p x rest slot n x.held
            [(0, x.reads, c.clk + 4, pack (fmtWidth qf.toNat) (g0.2 ++ g1.2)), (1, x.reads, c.clk + 4, pack 8 [g0.1, g1.1])]) ∧
        ∀ qf g n rnd ovf l vs z, x.kind = .drainQ qf true g lbl r0 n rnd ovf l vs z →
          let rows := x.held ++ [row]
          let cols := (List.range 64).map fun k =>
            asymGroup qf.toNat rnd.toNat (rows.map fun y => fpDecode ⟨11, 52, 1023, 0⟩ (y.getD k 0).toNat)
          let w := fmtWidth qf.toNat
          let code := fun (w : Nat) (i : Int) => (BitVec.ofInt w i).toNat
          let grp := x.reads / g
          ∃ t, Happens (.drainRowRead p) s t ∧ (rows.length < g → RowRead s t p x rest slot n rows []) ∧
            (g ≤ rows.length → RowRead s t p x rest slot n [] (((List.range g).map fun i =>
              (0, grp * g + i, c.clk + 4 + i, pack w (cols.map fun y => code w (y.2.2.getD i 0)))) ++
              [(1, grp, c.clk + 3 + g, pack 16 (cols.map (·.1))), (2, grp, c.clk + 3 + g, pack 8 (cols.map fun y => code 8 y.2.1))])))) ∧
    ∀ e, x.kind = .tst e → x.start = none → ∃ t ds, Happens (.drainRowRead p) s t ∧ (t.cr p).drain.cmds = (if x.reads = 0 then rest else (t.cr p).drain.cmds) ∧
      (t.cr p).drain.deliveries = c.drain.deliveries ++ ds ∧ t.mem = s.mem ∧ OtherCores s t p ∧
      ds.map (fun z => ((z.seq, z.pos), (z.time, z.run), (z.data.length, bytesVal z.data))) = x.runs.map fun r =>
        ((x.seq, x.pos), (c.clk + 4, r), ((r.len + 7) / 8, e.toNat / 2 ^ (8 * (r.off % 256)) % 2 ^ r.len))) ∧
  (∀ (qf rnd : Nat) (xs : List Machine.Num), 10 ≤ qf → qf ≤ 13 →
    let q := asymGroup qf rnd xs
    let signed := qf = 10 ∨ qf = 12
    let w := if qf ≤ 11 then 8 else 4
    q.2.2.length = xs.length ∧ ((Machine.Num.nan ∈ xs ∨ Machine.Num.inf true ∈ xs ∨ Machine.Num.inf false ∈ xs) →
      q = (0x7E00, 0, xs.map fun _ => 0)) ∧
    ((∀ x ∈ xs, ∃ n, x = .zero n) → q = (0x3C00, 0, xs.map fun _ => 0)) ∧
    (signed → -128 ≤ q.2.1 ∧ q.2.1 ≤ 127 ∧ ∀ y ∈ q.2.2, -2 ^ (w - 1) ≤ y ∧ y < 2 ^ (w - 1)) ∧
    (¬ signed → 0 ≤ q.2.1 ∧ q.2.1 ≤ 255 ∧ ∀ y ∈ q.2.2, 0 ≤ y ∧ y < 2 ^ w)) ∧
  (∀ (s : State) (p : Nat) (z : Delivery) (pre post : List Delivery),
    let c := s.cr p
    let d := c.drain
    let line := z.run.off / 256
    let mine := fun (l : WLine) => l.seq = z.seq && l.lay = z.run.lay && l.blk = z.run.blk && l.line = line &&
      l.kind = z.run.kind && !l.complete
    let touches := fun (r : Run) => r.kind = z.run.kind ∧ r.lay = z.run.lay ∧ r.blk = z.run.blk ∧ r.off / 256 ≤ line ∧
      line ≤ (r.off + (r.len + 7) / 8 - 1) / 256
    d.deliveries = pre ++ z :: post → c.clocked = true → z.time ≤ c.clk →
    (∀ y ∈ pre, y.time ≤ c.clk → z.run.kind < y.run.kind) → (∀ y ∈ post, y.time ≤ c.clk → z.run.kind ≤ y.run.kind) →
    z.data ≠ [] → (z.run.off + z.data.length - 1) / 256 = line →
    ∃ t l, Happens (.drainDelivery p) s t ∧ (t.cr p).drain.deliveries = pre ++ post ∧
      (t.cr p).drain.buf = d.buf.filter (fun l => !mine l) ++ [l] ∧
      l.seq = z.seq ∧ l.lay = z.run.lay ∧ l.blk = z.run.blk ∧ l.line = line ∧ l.kind = z.run.kind ∧
      l.bytes = ((d.buf.find? mine).map (·.bytes)).getD [] ++ shareOf z ∧
      (l.complete = true ↔ (∀ y ∈ pre ++ post, y.seq = z.seq → ¬ touches y.run) ∧
        ∀ y ∈ d.cmds, y.seq = z.seq → ∀ r ∈ y.runs, ¬ touches r) ∧
      (t.cr p).regs = (s.cr p).regs ∧ t.mem = s.mem ∧ OtherCores s t p) ∧
  (∀ (s : State) (p : Nat) (l : WLine) (rest : List WLine),
    let c := s.cr p
    (c.drain.buf.filter fun l => l.complete && l.remote.isNone) = l :: rest → c.clocked = true →
    c.drain.writeAt ≤ c.clk →
    (∀ pa u k i, s.lineDest p l = some (.at pa, u) → s.ctx? c.ctxId = some k → i < k.nlt → bits (s.layRaw k i) 0 4 = 15 →
      pa < (Region.of (s.layRaw k i)).span.1 ∨ (Region.of (s.layRaw k i)).span.1 + (Region.of (s.layRaw k i)).span.2 ≤ pa) ∧
    (∀ cause log u, s.lineDest p l = some (.fail cause log, u) →
      ∃ t, Happens (.writeBufferLineWrite p) s t ∧ Reported s t p cause ∧ t.mem = s.mem ∧
        (∀ y ∈ (t.cr p).drain.cmds, y.seq ≠ l.seq) ∧ (∀ y ∈ (t.cr p).drain.deliveries, y.seq ≠ l.seq)) ∧
    (∀ u, s.lineDest p l = some (.wait, u) → s.ownFrame p l = false →
      ∃ t n, 0 < n ∧ Happens (.writeBufferLineWrite p) s t ∧ t.mem = s.mem ∧ OtherCores s t p ∧
        (t.cr p).drain.buf = c.drain.buf.map fun x => if x = l then { l with remote := some (s.now + n), resolved := false } else x) ∧
    ∀ pa u, s.lineDest p l = some (.at pa, u) →
      (inNear p pa = true → Plain s pa → pa % 256 = 0 → (l.bytes.map (·.1)).Nodup → (∀ x ∈ l.bytes, x.1 < 256) →
        ∃ t, Happens (.writeBufferLineWrite p) s t ∧ LineStored s t 2 pa l ∧ (t.cr p).drain.buf = c.drain.buf.erase l ∧
          (t.cr p).drain.writeAt = c.clk + 1 ∧ (t.cr p).regs = c.regs ∧ OtherCores s t p) ∧
      (inNear p pa = false → ∃ t n, 0 < n ∧ Happens (.writeBufferLineWrite p) s t ∧ t.mem = s.mem ∧
        (t.cr p).drain.buf = c.drain.buf.map (fun x => if x = l then { l with remote := some (s.now + n), resolved := true } else x) ∧
        (t.cr p).regs = c.regs ∧ OtherCores s t p)) ∧
  ∀ (s : State) (p : Nat) (l : WLine) (rest : List WLine),
    ((s.cr p).drain.buf.filter (·.remote.isSome)) = l :: rest → l.remote.any (· ≤ s.now) = true → l.resolved = true →
    (∀ pa, s.dest p l.lay l.blk (256 * l.line) true = .at pa → Plain s pa → pa % 256 = 0 → (l.bytes.map (·.1)).Nodup →
      (∀ x ∈ l.bytes, x.1 < 256) → (∀ q f, place pa = .near q f → l.served = true) →
      ∃ t, Happens (.remoteLineWrite p) s t ∧ LineStored s t 3 pa l ∧ (t.cr p).drain.buf = (s.cr p).drain.buf.erase l ∧
        (t.cr p).regs = (s.cr p).regs ∧ OtherCores s t p) ∧
    ∀ cause log, s.dest p l.lay l.blk (256 * l.line) true = .fail cause log →
      ∃ t, Happens (.remoteLineWrite p) s t ∧ Reported s t p cause ∧ t.mem = s.mem

/-! ### Traps, watchdogs and the heartbeat -/

/-- A record of a stream's exception waits for the FIFO, and the stream or joined core has stopped; registers, queues and
memory are unchanged. -/
def Sys2Proof.Claims.Timeout (s t : State) (p : Nat) (st : Stream) (c : Cause) (kind idx : Nat) : Prop :=
  let k := s.cr p
  (∃ r, t.trapWait = s.trapWait ++ [(s.now, r)] ∧ r.core = p ∧ r.stop = some (if k.forked then some st else none) ∧
    let w := (r.words.getD 0 0).toNat
    bits w 0 6 = c.code ∧ bits w 20 3 = streamNo st ∧ bits w 28 3 = kind % 8 ∧ bits w 23 5 = idx % 32) ∧
  (t.cr p).stops = k.stops ++ [⟨if k.forked then some st else none, false⟩] ∧ (t.cr p).regs = k.regs ∧
  (t.cr p).queues = k.queues ∧ (t.cr p).tokens = k.tokens ∧ t.mem = s.mem ∧ OtherCores s t p

/-- A watchdog limit (R32, R362): the power of two that the field gives, or the default. -/
def Sys2Proof.Claims.limitOf (s : State) (p off dflt : Nat) : Nat :=
  match s.ctx? (s.cr p).ctxId with
  | some x => if x.field off 1 = 0 then 2 ^ dflt else 2 ^ x.field off 1
  | none => 2 ^ dflt

/-- A yardmaster has started on a slot with s1, in the state of R412, but for what had left its core before (R110, log 118); the slot's
body stands at its place (R437). -/
def Sys2Proof.Claims.OnSlot (t : State) (p : Nat) (b : Bool) (s1 : DWord) (missed : Option Bool) : Prop :=
  t.yard p = { inReset := false, missed := missed } ∧
  t.cr p = { regs := { s := (Vector.replicate 32 0).setIfInBounds 1 s1 }
             c := { line := BitVec.ofNat 64 (Config.firmwareBase + t.plovelm.hdr b 16 8) }
             stores := (t.cr p).stores, amos := (t.cr p).amos, gbArrives := (t.cr p).gbArrives, fences := (t.cr p).fences
             seq := (t.cr p).seq, first := (t.cr p).seq } ∧
  t.plovelm.activeB = b ∧
  ∀ k < t.plovelm.hdr b 12 4, byteAt t (Config.firmwareBase + k) = (t.plovelm.slot b 1024 (t.plovelm.hdr b 12 4)).getD k 0


/-- A measurement register has been extended by a digest, and the log has it (R414). -/
def Sys2Proof.Claims.Extended (v v' : Plovelm) (r : Nat) (d : BitVec 512) : Prop :=
  v'.meas[r]? = some (digestBits (sha512 (digestBytes (v.meas.getD r 0) ++ digestBytes d))) ∧
  (∀ k : Nat, k ≠ r → v'.meas[k]? = v.meas[k]?) ∧ v'.log = v.log ++ [(r, d)]

/-- The core's task has a forwarded trap that awaits its reply (R390). -/
def Sys2Proof.Claims.Awaiting (s : State) (p : Nat) : Prop :=
  ∃ x ∈ s.ctxs, ∃ f ∈ x.2.forwarded, f.core = p ∧ (s.cr p).task = some f.task

/-- R32, R387 to R391, R417 to R419. A wait for memory has KIND 0 and OBJ 0 by log 72; the ring's indices run on modulo 2^64 by log 30;
that a record is forwarded, or a TILE_FAULT noted, at its fourth word is log 81; that a restored slot which fails verification leaves
no firmware, and what stands when no yardmaster can run, is log 32. All four are DEDUCED. -/
def Obligations.TrapsAndWatchdogs : Prop :=
  (∀ (s : State) (p : Nat) (st : Stream) (w : Wait),
    let c := s.cr p
    c.stalled = some (st, w) → p < 512 → c.forked = false → c.freezeHeld = false → c.thawed = false → c.stops = [] →
    (Awaiting s p → Happens (.freezeWatchdogExpiry p) s s) ∧
    (c.freezeDog + 1 < limitOf s p 66 20 → Happens (.freezeWatchdogExpiry p) s s) ∧
    (¬ Awaiting s p → limitOf s p 66 20 ≤ c.freezeDog + 1 → ∃ t, Happens (.freezeWatchdogExpiry p) s t ∧ (t.cr p).freezeDog = 0 ∧
      (∀ kind idx, w = .object kind idx → Timeout s t p st .freezeTimeout kind idx) ∧
      ((∀ kind idx, w ≠ .object kind idx) → Timeout s t p st .freezeTimeout 0 0))) ∧
  (∀ (s : State) (p kind idx : Nat) (st : Stream),
    let c := s.cr p
    let x := c.st st
    p < 512 → c.freezeHeld = false → c.thawed = false →
    (c.forked = true ∧ x.hlt = false ∧ x.out = false ∧
        (x.wait = some (.object kind idx) ∨
          ((∀ k i, x.wait ≠ some (.object k i)) ∧ ∃ f, x.jn = some f ∧ kind = 7 ∧ idx = f.toNat)) ∨
      (c.forked = false ∧ st = .c ∧ c.stops = [] ∧ s.commitWait p = some (.object kind idx))) →
    (Awaiting s p → Happens (.waitWatchdogExpiry p st) s s) ∧
    (x.wdog + 1 < limitOf s p 67 24 → Happens (.waitWatchdogExpiry p st) s s) ∧
    (¬ Awaiting s p → limitOf s p 67 24 ≤ x.wdog + 1 → ∃ t, Happens (.waitWatchdogExpiry p st) s t ∧ ((t.cr p).st st).wdog = 0 ∧
      Timeout s t p st .waitTimeout kind idx)) ∧
  (∀ (s : State) (x : Nat × TrapRec) (pre post : List (Nat × TrapRec)),
    let key := fun (y : Nat × TrapRec) => (y.1 * 2 ^ 10 + y.2.core % 2 ^ 10) * 2 ^ 6 + bits (y.2.words.getD 0 0).toNat 20 3
    s.trapWait = pre ++ x :: post → (∀ y ∈ pre, key x < key y) → (∀ y ∈ post, key x ≤ key y) →
    (256 * 4 < s.trapFifo.length + 4 → Happens .trapRecordPlace s s) ∧
    (s.trapFifo.length + 4 ≤ 256 * 4 → ∃ t, Happens .trapRecordPlace s t ∧ t.trapFifo = s.trapFifo ++ x.2.words ∧
      t.trapWait = pre ++ post ∧ t.mem = s.mem ∧ (x.2.stop = none → t.cores = s.cores) ∧
      ∀ st a b, x.2.stop = some st → (s.cr x.2.core).stops = a ++ ⟨st, false⟩ :: b → (∀ z ∈ a, z.st = st → z.placed = true) →
        t = { s with trapFifo := t.trapFifo, trapWait := t.trapWait, cores := t.cores } ∧ OtherCores s t x.2.core ∧
        t.cr x.2.core = { s.cr x.2.core with stops := a ++ ⟨st, true⟩ :: b })) ∧
  (∀ (s : State) (y : Nat) (w : DWord) (ws : List DWord), s.yardUp y = true → s.trapFifo = w :: ws →
    let r := (if 4 ≤ s.fwRecord.length then [] else s.fwRecord) ++ [w]
    let u := { s with trapFifo := ws, fwRecord := r }
    let w0 := (r.getD 0 0).toNat
    (r.length < 4 → Happens (.trapqPop y) s u) ∧
    (4 ≤ r.length → bits w0 0 6 ∈ [0x0E, 0x0F, 0x11, 0x15, 0x16] → Happens (.trapqPop y) s u) ∧
    (4 ≤ r.length → bits w0 0 6 = 0x08 → ∃ x, Happens (.trapqPop y) s { u with tileFaults := u.tileFaults ++ [(x, r)] } ∧
      ∀ task, (s.cr (bits w0 31 9)).task = some task → task.ctx = bits w0 40 16 → task.wid = r.getD 1 0 → x = task) ∧
    ∀ c, 4 ≤ r.length → bits w0 0 6 ∈ [0x01, 0x02, 0x03, 0x04, 0x05, 0x06, 0x07, 0x09, 0x0A, 0x0B, 0x0C, 0x0D, 0x10, 0x12, 0x13, 0x14] →
      s.ctx? (bits w0 40 16) = some c →
      let made := s.readNat c.ring 8
      let used := s.readNat (c.ring + 8) 8
      ((made + 2 ^ 64 - used) % 2 ^ 64 = 2 ^ c.trl2 → Happens (.trapqPop y) s s) ∧
      ((made + 2 ^ 64 - used) % 2 ^ 64 < 2 ^ c.trl2 → c.ring % 64 = 0 → c.trl2 ≤ 16 → inYard c.ring = true →
        inYard (c.ring + 64 + 64 * 2 ^ c.trl2) = true → c.msia ≠ 0 → c.msia < 2 ^ 64 →
        ∃ t, Happens (.trapqPop y) s t ∧ t.trapFifo = ws ∧ t.msis = s.msis ++ [(c.msia, c.msid)] ∧ t.cores = s.cores ∧
          t.readBytes (c.ring + 64 + 64 * (made % 2 ^ c.trl2)) 64 = (List.range 8).flatMap (fun i => valBytes 8 (r.getD i 0).toNat) ∧
          t.readNat c.ring 8 = (made + 1) % 2 ^ 64 ∧
          ∀ f, (t.ctx? (bits w0 40 16)).map (·.forwarded) = some f →
            (bits w0 0 6 ∈ [0x09, 0x10, 0x13, 0x14] → ∃ x, f = c.forwarded ++ [⟨made % 2 ^ c.trl2, bits w0 31 9, x⟩]) ∧
            (bits w0 0 6 ∉ [0x09, 0x10, 0x13, 0x14] → f = c.forwarded))) ∧
  (∀ (s : State) (y : Nat), s.yardUp y = true →
    ∃ t, Happens (.heartbeat y) s t ∧ t.yard (512 + y) = { s.yard (512 + y) with hb := 0 } ∧ t.cores = s.cores ∧ t.mem = s.mem ∧
      t.plovelm = (if 512 + y = s.primary then { s.plovelm with switch := none } else s.plovelm)) ∧
  ∀ (s : State) (y : Nat), y < 2 →
    let p := 512 + y
    let v := s.plovelm
    p = s.primary → (s.yard p).inReset = false → Quiet (s.cr p) →
    ((s.yard p).hb < 32000000 → Happens (.heartbeatLimitExpiry y) s s) ∧
    (32000000 ≤ (s.yard p).hb →
      (∀ left addr, v.switch = some (left, addr) →
        (v.verify left = 0 → ∃ t, Happens (.heartbeatLimitExpiry y) s t ∧ OnSlot t p left addr (some v.activeB) ∧
          t.plovelm.switch = none ∧ Extended v t.plovelm 8 (v.imageDigest left) ∧ t.primary = p) ∧
        (v.verify left ≠ 0 → ∃ t, Happens (.heartbeatLimitExpiry y) s t ∧ (t.yard p).inReset = true ∧ t.plovelm = v)) ∧
      (v.switch = none → ∃ t, Happens (.heartbeatLimitExpiry y) s t ∧ (t.yard p).inReset = true ∧ (t.yard p).failed = true ∧
        ((s.yard (513 - y)).failed = false → OnSlot t (513 - y) v.activeB 0 (some v.activeB) ∧ t.primary = 513 - y) ∧
        ((s.yard (513 - y)).failed = true → t.yard (513 - y) = s.yard (513 - y) ∧ t.primary = p)))

/-- The oldest request receives a status (R415). -/
def Sys2Proof.Claims.Settled1 (s t : State) (r : RtsReq) (rs : List RtsReq) (n : Nat) : Prop :=
  t.plovelm.requests = { r with status := some n } :: rs ∧ t.plovelm.flash = s.plovelm.flash ∧ t.plovelm.svn = s.plovelm.svn ∧
  t.mem = s.mem ∧ t.cores = s.cores ∧ t.yard0 = s.yard0 ∧ t.yard1 = s.yard1

/-- R411 to R417, R437, R438. The order 3, 2, 1 in which VERIFY judges and the digests of register 0 are log 32 (DEDUCED), status 1 for a
revoked key log 85 (DEDUCED), the silence of the SPDM responder outside 1 to 16 log 64 (DEDUCED); SHA-512 is log 28 and the signature's
details log 121 (both PRESUMED), the public keys' values log 13. -/
def Obligations.RootOfTrust : Prop :=
  (∀ (s : State) (r : RtsReq) (rs : List RtsReq),
    let v := s.plovelm
    let field := fun off n => r.record.toNat / 2 ^ off % 2 ^ n
    let arg := field 8 8
    let clear := field 16 48 = 0 ∧ field 192 320 = 0
    let b := decide (arg = 1)
    v.requests = r :: rs → r.status = none → r.due ≤ s.now →
    (field 0 8 = 1 → ∃ t n, Happens .rtsVerify s t ∧ Settled1 s t r rs n ∧ t.plovelm.meas = v.meas ∧
      (¬ (clear ∧ arg ≤ 1) → n = 3) ∧
      (clear ∧ arg ≤ 1 → (n = 3 ↔ v.imageOk b = false) ∧
        (v.imageOk b = true → (n = 2 ↔ v.hdr b 8 4 < v.svn) ∧ (v.svn ≤ v.hdr b 8 4 →
          (n = 1 ↔ v.revoked.getLsbD (v.hdr b 24 1) = true ∨
            ¬ ((v.keys.getD (v.hdr b 24 1) 0 = digestBits (sha512
                (keyBytes (Config.publicKey (v.hdr b 24 1)).1 (Config.publicKey (v.hdr b 24 1)).2))) ∧
              rsaPssOk (Config.publicKey (v.hdr b 24 1)).1 (Config.publicKey (v.hdr b 24 1)).2 (v.slot b 512 512)
                (digestBytes (v.imageDigest b)) = true))))) ∧
      n ≤ 3 ∧ t.plovelm.verifiedA = (v.verifiedA || (decide (n = 0) && !b)) ∧
      t.plovelm.verifiedB = (v.verifiedB || (decide (n = 0) && b))) ∧
    (field 0 8 = 2 → ∃ t, Happens .rtsExtend s t ∧
      (∀ d, clear → 9 ≤ arg → arg ≤ 15 → r.digest = some d → Settled1 s t r rs 0 ∧ Extended v t.plovelm arg d) ∧
      (¬ (clear ∧ 9 ≤ arg ∧ arg ≤ 15 ∧ r.digest ≠ none) → Settled1 s t r rs 3 ∧ t.plovelm.meas = v.meas ∧ t.plovelm.log = v.log)) ∧
    (field 0 8 = 3 → ∃ t, Happens .rtsSwitch s t ∧
      let done := if b then v.verifiedB else v.verifiedA
      (v.switch ≠ none → Settled1 s t r rs 5) ∧
      (v.switch = none → ¬ (clear ∧ arg ≤ 1) → Settled1 s t r rs 3) ∧
      (v.switch = none → clear → arg ≤ 1 → done = false → Settled1 s t r rs 4) ∧
      (v.switch = none → clear → arg ≤ 1 → done = true → Quiet (s.cr s.primary) → inYard (field 128 64) = true →
        field 128 64 % 256 ≤ 252 →
        OnSlot t s.primary b (r.record.extractLsb' 64 64) none ∧ t.plovelm.requests = rs ∧
        t.plovelm.switch = some (v.activeB, r.record.extractLsb' 64 64) ∧ Extended v t.plovelm 8 (v.imageDigest b) ∧
        (v.hdr b 12 4 ≤ 2 ^ 24 → t.readNat (field 128 64) 4 = 0)))) ∧
  (∀ (s : State) (r : RtsReq) (rs : List RtsReq) (n : Nat), s.plovelm.requests = r :: rs →
    (r.status = some n ∨ (r.status = none ∧ n = 3 ∧ ¬ (1 ≤ r.record.toNat % 2 ^ 8 ∧ r.record.toNat % 2 ^ 8 ≤ 3) ∧ r.due ≤ s.now)) →
    let done := r.record.toNat / 2 ^ 128 % 2 ^ 64
    n < 2 ^ 32 → inYard done = true → done % 256 ≤ 252 →
    ∃ t, Happens .rtsRequestComplete s t ∧ t.readNat done 4 = n ∧ t.plovelm = { s.plovelm with requests := rs } ∧
      (t.yard s.primary).yip.getLsbD 1 = true ∧ t.cores = s.cores ∧
      t.yard (1025 - s.primary) = s.yard (1025 - s.primary)) ∧
  (∀ s : State, ∃ t, Happens .packageReset s t ∧
    let v := s.plovelm
    let z : Plovelm := { flash := v.flash, svn := v.svn, keys := v.keys, revoked := v.revoked, selectB := v.selectB }
    let boots := fun (b : Bool) => OnSlot t 512 b 0 none ∧ t.primary = 512 ∧ (t.yard 513).inReset = true ∧
      t.plovelm.bootFailed = false ∧ (∀ q, q ≠ 512 → t.cr q = {}) ∧
      (t.plovelm.appReset = Config.appImage.isNone) ∧
      (Config.appImage = none → Extended z t.plovelm 0 (v.imageDigest b))
    t.plovelm.flash = v.flash ∧ t.plovelm.svn = v.svn ∧ t.plovelm.keys = v.keys ∧ t.plovelm.revoked = v.revoked ∧
    t.plovelm.selectB = v.selectB ∧
    (z.verify v.selectB = 0 → boots v.selectB) ∧
    (z.verify v.selectB ≠ 0 → z.verify (!v.selectB) = 0 → boots (!v.selectB)) ∧
    (z.verify v.selectB ≠ 0 → z.verify (!v.selectB) ≠ 0 → t.plovelm.bootFailed = true ∧ (t.yard 512).inReset = true ∧
      (t.yard 513).inReset = true ∧ ∀ q, t.cr q = {})) ∧
  (∀ (s : State) (addr : Nat) (bs : List Byte), bs ≠ [] →
    let v := s.plovelm
    let v' := (s.act (.flash addr bs)).plovelm
    (addr < 2 ^ 24 → v'.verifiedA = false) ∧ (2 ^ 24 ≤ addr → v'.verifiedA = v.verifiedA) ∧
    (addr < 2 ^ 25 → 2 ^ 24 < addr + bs.length → v'.verifiedB = false) ∧
    ((2 ^ 25 ≤ addr ∨ addr + bs.length ≤ 2 ^ 24) → v'.verifiedB = v.verifiedB) ∧
    v' = { v with flash := v'.flash, verifiedA := v'.verifiedA, verifiedB := v'.verifiedB }) ∧
  ∀ (s : State) (i : Nat) (nonce : BitVec 256),
    (1 ≤ i → i ≤ 16 → ∃ sig, Happens (.spdmRequest i nonce) s { s with plovelm := { s.plovelm with
      spdm := s.plovelm.spdm ++ [(i, s.plovelm.meas.getD (i - 1) 0, nonce, sig)] } }) ∧
    ((i = 0 ∨ 16 < i) → Happens (.spdmRequest i nonce) s s)

/-! ### Snapshots and contexts -/

/-- Accesses reach an address of the device's own memory. -/
def Sys2Proof.Claims.Reached (s : State) (addr : Nat) : Prop :=
  place addr ≠ .control ∧ s.peer? addr = none ∧ s.farState addr = .ok

/-- A record may stand at an address: 64 KiB aligned, in memory that accesses reach. -/
def Sys2Proof.Claims.RecordAt (s : State) (addr : Nat) : Prop := addr % 65536 = 0 ∧ addr < 2 ^ 56 ∧ Reached s addr

/-- Accesses reach the save area of the core's context (R281, R399). -/
def Sys2Proof.Claims.SaveAt (s : State) (p : Nat) : Prop := ∀ x, s.ctx? (s.cr p).ctxWord = some x → Reached s x.savea

/-- The save area of a context and its word of saved bits stand in yard memory, apart from each other (R281, R362). -/
def Sys2Proof.Claims.SavesInYard (x : Context) : Prop :=
  inYard x.savea = true ∧ inYard (x.savea + 35 * 32768 - 1) = true ∧ inYard x.savew = true ∧ inYard (x.savew + 7) = true ∧
    (x.savew + 8 ≤ x.savea ∨ x.savea + 35 * 32768 ≤ x.savew)

/-- A record can be restored on core `p`: none of its lines is poisoned, its version is the core's, and the frames of its spill
area on the core, which the word at 0x1700 names (log 12), belong to its context. -/
def Sys2Proof.Claims.Loadable (s : State) (p addr : Nat) : Prop :=
  (∀ i < 256, s.poisoned (addr + 256 * i) = false) ∧ s.readNat addr 2 = 1 ∧
  let area := s.readNat (addr + 8 * 0x1700) 8
  2 ^ 63 ≤ area → ∀ i < area / 256 % 256,
    (s.tag (Config.nearBase + p * 2 ^ 22 + (area % 256 + i) * 2 ^ 15)).owner = s.readNat addr 8 / 2 ^ 48

/-- What a context owned on core `p` has owner 0; every other owner is as before. -/
def Sys2Proof.Claims.Disowned (s t : State) (p ctx : Nat) : Prop :=
  ∀ w < 33, Sparse.get 0 (t.cr p).matrix.owner w =
    if Sparse.get 0 (s.cr p).matrix.owner w = ctx then 0 else Sparse.get 0 (s.cr p).matrix.owner w

/-- R281, R368 to R373. What stands at the words from 0x1400 on, the spill area's at 0x1700 among them, is log 12 (DESIGN CHOICE). -/
def Obligations.Snapshots : Prop :=
  (∀ (s : State) (p addr : Nat), (s.cr p).freezeHeld = false →
    ∀ i ∈ [Instr.snapshotStore p addr, .snapshotLoad p addr, .snapshotEvict p, .snapshotClear p], Happens i s s) ∧
  (∀ (w : BitVec 2) (d a b : BitVec 5) (s : State), Can (.snapr w d a b) w s → Free s (.s a) → Free s (.s b) →
    let p := (s.me.getS a).toNat
    let i := (s.me.getS b).toNat
    p < 512 → (s.cr p).freezeHeld = true → i < 8192 →
    ∃ u v, Does (.snapr w d a b) s (gave u d v 0) ∧ OtherCores s u p ∧ u.mem = s.mem ∧
      (∀ x, (s.cr p).snapWord i = some x → u = s ∧ v = x) ∧
      ((s.cr p).snapWord i = none → (u.cr p).snapWords.find? (·.1 = i) = some (i, v) ∧
        u.cr p = { s.cr p with snapWords := (u.cr p).snapWords } ∧
        ∀ x, (s.cr p).snapWords.find? (·.1 = i) = some x → u = s)) ∧
  (∀ (w : BitVec 2) (d a b : BitVec 5) (s : State), Can (.snapw w d a b) w s → Free s (.s a) → Free s (.s b) → Free s (.s d) →
    let p := (s.me.getS a).toNat
    let i := (s.me.getS b).toNat
    let v := s.me.getS d
    p < 512 → (s.cr p).freezeHeld = true →
    (i = 0 → v.toNat % 65536 ≠ 1 → Raises (.snapw w d a b) s .accessViolation []) ∧
    (i ≠ 1 → i < 8192 → (s.cr p).snapWord i = none → ∃ t, Does (.snapw w d a b) s t ∧ OtherCores s t p ∧ t.mem = s.mem ∧
      t.cr p = { s.cr p with snapWords := Sparse.put (s.cr p).snapWords i v }) ∧
    (i ≠ 1 → i < 8192 → (i = 0 → v.toNat % 65536 = 1) → ∃ t, Does (.snapw w d a b) s t ∧ OtherCores s t p ∧ t.mem = s.mem ∧
      (∀ n : Nat, 0 < n → n < 32 → i = 0x100 + n → (t.cr p).regs.s[n]? = some v) ∧
      (∀ n < 16, (i = 0x120 + n → (t.cr p).regs.a[n]? = some v) ∧ (i = 0x130 + n → (t.cr p).regs.d[n]? = some v)) ∧
      (∀ n < 32, ∀ k < 32, i = 0x200 + 32 * n + k → ((t.cr p).regs.v.getD n 0).extractLsb' (64 * k) 64 = v) ∧
      (i = 0xE6 → (t.cr p).regs.wid = v) ∧ (i = 0 → (t.cr p).ctxWord = v.toNat / 2 ^ 48 ∧ (t.cr p).forked = v.getLsbD 17)) ∧
    (i = 1 → let addr := v.toNat / 2 ^ 16 % 2 ^ 40 * 65536
      (v.toNat % 4 = 0 → Does (.snapw w d a b) s s) ∧
      (v.toNat % 4 = 1 → RecordAt s addr → ∃ t, Happens (.snapshotStore p addr) s t ∧ Does (.snapw w d a b) s t) ∧
      (v.toNat % 4 = 2 → RecordAt s addr → Loadable s p addr → ∃ t, Happens (.snapshotLoad p addr) s t ∧
        Does (.snapw w d a b) s t) ∧
      (v.toNat % 4 = 3 → (v.getLsbD 16 = false → SaveAt s p) → ∃ t, Happens (if v.getLsbD 16 then .snapshotClear p else .snapshotEvict p) s t ∧
        Does (.snapw w d a b) s t))) ∧
  (∀ (s : State) (p addr : Nat), (s.cr p).freezeHeld = true → RecordAt s addr → Quiet (s.cr p) →
    ∃ t, Happens (.snapshotStore p addr) s t ∧ (t.cr p).task = none ∧ (t.cr p).freezeHeld = true ∧ (t.cr p).aloads = [] ∧
      (t.cr p).aq = [] ∧ (t.cr p).dq = [] ∧ (t.cr p).stops = [] ∧ (t.cr p).queues = .replicate 14 {} ∧
      (t.cr p).matrix.slots = (s.cr p).matrix.slots ∧ (t.cr p).matrix.plane0 = (s.cr p).matrix.plane0 ∧
      (t.cr p).matrix.plane1 = (s.cr p).matrix.plane1 ∧ (t.cr p).matrix.owner = (s.cr p).matrix.owner ∧
      (t.cr p).lookups.tlb = (s.cr p).lookups.tlb ∧ OtherCoresButPort3 s t p ∧
      (inYard addr = true → inYard (addr + 65535) = true →
        ∀ w v, (s.cr p).snapWord w = some v → w < 8192 → t.readNat (addr + 8 * w) 8 = v.toNat)) ∧
  (∀ (s : State) (p addr : Nat), (s.cr p).freezeHeld = true → RecordAt s addr → Loadable s p addr →
    let word := fun w => BitVec.ofNat 64 (s.readNat (addr + 8 * w) 8)
    ∃ t, Happens (.snapshotLoad p addr) s t ∧ (t.cr p).freezeHeld = true ∧ (t.cr p).ctxWord = s.readNat addr 8 / 2 ^ 48 ∧
      ((t.cr p).task.isSome = (word 0).getLsbD 16) ∧ (t.cr p).forked = (word 0).getLsbD 17 ∧
      (∀ n : Nat, 0 < n → n < 32 → (t.cr p).regs.s[n]? = some (word (0x100 + n))) ∧
      (∀ n < 16, (t.cr p).regs.a[n]? = some (word (0x120 + n)) ∧ (t.cr p).regs.d[n]? = some (word (0x130 + n))) ∧
      (∀ n < 32, ∀ k < 32, ((t.cr p).regs.v.getD n 0).extractLsb' (64 * k) 64 = word (0x200 + 32 * n + k)) ∧
      (t.cr p).regs.wid = word 0xE6 ∧ (t.cr p).regs.tcycle = word 0xE7 ∧
      (t.cr p).matrix.slots = (s.cr p).matrix.slots ∧ (t.cr p).matrix.plane0 = (s.cr p).matrix.plane0 ∧
      (t.cr p).matrix.plane1 = (s.cr p).matrix.plane1 ∧ (t.cr p).matrix.owner = (s.cr p).matrix.owner ∧
      (t.cr p).lookups.tlb = (s.cr p).lookups.tlb ∧ (t.cr p).lookups.tiles = (s.cr p).lookups.tiles ∧ t.mem = s.mem ∧
      OtherCores s t p) ∧
  ∀ (s : State) (p : Nat), (s.cr p).freezeHeld = true →
    let ctx := (s.cr p).ctxWord
    ctx ≠ 0 →
    (SaveAt s p → ∃ t, Happens (.snapshotEvict p) s t ∧ Disowned s t p ctx ∧ (t.cr p).matrix.slots = (s.cr p).matrix.slots ∧
      (t.cr p).regs = (s.cr p).regs ∧ OtherCores s t p ∧
      (∀ x, s.ctx? ctx = some x → SavesInYard x →
        (∀ w < 32, Sparse.get 0 (s.cr p).matrix.owner w = ctx → ∀ r < 64,
          (t.slotRow (x.savea + w * 32768) r).1 =
            (List.range 64).map fun n => Sparse.get 0 (s.cr p).matrix.slots (w * 4096 + r * 64 + n)) ∧
        ∀ w < 33, (t.readNat x.savew 8).testBit w =
          ((s.readNat x.savew 8).testBit w || decide (Sparse.get 0 (s.cr p).matrix.owner w = ctx))) ∧
      ∀ f < 128, let a := Config.nearBase + p * 2 ^ 22 + f * 2 ^ 15
        (s.tag a).owner = ctx → (t.tag a).owner = ctx ∧ (t.tag a).pin = false) ∧
    ∃ t, Happens (.snapshotClear p) s t ∧ Disowned s t p ctx ∧ (t.cr p).regs = (s.cr p).regs ∧ t.mem = s.mem ∧ OtherCores s t p ∧
      (t.cr p).kept = (s.cr p).kept ∧ (t.cr p).matrix.map = (s.cr p).matrix.map ∧
      (t.cr p).matrix.images = (s.cr p).matrix.images ∧
      (∀ w < 32, ∀ k < 4096, Sparse.get 0 (t.cr p).matrix.slots (w * 4096 + k) =
        if Sparse.get 0 (s.cr p).matrix.owner w = ctx then 0 else Sparse.get 0 (s.cr p).matrix.slots (w * 4096 + k)) ∧
      (Sparse.get 0 (s.cr p).matrix.owner 32 = ctx →
        (t.cr p).matrix.plane0 = {} ∧ (t.cr p).matrix.plane1 = {} ∧ (t.cr p).matrix.active1 = false)

/-- The request at the mailbox's head, of operation `op`. -/
def Sys2Proof.Claims.Asked (s : State) (r : BitVec 512) (rest : List Nat) (op : Nat) : Prop :=
  ∃ pa, s.mailbox = pa :: rest ∧ s.mailRecord pa = some r ∧ r.toNat % 2 ^ 8 = op ∧ (s.yard s.primary).inReset = false ∧
    (s.yard s.primary).halted = false

/-- The request is answered: status `n` is written at `DONE` over the state `u`. -/
def Sys2Proof.Claims.Answered (i : Instr) (s u : State) (r : BitVec 512) (n : Nat) : Prop :=
  Happens i s (u.writeBytes (r.toNat / 2 ^ 128 % 2 ^ 64) (valBytes 4 n))

/-- A refused request leaves the mailbox and changes nothing but its status word. -/
def Sys2Proof.Claims.Denied (i : Instr) (s : State) (r : BitVec 512) (rest : List Nat) (n : Nat) : Prop :=
  Answered i s { s with mailbox := rest } r n

/-- The steps of the operations of R419. -/
def Sys2Proof.Claims.mailSteps : List (Nat × Instr) := [(1, .contextCreate), (2, .contextDestroy), (3, .groupBind), (4, .groupRebind),
  (5, .groupResume), (6, .groupRelease), (7, .launchQueueAssign), (8, .trapReply)]

/-- Group `g` of a context has become `x`; nothing else but the mailbox has changed. -/
def Sys2Proof.Claims.GroupIs (s u : State) (rest : List Nat) (ctx g : Nat) (c : Context) (x : Group) : Prop :=
  u = { s with mailbox := rest, ctxs := Sparse.put s.ctxs ctx { c with groups := Sparse.put c.groups g x } }

/-- Where memory holds the first byte of an entry of a tile table that a valid layout-table entry of the context names: at the host's
address for a table in far memory. -/
def Sys2Proof.Claims.TileEntryAt (s : State) (c : Context) (k : Nat) : Prop :=
  k % 16 = 0 ∧ ∃ i < c.nlt, let x := s.readNat (c.ltab + 32 * i) 32
    (Lay.of x).ok x = true ∧ ∃ a, (Lay.of x).entry 0 ≤ a ∧ a ≤ (Lay.of x).entry (Lay.of x).nblkm1 + 15 ∧ s.key a = k

/-- R359 to R365, R389, R390, R419. That the firmware serves the oldest request only, whole in one step, is log 87 (DESIGN CHOICE). -/
def Obligations.FirmwareRequests : Prop :=
  (∀ x ∈ mailSteps, ∀ (s : State) (r : BitVec 512) (rest : List Nat), Asked s r rest x.1 → mailOk r = false →
    Denied x.2 s r rest 3) ∧
  (∀ (s : State) (r : BitVec 512) (rest : List Nat), mailOk r = true →
    let addr := r.toNat / 2 ^ 64 % 2 ^ 64
    let id := r.toNat / 2 ^ 192 % 2 ^ 16
    let grp := r.toNat / 2 ^ 208 % 2 ^ 16
    let arg := r.toNat / 2 ^ 8 % 2 ^ 8
    (∀ c : Context, Asked s r rest 1 → c.record = BitVec.ofNat 1024 (s.readEach addr 128) → c.destroying = false → c.groups = [] →
      c.forwarded = [] → c.ring = r.toNat / 2 ^ 256 % 2 ^ 64 → c.msia = r.toNat / 2 ^ 320 % 2 ^ 64 →
      c.msid = BitVec.ofNat 32 (r.toNat / 2 ^ 384) → c.trl2 = r.toNat / 2 ^ 416 % 2 ^ 8 →
      addr < 2 ^ 56 → s.readable addr = true → s.peer? addr = none → s.poisoned addr = false → s.poisoned (addr + 127) = false →
      (c.recordOk = true → s.ctx? c.ctxid = none →
        ∃ u, Answered .contextCreate s u r 0 ∧ u.mailbox = rest ∧ u.ctxs = Sparse.put s.ctxs c.ctxid c ∧ u.mem = s.mem ∧
          u.cores = s.cores ∧ ∀ i < c.nlt, (u.tag (c.ltab + 32 * i)).table = true) ∧
      ((c.recordOk = false ∨ s.ctx? c.ctxid ≠ none) → Denied .contextCreate s r rest 6)) ∧
    (Asked s r rest 2 →
      ((∀ c, s.ctx? id = some c → c.destroying = true) → Denied .contextDestroy s r rest 6) ∧
      ∀ c, s.ctx? id = some c → c.destroying = false → (s.launches.map (·.id)).Nodup →
        ∃ u d, Answered .contextDestroy s u r 0 ∧ u.mailbox = rest ∧ u.ctx? id = some d ∧ d.destroying = true ∧
          (∀ n < c.ngrp, (Sparse.get {} d.groups n).st = .released ∧ (Sparse.get {} d.groups n).queue = []) ∧
          (∀ q ∈ u.lqs, q.2.ctx.toNat = id → q.2.st = .disabled ∧ q.2.recs = []) ∧
          (∀ l ∈ u.launches, l.ctx = id → l.st ≠ .running ∧ l.st ≠ .preempted) ∧
          (∀ p t, (u.cr p).task = some t → t.ctx ≠ id) ∧
          (∀ e ∈ u.engines, e.task.ctx = id → e.started = true)) ∧
    (∀ c, s.ctx? id = some c → c.destroying = false →
      let g := Sparse.get {} c.groups grp
      let able := fun (d : DWord) => s.descriptor c grp = some d ∧ groupOk d = true ∧ (groupCores d).any s.coreLost = false
      let unable := ∀ d, s.descriptor c grp = some d → groupOk d = false ∨ ∃ p ∈ groupCores d, s.coreLost p = true
      (Asked s r rest 3 → (∀ d, grp < c.ngrp → (g.st = .declared ∨ g.st = .released) → able d →
          ∃ u, Answered .groupBind s u r 0 ∧ GroupIs s u rest id grp c { st := .bound, desc := d }) ∧
        ((unable ∨ ¬ (grp < c.ngrp ∧ (g.st = .declared ∨ g.st = .released))) → Denied .groupBind s r rest 6)) ∧
      (Asked s r rest 4 → (∀ d, grp < c.ngrp → g.st = .contained → able d → groupW d = groupW g.desc → groupH d = groupH g.desc →
          ∃ u, Answered .groupRebind s u r 0 ∧ GroupIs s u rest id grp c { g with desc := d }) ∧
        (∀ d, able d → (groupW d ≠ groupW g.desc ∨ groupH d ≠ groupH g.desc) → Denied .groupRebind s r rest 6) ∧
        ((unable ∨ ¬ (grp < c.ngrp ∧ g.st = .contained)) → Denied .groupRebind s r rest 6)) ∧
      (Asked s r rest 5 → (∀ l k, grp < c.ngrp → g.st = .contained → g.lost = some k → s.launch? k = some l → l.ctx = id →
          l.group = grp → l.phase ≤ l.sizes.length → phCont (l.record l.runningPhase) = false →
          walkSize (l.record l.runningPhase) ≠ 0 →
          ∃ u, Answered .groupResume s u r 0 ∧ Restarted s u k l.runningPhase l ∧ (u.group id grp).st = .running ∧
            (u.group id grp).lost = none) ∧
        (grp < c.ngrp → g.st = .contained → g.lost = none → ∃ u, Answered .groupResume s u r 0 ∧
          GroupIs s u rest id grp c { g with st := .running }) ∧
        (g.st ≠ .contained → Denied .groupResume s r rest 6)) ∧
      (Asked s r rest 6 → (grp < c.ngrp → (g.st = .bound ∨ g.st = .contained) →
          ∃ u, Answered .groupRelease s u r 0 ∧ (u.group id grp) = { g with st := .released, queue := [], lost := none } ∧
            u.cores = s.cores ∧ u.mem = s.mem) ∧
        (¬ (g.st = .bound ∨ g.st = .contained) → Denied .groupRelease s r rest 6)) ∧
      (Asked s r rest 7 → ((s.lq arg).st = .disabled → Answered .launchQueueAssign s
          (({ s with mailbox := rest } : State).setLq arg { s.lq arg with ctx := BitVec.ofNat 16 id }) r 0) ∧
        ((s.lq arg).st ≠ .disabled → Denied .launchQueueAssign s r rest 6)) ∧
      (Asked s r rest 8 → let tseq := r.toNat / 2 ^ 224 % 2 ^ 32
        (c.forwarded.find? (·.tseq = tseq) = none → Denied .trapReply s r rest 6) ∧
        ∀ f, c.forwarded.find? (·.tseq = tseq) = some f →
          (arg = 0 → (s.cr f.core).task = some f.task → ∃ u, Answered .trapReply s u r 0 ∧ u.mailbox = rest ∧
            (u.cr f.core).freezeHeld = false ∧ (u.cr f.core).stops = (s.cr f.core).stops.filter (!·.placed) ∧
            (u.cr f.core).regs = (s.cr f.core).regs ∧ (u.cr f.core).task = some f.task ∧ OtherCoresButPort3 s u f.core) ∧
          (arg = 1 → ∀ l, s.launch? f.task.launch = some l → (l.st = .running ∨ l.st = .preempted) →
            (∀ k ∈ s.launches, k.st = .preempted → k.id = l.id) →
            ∃ u, Answered .trapReply s u r 0 ∧ (u.launch? f.task.launch).map (·.st) = some .aborted)))) ∧
  ∀ (s : State) (id : Nat) (c : Context), id ≠ 0 → s.ctx? id = some c →
    (c.destroying = false → Happens (.contextDestructionComplete id) s s) ∧
    (c.destroying = true → s.engines.any (·.task.ctx = id) = false →
      (∀ x ∈ s.shunters, ∀ r, x.2.run = some r → r.ctx ≠ id) →
      ∃ t, Happens (.contextDestructionComplete id) s t ∧ t.ctxs = Sparse.del s.ctxs id ∧ t.ctx? id = none ∧
        t.kernels = s.kernels.filter (·.ctx ≠ id) ∧
        (∀ x ∈ t.cores, Sparse.get {} x.2.kept id = {} ∧ (x.2.mapCtx = id → x.2.matrix.slotMap = {})) ∧ (∀ p w, w < 33 → Sparse.get 0 (t.cr p).matrix.owner w ≠ id) ∧
        (Mem.wf s.mem = true → ∀ a, (TileEntryAt s c a → Sparse.get 0 t.mem a = Sparse.get 0 s.mem a &&& 0xFE) ∧
          (¬ TileEntryAt s c a → Sparse.get 0 t.mem a = Sparse.get 0 s.mem a)) ∧
        t.tags = s.tags.map fun x => (x.1, if x.2.owner = id then
          { x.2 with owner := 0, scrub := BitVec.allOnes 128, pin := false, table := false } else x.2))

/-! ### Translation tables -/

/-- Word 0 of a granule's entry has become `v`; every other word of the indirection table, and all memory but the table, is
as before. -/
def Sys2Proof.Claims.GranuleIs (s t : State) (pa v : Nat) : Prop :=
  t.granule pa 0 = v ∧ WroteBytes s t (Config.farTable + 16 * (pa / 2 ^ 21 % 2 ^ 25)) (valBytes 8 v)

/-- The key at which a granule's entry word places its first byte (R384). -/
def Sys2Proof.Claims.placeOf (w : Nat) : Nat := 2 ^ 72 * (1 + w / 2 ^ 5 % 2 ^ 3) + w / 2 ^ 21 % 2 ^ 43 * 2 ^ 21

/-- R381 to R386. What FMMIG does for a granule that is not STABLE, what clears FAIL, and when the bytes move is log 34 (DEDUCED). -/
def Obligations.TablesChange : Prop :=
  (∀ x ∈ [(0, Instr.tlbinvAll), (1, Instr.tlbinvAsid), (2, Instr.tlbinvPage)], ∀ (s : State) (v : DWord) (r : Nat),
    let va : DWord := BitVec.ofNat 64 (r / 2 ^ 64 % 2 ^ 64)
    let asid := r / 2 ^ 128 % 2 ^ 16
    let done := r / 2 ^ 192 % 2 ^ 64
    let keeps := fun (e : TlbEntry) =>
      if x.1 = 0 then false else if x.1 = 1 then !(e.asid = asid && !e.pte.getLsbD 5) else !e.covers asid va
    s.invRecord v = some r → done % 4 = 0 → inYard done = true → r % 4 = x.1 → invOk r = true →
    v.extractLsb' 0 5 = 0 → v.extractLsb' 56 8 = 0 →
    ∃ t users, Happens (x.2 v) s t ∧ t.tlbInvs = s.tlbInvs ++ [⟨done, 1, users⟩] ∧ t.mem = s.mem ∧
      (∀ p, (t.cr p).lookups.tlb = (s.cr p).lookups.tlb.filter keeps ∧ (t.cr p).regs = (s.cr p).regs) ∧
      (∀ i < 8, Sparse.get [] t.shedTlbs i = (Sparse.get [] s.shedTlbs i).filter keeps) ∧
      ∀ p n, (p, n) ∈ users ↔ ∃ c, (p, c) ∈ s.cores ∧ n = c.seq ∧ c.unresolved n = true) ∧
  (∀ (s : State) (v : DWord) (r : Nat), s.invRecord v = some r →
    let done := r / 2 ^ 192 % 2 ^ 64
    done % 4 = 0 → inYard done = true → (invOk r = false ∨ v.extractLsb' 0 5 ≠ 0 ∨ v.extractLsb' 56 8 ≠ 0) →
    Happens (.tlbinvAll v) s { s with tlbInvs := s.tlbInvs ++ [⟨done, 0x80000000, []⟩] }) ∧
  (∀ (s : State) (x : TlbInv) (xs : List TlbInv), s.tlbInvs = x :: xs →
    (x.users.any (fun u => (s.cr u.1).unresolved u.2) = true → Happens .tlbInvalidationDone s s) ∧
    (x.users.any (fun u => (s.cr u.1).unresolved u.2) = false → x.done % 4 = 0 → inYard x.done = true →
      ∃ t, Happens .tlbInvalidationDone s t ∧ t.tlbInvs = xs ∧ t.readNat x.done 4 = x.value.toNat ∧ t.cores = s.cores)) ∧
  (∀ (s : State) (v : DWord),
    let pa := (v.extractLsb' 21 35).toNat * 2 ^ 21
    let w := s.granule pa 0
    (s.migration.busy = true → Happens (.granuleMigrationStart v) s s) ∧
    (s.migration.busy = false → place pa = .far → w % 2 = 1 → w / 2 % 4 = 0 →
      ∃ t, Happens (.granuleMigrationStart v) s t ∧ t.migration.busy = true ∧ t.migration.fail = false ∧
        t.migration.gran = v.extractLsb' 21 35 ∧ s.now < t.migration.due ∧ GranuleIs s t pa (w + 2) ∧ t.cores = s.cores) ∧
    (s.migration.busy = false → (place pa ≠ .far ∨ w % 2 = 0 ∨ w / 2 % 4 ≠ 0) →
      ∃ t, Happens (.granuleMigrationStart v) s t ∧ t.migration.busy = false ∧ t.mem = s.mem ∧ t.cores = s.cores)) ∧
  ∀ s : State, s.migration.busy = true → Mem.wf s.mem = true →
    let pa := s.migration.gran.toNat * 2 ^ 21
    let w0 := s.granule pa 0
    let w1 := s.granule pa 1
    (w0 / 2 % 4 = 1 → s.migration.due ≤ s.now → (s.targetLink pa = .up ∨ s.targetLink pa = .degraded) → s.farLink pa = .ok →
      ∃ t, Happens .migrationCopyComplete s t ∧ GranuleIs s t pa (w0 + 2) ∧ t.migration = s.migration ∧ t.cores = s.cores) ∧
    (w0 / 2 % 4 = 2 → s.granuleBusy pa = false →
      ∃ t, Happens .migrationFlip s t ∧ t.migration = { s.migration with busy := false } ∧ t.granule pa 0 = w1 / 32 * 32 + 1 ∧
        (∀ k < 2 ^ 21, byteAt t (placeOf w1 + k) = byteAt s (placeOf w0 + k)) ∧ t.cores = s.cores ∧ Mem.wf t.mem = true) ∧
    (w0 / 2 % 4 = 1 → (s.targetLink pa = .lost ∨ s.targetLink pa = .down) →
      ∃ t, Happens .migrationAbandon s t ∧ t.migration = { s.migration with busy := false, fail := true } ∧
        GranuleIs s t pa (w0 - 2) ∧ t.cores = s.cores)

/-! ### Links -/

/-- Link `k` has become `l`; every other link is as before. -/
def Sys2Proof.Claims.LinkIs (s t : State) (k : Nat) (l : VLink) : Prop :=
  t.links[k]? = some l ∧ (∀ j : Nat, j ≠ k → t.links[j]? = s.links[j]?) ∧ t.mem = s.mem ∧ t.cores = s.cores

/-- Every open request on a link fails with LINK_LOST, and no other changes (R404). -/
def Sys2Proof.Claims.RequestsLost (s t : State) (k : Nat) : Prop :=
  t.peerReqs = s.peerReqs.map fun r => if r.link = k ∧ r.data = none ∧ r.error = none then { r with error := some .linkLost } else r

/-- The flits that stay unacknowledged once the far end expects `ack` (R404). -/
def Sys2Proof.Claims.leftAfter (l : VLink) (ack : Nat) : List Line :=
  let n := (ack + 4096 - (l.txSeq + 4096 - l.replay.length) % 4096) % 4096
  if n ≤ l.replay.length then l.replay.drop n else l.replay

/-- A NAK has come for `ack`: the flits from there on go out again, counted in RETRY, which saturates. -/
def Sys2Proof.Claims.Resent (l l' : VLink) (ack : Nat) : Prop :=
  l'.replay = leftAfter l ack ∧ l'.wire = l.wire ++ leftAfter l ack ∧ l'.st = l.st ∧ l'.rxSeq = l.rxSeq ∧ l'.txSeq = l.txSeq ∧
    l'.retry = if leftAfter l ack = [] ∨ l.retry = 0xFFFF then l.retry else l.retry + 1

/-- R399 to R404. The roots of the error-correcting code and its byte order are log 27 (PRESUMED), time limits log 36. -/
def Obligations.LinksWork : Prop :=
  (∀ (s : State) (k : Nat) (l : VLink), s.links[k]? = some l →
    let up := l.st = .up ∨ l.st = .degraded
    let open_ := s.peerReqs.any (fun r => r.link = k && r.data.isNone && r.error.isNone)
    ((l.st = .down ∨ l.st = .lost) → ∃ t l', Happens (.vylumEnable k) s t ∧ LinkIs s t k l' ∧ l'.st = .training ∧
      l'.since = s.now ∧ l'.replay = [] ∧ l'.genmax = l.genmax ∧ l'.wmin = l.wmin) ∧
    (l.st ≠ .down → l.st ≠ .lost → Happens (.vylumEnable k) s s) ∧
    (up → ∀ i ∈ [Instr.vylumRetrain k, .laneLockLoss k], ∃ t l', Happens i s t ∧ LinkIs s t k l' ∧ l'.st = .retraining ∧
      l'.since = s.now ∧ l'.replay = l.replay ∧ l'.txSeq = l.txSeq ∧ l'.rxSeq = l.rxSeq) ∧
    (¬ up → ∀ i ∈ [Instr.vylumRetrain k, .laneLockLoss k, .errorBurst k], Happens i s s) ∧
    (up → l.burst = true → ∃ t l', Happens (.errorBurst k) s t ∧ LinkIs s t k l' ∧ l'.st = .retraining ∧ l'.replay = l.replay ∧
      l'.bad = l.bad ∧ l'.burst = false) ∧
    (up → l.burst = false → Happens (.errorBurst k) s s) ∧
    (l.st = .down → Happens (.vylumDisable k) s s) ∧
    (l.st ≠ .down → ∃ t l', Happens (.vylumDisable k) s t ∧ LinkIs s t k l' ∧ l'.st = .down ∧ RequestsLost s t k ∧
      (open_ = true → Reported s t 0 .linkLost) ∧ (open_ = false → t.trapWait = s.trapWait)) ∧
    (∀ (lanes : BitVec 8) (gen : BitVec 2) (peer : BitVec 16) (plink : BitVec 8) (w : Nat),
      w ∈ [1, 2, 4, 8] → ((List.range 8).filter lanes.getLsbD).length < 2 * w ∨ w = 8 →
      w ≤ ((List.range 8).filter lanes.getLsbD).length → 8 / 2 ^ l.wmin.toNat ≤ w → (gen = 1 ∨ gen = 2) → gen.toNat ≤ l.genmax.toNat →
      let good := fun (l' : VLink) => l'.st = (if w = 8 ∧ gen = l.genmax then .up else .degraded) ∧ l'.lanes = lanes ∧
        l'.width.toNat = w ∧ l'.gen = gen ∧ l'.replay = l.replay
      (l.st = .training → s.now ≤ l.since + 160000000 → ∃ t l', Happens (.linkTrained k lanes gen peer plink) s t ∧
        LinkIs s t k l' ∧ good l' ∧ l'.peer = peer ∧ l'.plink = plink ∧ l'.retry = 0) ∧
      (l.st = .retraining → s.now ≤ l.since + 16000000 → ∃ t l', Happens (.linkTrained k lanes gen peer plink) s t ∧
        LinkIs s t k l' ∧ good l' ∧ l'.wire = l.wire ++ l.replay)) ∧
    (l.st = .training → l.since + 160000000 < s.now → ∃ t, Happens (.linkTrainingTimeout k) s t ∧ LinkIs s t k { l with st := .down }) ∧
    (l.st = .training → s.now ≤ l.since + 160000000 → Happens (.linkTrainingTimeout k) s s) ∧
    (l.st = .retraining → l.since + 16000000 < s.now → ∃ t l', Happens (.linkRetrainTimeout k) s t ∧ LinkIs s t k l' ∧
      l'.st = .lost ∧ RequestsLost s t k ∧ Reported s t 0 .linkLost) ∧
    (l.st = .retraining → s.now ≤ l.since + 16000000 → Happens (.linkRetrainTimeout k) s s) ∧
    (∀ ack : BitVec 12, up → ∃ t l', Happens (.nakReceive k ack) s t ∧ LinkIs s t k l' ∧ Resent l l' ack.toNat) ∧
    (∀ f : Line, (∀ odd, ∀ j < 4, rsSyndrome (interleave odd (lineBytes f)) j = 0) → flitCorrect f = f) ∧
    ∀ wire : Line, up →
      let f := flitCorrect wire
      let seq := f.toNat / 2 ^ 52 % 2 ^ 12
      let ack := f.toNat / 2 ^ 40 % 2 ^ 12
      let type := f.toNat / 2 ^ 36 % 2 ^ 4
      let crcOk := f.extractLsb' 1920 64 = crcBytes 0 ((lineBytes f).take 240)
      ∃ t l', Happens (.flitReceive k wire) s t ∧ t.links[k]? = some l' ∧ l'.received = l.received + 1 ∧ t.mem = s.mem ∧
        (crcOk → l'.bad = l.bad ∧ l'.burst = l.burst) ∧
        (¬ crcOk → LinkIs s t k l' ∧ (l'.burst = true ↔ l.burst = true ∨ 16 < l'.bad.length) ∧
          (∀ n, n ∈ l'.bad ↔ (n ∈ l.bad ∨ n = l.received + 1) ∧ l.received + 1 < n + 2 ^ 20) ∧ l'.rxSeq = l.rxSeq ∧
          l'.wire = l.wire ++ [makeFlit 0 l.rxSeq 2 []] ∧ l'.replay = l.replay) ∧
        (crcOk → type = 2 → LinkIs s t k l' ∧ Resent l l' ack) ∧
        (crcOk → type ≠ 2 → (type ≠ 1 ∨ seq ≠ l.rxSeq) → LinkIs s t k l' ∧ l'.replay = leftAfter l ack ∧ l'.rxSeq = l.rxSeq ∧
          l'.wire = l.wire) ∧
        (crcOk → type = 1 → seq = l.rxSeq → l'.replay = leftAfter l ack ∧ l'.rxSeq = (l.rxSeq + 1) % 4096 ∧
          l'.wire = l.wire ++ [makeFlit 0 ((l.rxSeq + 1) % 4096) 0 []] ∧
          ∀ (h : DWord) (data : List DWord) (op : Nat), l.partialUnit = [] → op ∈ [2, 4, 5] → h.toNat / 2 ^ 60 = op →
            data.length = (if op = 2 then h.toNat / 2 ^ 54 % 2 ^ 6 else 0) →
            (List.range 29).map (fun i => f.extractLsb' (64 * (i + 1)) 64) = h :: data ++ List.replicate (28 - data.length) 0 →
            t.peerReqs = s.peerReqs.map fun r =>
              if r.link = k ∧ r.tag = h.toNat / 2 ^ 40 % 2 ^ 14 ∧ r.data = none ∧ r.error = none then
                (if op = 5 then { r with error := some .accessViolation }
                  else { r with data := some (data.flatMap fun w => valBytes 8 w.toNat) })
              else r)) ∧
  ∀ (s : State) (n : Nat), ∀ x ∈ [(Ltssm.detect, LinkState.down), (.polling, .training), (.configuration, .training), (.l0Best, .up),
      (.l0Below, .degraded), (.recovery, .retraining), (.surpriseDown, .lost)],
    (n < 4 → ∃ t, Happens (.portLinkStateChange (.pcie n) x.1) s t ∧ t.pcie[n]? = some x.2 ∧
      (∀ j : Nat, j ≠ n → t.pcie[j]? = s.pcie[j]?) ∧ t.cxl = s.cxl ∧ t.mem = s.mem ∧ t.cores = s.cores) ∧
    (n < 8 → ∃ t, Happens (.portLinkStateChange (.cxl n) x.1) s t ∧ t.cxl[n]? = some x.2 ∧
      (∀ j : Nat, j ≠ n → t.cxl[j]? = s.cxl[j]?) ∧ t.pcie = s.pcie ∧ t.mem = s.mem ∧ t.cores = s.cores)

/-! ### Rounds, peers and the outside -/

/-- The memory word after the requests before place `k` of a round of R122. -/
def Sys2Proof.Claims.roundValue (w m : Nat) (rs : List RoundReq) (k : Nat) : BitVec w :=
  (rs.take k).foldl (fun v r => amoNew r.op w v (BitVec.ofNat w r.b.toNat) (BitVec.ofNat w r.cmp.toNat)) (BitVec.ofNat w m)

/-- The contributions of a round of R121 before place `k`. -/
def Sys2Proof.Claims.roundSum (rs : List RoundReq) (k : Nat) : Nat := ((rs.take k).map fun r => if r.op = .null then 0 else r.b.toNat).sum

/-- What an atomic of an application core leaves of `m` with the operand `b`. -/
def Sys2Proof.Claims.hartValue {w : Nat} (op : HartOp) (m b : BitVec w) : BitVec w :=
  match op with
  | .swap => b
  | .add => m + b
  | .xor => m ^^^ b
  | .and => m &&& b
  | .or => m ||| b
  | .min => if b.slt m then b else m
  | .max => if m.slt b then b else m
  | .minu => if b.ult m then b else m
  | .maxu => if m.ult b then b else m

/-- The store of a register of the control region. -/
def Sys2Proof.Claims.Stores (s t : State) (addr : Nat) (v : DWord) : Prop :=
  Happens (.registerWrite addr v 5 0 8) s t ∧ t.mem = s.mem ∧ t.cores = s.cores

/-- R121, R122, R314, R315, R392 to R396, R407, R409, R410, R420. The bytes that a reservation covers, and what ends it, are log 104
(DESIGN CHOICE); the operations of the atomics are those of the RISC-V harts that R314 names (PRESUMED, log 125). -/
def Obligations.PackageEvents : Prop :=
  (∀ (s : State) (i pa w : Nat) (q : RoundReq) (k : BitVec 2) (rs : List RoundReq), s.rounds[i]? = some q → s.roundFull q = true →
    rs.Perm (s.rounds.filter (·.same q)) → rs.Pairwise (fun x y => x.ordinal < y.ordinal) → (∀ r ∈ rs, r.width = w) →
    w ∈ [16, 32, 64] → (∀ r ∈ rs, r.b.toNat < 2 ^ w ∧ r.cmp.toNat < 2 ^ w) → s.roundPlace q = .at pa k → Plain s pa →
    s.poisoned pa = false → pa % (w / 8) = 0 →
    let m := s.readNat pa (w / 8)
    let n := rs.length
    let total := m + roundSum rs n
    ∃ t ds, Happens (.roundClose i) s t ∧ t.rounds = s.rounds.filter (fun r => !r.same q) ∧ t.roundsDone = s.roundsDone ++ ds ∧
      t.cores = s.cores ∧ (∀ d ∈ ds, d.launch = q.launch ∧ d.phase = q.phase ∧ d.kind = q.kind ∧ d.va = q.va ∧ d.round = q.round) ∧
      ds.map (·.ordinal) = rs.map (·.ordinal) ∧
      (q.kind = false → WroteAt s t pa (valBytes (w / 8) (min (2 ^ w - 1) total)) ∧
        (w < 64 → ds.map (fun d => (d.value.toNat, d.cause)) = (List.range n).map fun j =>
          (min (2 ^ w - 1) (m + roundSum rs j) + (if 2 ^ w ≤ total then 2 ^ 63 else 0),
            if 2 ^ w ≤ total then some Cause.routeOverflow else none))) ∧
      (q.kind = true → WroteAt s t pa (valBytes (w / 8) (roundValue w m rs n).toNat) ∧
        ds.map (fun d => (d.value, d.cause)) = (List.range n).map fun j =>
          (if w = 32 then BitVec.ofInt 64 (roundValue w m rs j).toInt else BitVec.ofNat 64 (roundValue w m rs j).toNat, none))) ∧
  (∀ (s : State) (k : Nat) (l : VLink) (rq : PeerRequest), s.links[k]? = some l → l.incoming = [] →
    let pa := rq.addr.toNat
    let header := fun (op len : Nat) => BitVec.ofNat 64 (op * 2 ^ 60 + len * 2 ^ 54 + rq.tag.toNat * 2 ^ 40)
    let sent := fun (t : State) (u : List DWord) => (t.links[k]?).map (·.backlog) = some (l.backlog ++ [u]) ∧ t.cores = s.cores
    let n := 8 * (if rq.op = .read then rq.len else rq.words.length)
    0 < n → pa % 256 + n ≤ 256 →
    (((s.tag pa).landing = false ∨ place pa = .control ∨ place pa = .firmware) →
      ∃ t, Happens (.peerRequestReceive k rq) s t ∧ sent t [header 5 0] ∧ t.mem = s.mem ∧
        (Sparse.get (0, 0) t.elog (2072 + k)).1.msb = true) ∧
    ((s.tag pa).landing = true → place pa ≠ .control → place pa ≠ .firmware → Plain s pa →
      (∀ a ∈ [Acc.load, .store], s.reachPa a pa 0 (BitVec.ofNat 64 pa) = .at pa 0) → ∀ q f, place pa = .near q f →
      s.served.contains (.peer k) = false → s.waitsPort3 (.peer k) = false →
      ∃ t, Happens (.peerRequestReceive k rq) s t ∧ (t.links[k]?).map (·.incoming) = some [rq] ∧ t.mem = s.mem ∧
        t.cr q = { s.cr q with port3Q := (s.cr q).port3Q ++ [⟨6, .peer k, s.now, 1, 0⟩] } ∧ OtherCores s t q) ∧
    ((s.tag pa).landing = true → place pa ≠ .control → place pa ≠ .firmware → Plain s pa → s.poisoned pa = false →
      (∀ a ∈ [Acc.load, .store], s.reachPa a pa 0 (BitVec.ofNat 64 pa) = .at pa 0) →
      (∀ q f, place pa = .near q f → s.served.contains (.peer k) = true) →
      (rq.op = .read → ∃ t ws, Happens (.peerRequestReceive k rq) s t ∧ sent t (header 2 rq.len :: ws) ∧ t.mem = s.mem ∧
        (ws.flatMap fun w => valBytes 8 w.toNat) = s.readBytes pa n ∧ ws.length = rq.len) ∧
      (rq.op = .write → ∃ t, Happens (.peerRequestReceive k rq) s t ∧ sent t [header 4 0] ∧
        WroteAt s t pa (rq.words.flatMap fun w => valBytes 8 w.toNat)) ∧
      (rq.op = .reduce → ∀ x, (s.windows.find? fun v => v.unit = s.unitOf pa && v.source = rq.source && v.launch = 0) = some x →
        x.has rq.seq.toNat = true → ∃ t, Happens (.peerRequestReceive k rq) s t ∧ sent t [header 4 0] ∧ t.mem = s.mem))) ∧
  (∀ (s : State) (addr : Nat) (v : DWord) (rqk : BitVec 4) (rqi : BitVec 12) (size : Nat) (rsn : Nat),
    (if rqk.toNat ≤ 1 then rsn = 3 else if size ≠ 8 ∨ addr % 8 ≠ 0 then rsn = 0x0A else ctlReg addr = none ∧ rsn = 0x0B) →
    (Sparse.get (0, 0) s.elog 2094).1.msb = false →
    ∃ t, Happens (.registerWrite addr v rqk rqi size) s t ∧ t = { s with elog := t.elog } ∧
      let e := Sparse.get (0, 0) t.elog 2094
      e.1.msb = true ∧ (e.1.extractLsb' 48 8).toNat = rsn ∧ e.1.extractLsb' 28 4 = rqk ∧ e.1.extractLsb' 16 12 = rqi ∧
        e.2 = BitVec.ofNat 64 addr) ∧
  (∀ (s : State) (v : DWord), (∃ t, Stores s t (Config.controlBase + 0x300008) v ∧
      t.plim.toNat = max 1600 (min 2400 (v.toNat % 2 ^ 12)) ∧ t.pnow = s.pnow ∧ t.mv = s.mv) ∧
    (∀ j < 64, ∃ t, Stores s t (Config.controlBase + 0x600000 + 16 * j) v ∧
      t.peerWindows[j]? = some (v &&& 0xE0FFFFFFC000FFFF, (s.peerWindows.getD j (0, 0)).2) ∧
      ∀ i : Nat, i ≠ j → t.peerWindows[i]? = s.peerWindows[i]?) ∧
    ∀ k < 16, Stores s s (Config.controlBase + 0x500008 + 256 * k) v) ∧
  (∀ (s : State) (rq : Access), rq.satp = none → s.ioWait = [] → 0 < rq.size → rq.addr.toNat % 256 + rq.size ≤ 256 →
    rq.addr.toNat < 2 ^ 56 → s.plovelm.appReset = false →
    let pa := rq.addr.toNat
    let old := s.readBytes pa rq.size
    let data := (lineBytes rq.data).take rq.size
    Plain s pa → place pa ≠ .control → s.poisoned pa = false →
    (∀ a ∈ [Acc.load, .store, .amo], s.reachPa a pa 0 rq.addr = .at pa 0) →
    (∀ i ∈ [Instr.applicationCoreAccess rq, .pcieMemoryRequest rq],
      (∀ q f, place pa = .near q f → s.served.contains (.outside s.nextCmd) = false → s.waitsPort3 (.outside s.nextCmd) = false →
        (rq.kind = .load ∨ rq.kind = .store ∨ ∃ op, rq.kind = .amo op) → ∃ t, Happens i s t ∧ t.ioWait.map (·.rq) = [rq] ∧ t.replies = s.replies ∧
          t.mem = s.mem ∧ OtherCores s t q ∧
          t.cr q = { s.cr q with port3Q := (s.cr q).port3Q ++ [⟨6, .outside s.nextCmd, s.now, 1, 0⟩] }) ∧
      ((∀ q f, place pa ≠ .near q f) → (rq.kind = .load ∨ rq.kind = .store ∨ ∃ op, rq.kind = .amo op) → ∃ t reply, Happens i s t ∧
        t.replies = s.replies ++ [(rq.requester, some reply)] ∧ t.ioWait = [] ∧
        (rq.kind = .load → reply = lineOf old ∧ t.mem = s.mem) ∧
        (rq.kind = .store → WroteAt s t pa data) ∧
        (∀ op, rq.kind = .amo op → reply = lineOf old ∧ WroteAt s t pa (valBytes rq.size
          (hartValue op (BitVec.ofNat (8 * rq.size) (bytesVal old)) (BitVec.ofNat (8 * rq.size) (bytesVal data))).toNat)))) ∧
    ((∀ q f, place pa ≠ .near q f) → rq.kind ∈ [.loadReserved, .storeConditional] →
      let held := (rq.requester, s.key (pa / 256 * 256) + pa % 256, rq.size)
      ∃ t reply, Happens (.applicationCoreAccess rq) s t ∧ t.replies = s.replies ++ [(rq.requester, some reply)] ∧ t.ioWait = [] ∧
        (rq.kind = .loadReserved → reply = lineOf old ∧ t.mem = s.mem ∧
          t.reservations = s.reservations.filter (·.1 ≠ rq.requester) ++ [held]) ∧
        (rq.kind = .storeConditional → s.reservations.contains held = true → reply = 0 ∧ WroteAt s t pa data) ∧
        (rq.kind = .storeConditional → s.reservations.contains held = false → reply = 1 ∧ t.mem = s.mem))) ∧
  (∀ (s : State) (f : Nat) (b : Bool), ((s.act (.landing f b)).tag (f * 2 ^ 15)).landing = b ∧
    ∀ g : Nat, g ≠ f → (s.act (.landing f b)).tag (g * 2 ^ 15) = s.tag (g * 2 ^ 15)) ∧
  (∀ (s : State) (x : Stored), Happens (.softError x false) s { s with softErrors := s.softErrors + 1 } ∧
    (∀ addr, x = .line addr → s.tableOf addr = none →
      ∃ t, Happens (.softError x true) s t ∧ t.poison.contains (s.key addr / 256) = true ∧
        t.mem = s.mem ∧ t.cores = s.cores ∧ ∀ y, y ≠ s.key addr / 256 → t.poison.contains y = s.poison.contains y) ∧
    (∀ p slot row, x = .slotRow p slot row → slot < 32 → row < 64 → ∃ t, Happens (.softError x true) s t ∧
      (t.cr p).matrix.poison.contains (slot * 64 + row) = true ∧ (t.cr p).matrix.slots = (s.cr p).matrix.slots ∧
      (t.cr p).regs = (s.cr p).regs ∧ t.mem = s.mem ∧ OtherCores s t p) ∧
    (∀ p line, x = .planeLine p 0 line → ∃ t, Happens (.softError x true) s t ∧ (t.cr p).matrix.plane0.bad.contains line = true ∧
      (t.cr p).matrix.plane0.bytes = (s.cr p).matrix.plane0.bytes ∧ (t.cr p).matrix.plane1 = (s.cr p).matrix.plane1 ∧
      t.mem = s.mem ∧ OtherCores s t p)) ∧
  (∀ (s : State) (shed : Nat), shed < 8 →
    (s.lost.getLsbD shed = false → ∃ t, Happens (.shedLost shed) s t ∧ t.lost.getLsbD shed = true ∧
      t.lostReport.getLsbD shed = true ∧ (∀ j < 8, j ≠ shed → t.lost.getLsbD j = s.lost.getLsbD j) ∧
      (s.lostGroups shed = [] → t.cores = s.cores ∧ t.mem = s.mem ∧ t.launches = s.launches ∧ t.ctxs = s.ctxs)) ∧
    (s.lost.getLsbD shed = true → s.lostReport.getLsbD shed = true → s.shedExchange shed = false →
      ∃ t r, Happens (.shedLost shed) s t ∧ t.lostReport.getLsbD shed = false ∧ t.trapWait = s.trapWait ++ [(s.now, r)] ∧
        r.stop = none ∧ bits (r.words.getD 0 0).toNat 0 6 = 0x16 ∧ bits (r.words.getD 0 0).toNat 20 3 = 6 ∧
        r.words.getD 3 0 = BitVec.ofNat 64 shed ∧ t.cores = s.cores)) ∧
  ∀ (s : State) (pnow : BitVec 16) (mv : BitVec 12),
    (500 ≤ mv.toNat → mv.toNat ≤ 650 → pnow.toNat ≤ s.plim.toNat →
      Happens (.dvfs pnow mv) s { s with pnow := pnow, mv := mv }) ∧
    (¬ (500 ≤ mv.toNat ∧ mv.toNat ≤ 650 ∧ pnow.toNat ≤ s.plim.toNat) → Happens (.dvfs pnow mv) s s)

/-! ### The whole machine -/

/-- The qualifier of an encoded instruction: bits [24:23] of its first word. -/
def Sys2Proof.Claims.qualifier (i : Instr) : BitVec 2 := ((encode i).headD 0).extractLsb' 23 2

/-- The loops that govern the acting stream: its own in forked mode, C's in joined mode. -/
def Sys2Proof.Claims.governing (s : State) : Option LoopLevel :=
  let x := if s.me.forked then s.me.st s.stream else s.me.c
  ([5, 4, 3, 2, 1, 0] : List Nat).findSome? fun n => if (x.loops.getD n {}).active then some (x.loops.getD n {}) else none

/-- The table of R69. -/
def Sys2Proof.Claims.issuesIn : Nat → Option LoopLevel → Bool
  | 0, _ => true
  | 1, some l => l.index = 0
  | 2, some l => l.index = l.count - 1
  | 3, some l => l.index ≠ l.count - 1
  | n, none => n ≠ 3
  | _, _ => true

/-- A joined core `p` comes to its turn with line `v` fetched, and nothing stalls it. -/
def Sys2Proof.Claims.JoinedAt (s : State) (p : Nat) (v : ILine) : Prop :=
  (∃ p0 st0, s.turn = .issue p0 st0 ∧ s.nextIssue p0 st0 = some (p, .c)) ∧ (s.cr p).forked = false ∧
    (s.cr p).hold ≤ (s.cr p).clk ∧ s.gate p = none ∧ (s.cr p).c.lane < 8 ∧ (s.cr p).c.buf = some v

/-- Lane `k` of core `p` acts, for stream `st`, in the turn of stream `u`. -/
def Sys2Proof.Claims.acting (s : State) (p : Nat) (u st : Stream) (k : Nat) : State :=
  { s with turn := nextPlace p u, core := p, stream := st, laneNo := k }

/-- R69. Where a yardmaster's line has a decode exception, no lane of it has taken effect: `YTEPC` has the lane from which the line was
to go on (R83, log 123). -/
def Obligations.IqDecides : Prop :=
  (∀ (s : State) (i : Instr), isEvent i = false → s.refusal i = none →
    (issuesIn (qualifier i).toNat (governing s) = false → exec i s = .next { s with lane := .suppressed }) ∧
    (issuesIn (qualifier i).toNat (governing s) = true → ∀ t, exec i s = .next t → t.lane ≠ .suppressed)) ∧
  (∀ (s : State) (i : Instr) (c : Cause), isEvent i = false → s.refusal i = some c →
    exec i s = .next (s.laneTrap c 0 [] none)) ∧
  ∀ (s : State) (p : Nat) (v : ILine) (k : Nat) (st : Stream) (c : Cause), JoinedAt s p v →
    lineFault (isYard p) false v = some (k, st, c) →
      step s = .next ((acting s p .c st (if isYard p then (s.cr p).c.lane else k)).laneTrap c 0 [] none)

/-- Lanes `ks` of line `v` execute from `s` to `t`: each decoded instruction completes or is suppressed, and none follows a TRAP of
its own stream. -/
def Sys2Proof.Claims.LanesRun (v : ILine) : List Nat → State → State → Prop
  | [], s, t => t = s
  | k :: ks, s, t =>
    match codeStream (laneCode v k) with
    | none => Sys2Proof.Claims.LanesRun v ks s t
    | some st => ((s.cr s.core).st st).swTrap = none ∧ ∃ i u, laneDec v st k = .ok i ∧
        exec i { s with stream := st, laneNo := k } = .next u ∧ (u.lane = .done ∨ u.lane = .suppressed) ∧
        Sys2Proof.Claims.LanesRun v ks u t

/-- The state in which the first lane of a joined line acts: a wait of the line is over. -/
def Sys2Proof.Claims.lineStart (s : State) (p : Nat) : State :=
  (acting s p .c .c 0).setCr p { s.cr p with c := { (s.cr p).c with wait := none } }

/-- A forked stream `st` of core `p` comes to its turn with line `v` fetched, and nothing stalls it. -/
def Sys2Proof.Claims.ForkedAt (s : State) (p : Nat) (st : Stream) (v : ILine) : Prop :=
  (∃ p0 st0, s.turn = .issue p0 st0 ∧ s.nextIssue p0 st0 = some (p, st)) ∧ (s.cr p).forked = true ∧
    s.gateForked p st = none ∧ ((s.cr p).st st).lane < 8 ∧ ((s.cr p).st st).buf = some v

/-- The state in which a forked stream's lane `k` acts. -/
def Sys2Proof.Claims.laneStart (s : State) (p : Nat) (st : Stream) (k : Nat) : State :=
  (acting s p st st k).setCr p ((s.cr p).setSt st { (s.cr p).st st with lane := k, wait := none })

/-- The stream has issued in this cycle. -/
def Sys2Proof.Claims.hasIssued (c : Core) (st : Stream) : Core := { c with issued := c.issued ||| (1#4 <<< streamNo st) }

/-- R58, R62, R63, R65, R83, R151. That on a yardmaster the lanes before a faulting one have taken effect is log 44, that a forked stream
issues one lane a cycle log 46 (both DEDUCED), that a joined line begins the tile-table lookups of all its lanes at once log 117. -/
def Obligations.StepRunsDecoded : Prop :=
  (∀ (s : State) (p : Nat) (v : ILine), JoinedAt s p v → lineFault (isYard p) false v = none →
    (∀ t, LanesRun v (lanes.filter ((s.cr p).c.lane ≤ ·)) (lineStart s p) t →
      step s = .next (endLine p .c (t.setCr p { t.cr p with issued := 0xF }))) ∧
    ∀ ks k rest t st i u, lanes.filter ((s.cr p).c.lane ≤ ·) = ks ++ k :: rest → LanesRun v ks (lineStart s p) t →
      codeStream (laneCode v k) = some st → ((t.cr t.core).st st).swTrap = none → laneDec v st k = .ok i →
      exec i { t with stream := st, laneNo := k } = .next u →
      (∀ w l, u.lane = .waiting w l → (∀ r, w ≠ .sameLine r) →
        let s0 := { lineStart s p with stream := st, laneNo := k }
        ((∀ port ea, l ≠ some (.tile port ea)) → step s = .next ((s0.begin l).stall p st w)) ∧
        ∀ port ea, l = some (.tile port ea) → ∃ more : List (Nat × Nat), step s =
          .next ((((port, ea) :: more).foldl (fun s x => s.begin (some (.tile x.1 x.2))) s0).stall p st w)) ∧
      ∀ c x keep log, u.lane = .trapped c x keep log →
        let s0 := if isYard p then t else lineStart s p
        let pops := fun (s : State) (q : Nat) => ((s.cr p).queues.getD q {}).pops
        step s = .next ({ s0 with stream := st, laneNo := k }.laneTrap c x keep log fun q => pops t q - pops s0 q)) ∧
  (∀ (s : State) (p : Nat) (st : Stream) (v : ILine) (k : Nat) (rest : List Nat), ForkedAt s p st v →
    (ownLanes v st).filter (((s.cr p).st st).lane ≤ ·) = k :: rest →
    (∀ c, laneFault (isYard p) true v st k = some c → step s = .next ((laneStart s p st k).laneTrap c 0 [] none)) ∧
    ∀ i, laneFault (isYard p) true v st k = none → laneDec v st k = .ok i →
      ∀ t, exec i (laneStart s p st k) = .next t →
        ((t.lane = .done ∨ t.lane = .suppressed) → ((t.cr p).st st).jn = none →
          (rest = [] → step s = .next (endLine p st (t.setCr p (hasIssued (t.cr p) st)))) ∧
          ∀ j more, rest = j :: more → step s =
            .next ((t.setCr p ((hasIssued (t.cr p) st).setSt st { (t.cr p).st st with lane := j, wdog := 0 })).softTraps p)) ∧
        ((t.lane = .done ∨ t.lane = .suppressed) → ((t.cr p).st st).jn ≠ none → step s =
          .next ((t.setCr p ((hasIssued (t.cr p) st).setSt st { (t.cr p).st st with lane := k, wdog := 0 })).softTraps p)) ∧
        (∀ w l, t.lane = .waiting w l → step s = .next (t.stall p st w)) ∧
        ∀ c x keep log, t.lane = .trapped c x keep log → step s = .next t) ∧
  ∀ (s : State) (n : Nat) (i : Instr) (rest : List (Nat × Instr)), s.turn = .start → s.inputs = (n, i) :: rest → n ≤ s.now →
    isEvent i = true → step s = exec i { s with inputs := rest }

/-- R70 to R82. -/
def Obligations.EncodingRoundTrip : Prop :=
  ∀ (st : Stream) (i : Instr) (w1 : Word), i.wf st = true → ∃ w0 rest, encode i = w0 :: rest ∧
    decode st w0 (rest.headD w1) = .ok i ∧ rest.length = (if isLong st (major w0) then 1 else 0)

/-- R70 to R82, on words written out by hand. -/
def Obligations.DecodeWords : Prop :=
  decode .c 0x020C2200 0 = .ok (.add 0 3 1 2) ∧
  decode .c 0x161E7960 0 = .ok (.li 0 7 0x13 0x1960) ∧
  decode .c 0x50148628 0 = .ok (.amoAddd 0 5 4 6 2 2 0) ∧
  decode .a 0x66006200 0x20BF4011 = .ok (.stash 0 1 3 1 8 2 7 7 4 1) ∧
  decode .d 0x02004003 0x0007C000 = .ok (.drain 0 2 0 3 0 0 0 0 31 0 0 0) ∧
  decode .d 0x04008206 0x0C004052 = .ok (.drainQ 0 4 1 6 0 0 0 3 0 1 0 0 5 2) ∧
  (∀ st, decode st 0 0 = .ok .nop ∧ decode st 0x00800000 0 = .reserved ∧ decode st 0x00000001 0 = .reserved) ∧
  decode .a 0x14000000 0 = .illegal ∧
  decodeBytes .c [0x00, 0x22, 0x0C, 0x02] = .ok (.add 0 3 1 2)

/-- R82, R83, R387, R393: what may not run takes its exception. -/
def Obligations.MachineGoesOn : Prop := (∀ (i : Instr) (s : State), GoesOn (exec i s)) ∧ ∀ s : State, GoesOn (step s)

/-- The invariant that memory is data in one form. -/
def Obligations.MemoryStaysCanonical : Prop := ∀ s t : State, MemOk s → step s = .next t → MemOk t

/-- R411 and the Reset columns of 16, 21, 22, 23 and 24. -/
def Obligations.ResetState : Prop :=
  let s := State.reset
  s.yard0.inReset = true ∧ s.yard1.inReset = true ∧ s.plovelm.appReset = true ∧
  (∀ p < 514, (s.cr p).task = none ∧ s.active p = false) ∧
  (∀ n : Nat, n < 16 → s.plovelm.meas[n]? = some 0) ∧
  (∀ q < 64, s.readReg (.lqctl q) = 0) ∧ s.readReg .fmmig = 0 ∧
  (∀ k < 16, s.readReg (.vlctl k) = 0x90 ∧ s.readReg (.vlstat k) = 0) ∧
  (∀ j w, s.readReg (.window j w) = 0) ∧ (∀ u w, s.readReg (.elog u w) = 0) ∧
  s.readReg .pwrcap = BitVec.ofNat 64 (550 * 2 ^ 32 + 2400) ∧
  MemOk s ∧ (∀ a, byteAt s a = 0) ∧ ∀ a, s.tag a = {}
end

