-- ==== Sys2Proof/Laws/Sparse.lean ====
section
/-! SUPPORT. The laws of sparse maps and of memory: a read after a write, that a write leaves every other key alone, and that
every write keeps the canonical form. -/

namespace Sys2Proof.Machine

variable {α : Type}

@[simp] theorem Sparse.get_nil (d : α) (x : Nat) : Sparse.get d [] x = d := rfl

@[simp] theorem Sparse.get_put_same (d : α) (m : Sparse α) (x : Nat) (v : α) : Sparse.get d (Sparse.put m x v) x = v := by
  induction m with
  | nil => simp [Sparse.put, Sparse.get]
  | cons e m ih =>
    obtain ⟨k, u⟩ := e
    simp only [Sparse.put]
    split
    · simp [Sparse.get]
    · split
      · simp [Sparse.get]
      · rename_i h; simp [Sparse.get, Ne.symm h, ih]

@[simp] theorem Sparse.get_put_ne (d : α) (m : Sparse α) {x y : Nat} (h : y ≠ x) (v : α) :
    Sparse.get d (Sparse.put m x v) y = Sparse.get d m y := by
  induction m with
  | nil => simp [Sparse.put, Sparse.get, Ne.symm h]
  | cons e m ih =>
    obtain ⟨k, u⟩ := e
    simp only [Sparse.put]
    split
    · simp [Sparse.get, Ne.symm h]
    · split
      · rename_i hx; subst hx; simp [Sparse.get, Ne.symm h]
      · simp only [Sparse.get, ih]

@[simp] theorem Sparse.get_del_same (d : α) (m : Sparse α) (x : Nat) : Sparse.get d (Sparse.del m x) x = d := by
  induction m with
  | nil => rfl
  | cons e m ih =>
    obtain ⟨k, u⟩ := e
    simp only [Sparse.del]
    split
    · exact ih
    · rename_i h; simp [Sparse.get, h, ih]

@[simp] theorem Sparse.get_del_ne (d : α) (m : Sparse α) {x y : Nat} (h : y ≠ x) :
    Sparse.get d (Sparse.del m x) y = Sparse.get d m y := by
  induction m with
  | nil => rfl
  | cons e m ih =>
    obtain ⟨k, u⟩ := e
    simp only [Sparse.del]
    split
    · rename_i hk; subst hk; simp [Sparse.get, Ne.symm h, ih]
    · simp only [Sparse.get, ih]

/-- A map reads what was written. -/
theorem Sparse.get_set [DecidableEq α] (d : α) (m : Sparse α) (x y : Nat) (v : α) :
    Sparse.get d (Sparse.set d m x v) y = if y = x then v else Sparse.get d m y := by
  unfold Sparse.set
  split
  · rename_i hv; subst hv
    split
    · rename_i h; subst h; simp
    · rename_i h; simp [h]
  · split
    · rename_i h; subst h; simp
    · rename_i h; simp [h]

theorem Sparse.above_put {n : Nat} {m : Sparse α} {x : Nat} {v : α} (hx : n < x) (hm : Sparse.above n m = true) :
    Sparse.above n (Sparse.put m x v) = true := by
  cases m with
  | nil => simpa [Sparse.put, Sparse.above] using hx
  | cons e m =>
    obtain ⟨k, u⟩ := e
    simp only [Sparse.put]
    split
    · simpa [Sparse.above] using hx
    · split
      · simpa [Sparse.above] using hx
      · simpa [Sparse.above] using hm

theorem Sparse.wf_put [DecidableEq α] {d : α} {m : Sparse α} {x : Nat} {v : α} (hv : v ≠ d)
    (hm : Sparse.wf d m = true) : Sparse.wf d (Sparse.put m x v) = true := by
  induction m with
  | nil => simpa [Sparse.put, Sparse.wf, Sparse.above] using hv
  | cons e m ih =>
    obtain ⟨k, u⟩ := e
    simp only [Sparse.wf, Bool.and_eq_true, bne_iff_ne, ne_eq] at hm
    obtain ⟨⟨hk, hu⟩, hm⟩ := hm
    simp only [Sparse.put]
    split
    · rename_i h
      have h1 : Sparse.above x ((k, u) :: m) = true := by simpa [Sparse.above] using h
      simp [Sparse.wf, h1, hv, hk, hu, hm]
    · rename_i h1
      split
      · rename_i h; subst h; simp [Sparse.wf, hk, hv, hm]
      · rename_i h2
        have : k < x := by omega
        simp [Sparse.wf, Sparse.above_put this hk, hu, ih hm]

theorem Sparse.above_mono {a b : Nat} {m : Sparse α} (h : a < b) (hm : Sparse.above b m = true) :
    Sparse.above a m = true := by
  cases m with
  | nil => rfl
  | cons e m =>
    obtain ⟨k, u⟩ := e
    simp only [Sparse.above, decide_eq_true_eq] at *
    omega

theorem Sparse.above_del [DecidableEq α] {n : Nat} {d : α} {m : Sparse α} {x : Nat} (hm : Sparse.above n m = true)
    (hw : Sparse.wf d m = true) : Sparse.above n (Sparse.del m x) = true := by
  induction m with
  | nil => rfl
  | cons e m ih =>
    obtain ⟨k, u⟩ := e
    simp only [Sparse.wf, Bool.and_eq_true, bne_iff_ne, ne_eq] at hw
    simp only [Sparse.above, decide_eq_true_eq] at hm
    simp only [Sparse.del]
    split
    · exact ih (Sparse.above_mono hm hw.1.1) hw.2
    · simpa [Sparse.above] using hm

theorem Sparse.wf_del [DecidableEq α] {d : α} {m : Sparse α} {x : Nat} (hm : Sparse.wf d m = true) :
    Sparse.wf d (Sparse.del m x) = true := by
  induction m with
  | nil => rfl
  | cons e m ih =>
    obtain ⟨k, u⟩ := e
    have h := hm
    simp only [Sparse.wf, Bool.and_eq_true, bne_iff_ne, ne_eq] at h
    simp only [Sparse.del]
    split
    · exact ih h.2
    · simp [Sparse.wf, Sparse.above_del h.1.1 h.2, h.1.2, ih h.2]

/-- A write keeps the canonical form. -/
theorem Sparse.wf_set [DecidableEq α] {d : α} {m : Sparse α} {x : Nat} {v : α} (hm : Sparse.wf d m = true) :
    Sparse.wf d (Sparse.set d m x v) = true := by
  unfold Sparse.set
  split
  · exact Sparse.wf_del hm
  · rename_i h; exact Sparse.wf_put h hm

/-! ### Memory -/

/-- Every write of bytes keeps the canonical form of memory. -/
theorem Mem.wf_write (m : Sparse Byte) (k : Nat) (bs : List Byte) (hm : Mem.wf m = true) :
    Mem.wf (Mem.write m k bs) = true := by
  induction bs generalizing m k with
  | nil => exact hm
  | cons b bs ih => exact ih _ _ (Sparse.wf_set hm)

/-- A byte after a write: the byte written there, or the byte that was there. -/
theorem Mem.get_write (m : Sparse Byte) (k y : Nat) (bs : List Byte) :
    Sparse.get Config.blankByte (Mem.write m k bs) y =
      if k ≤ y ∧ y < k + bs.length then bs.getD (y - k) 0 else Sparse.get Config.blankByte m y := by
  induction bs generalizing m k with
  | nil => simp [Mem.write, show ¬(k ≤ y ∧ y < k) by omega]
  | cons b bs ih =>
    simp only [Mem.write, ih, Sparse.get_set, List.length_cons]
    by_cases h : y = k
    · subst h; simp
    · by_cases h2 : k + 1 ≤ y ∧ y < k + 1 + bs.length
      · have h3 : k ≤ y ∧ y < k + (bs.length + 1) := by omega
        rw [if_pos h2, if_pos h3, show y - k = (y - (k + 1)) + 1 by omega, List.getD_cons_succ]
      · have h3 : ¬(k ≤ y ∧ y < k + (bs.length + 1)) := by omega
        rw [if_neg h2, if_neg h3, if_neg h]

/-- A read gives the bytes at its keys. -/
theorem Mem.read_eq (m : Sparse Byte) (k n : Nat) :
    Mem.read m k n = (List.range n).map fun i => Sparse.get Config.blankByte m (k + i) := by
  induction n generalizing k with
  | zero => rfl
  | succ n ih =>
    rw [List.range_succ_eq_map]
    simp [Mem.read, ih, Nat.add_comm, Nat.add_left_comm]

@[simp] theorem Mem.length_read (m : Sparse Byte) (k n : Nat) : (Mem.read m k n).length = n := by
  simp [Mem.read_eq]

end Sys2Proof.Machine
end

