-- ==== Sys2Proof/Laws/State.lean ====
section
/-! SUPPORT. One lemma per field for each update of the state and of a core that the meanings share, so that no proof unfolds
a record update; and what a core reads after it has been replaced. -/

namespace Sys2Proof.Machine

/-! ### Cores -/

@[simp] theorem State.setCr_now (s : State) (p : Nat) (c : Core) : (s.setCr p c).now = s.now := rfl
@[simp] theorem State.setCr_turn (s : State) (p : Nat) (c : Core) : (s.setCr p c).turn = s.turn := rfl
@[simp] theorem State.setCr_core (s : State) (p : Nat) (c : Core) : (s.setCr p c).core = s.core := rfl
@[simp] theorem State.setCr_stream (s : State) (p : Nat) (c : Core) : (s.setCr p c).stream = s.stream := rfl
@[simp] theorem State.setCr_lane (s : State) (p : Nat) (c : Core) : (s.setCr p c).lane = s.lane := rfl
@[simp] theorem State.setCr_laneNo (s : State) (p : Nat) (c : Core) : (s.setCr p c).laneNo = s.laneNo := rfl
@[simp] theorem State.setCr_choices (s : State) (p : Nat) (c : Core) : (s.setCr p c).choices = s.choices := rfl
@[simp] theorem State.setCr_inputs (s : State) (p : Nat) (c : Core) : (s.setCr p c).inputs = s.inputs := rfl
@[simp] theorem State.setCr_acts (s : State) (p : Nat) (c : Core) : (s.setCr p c).acts = s.acts := rfl
@[simp] theorem State.setCr_deltas (s : State) (p : Nat) (c : Core) : (s.setCr p c).deltas = s.deltas := rfl
@[simp] theorem State.setCr_mem (s : State) (p : Nat) (c : Core) : (s.setCr p c).mem = s.mem := rfl
@[simp] theorem State.setCr_poison (s : State) (p : Nat) (c : Core) : (s.setCr p c).poison = s.poison := rfl
@[simp] theorem State.setCr_uoOld (s : State) (p : Nat) (c : Core) : (s.setCr p c).uoOld = s.uoOld := rfl
@[simp] theorem State.setCr_tableErrors (s : State) (p : Nat) (c : Core) : (s.setCr p c).tableErrors = s.tableErrors := rfl
@[simp] theorem State.setCr_writes (s : State) (p : Nat) (c : Core) : (s.setCr p c).writes = s.writes := rfl
@[simp] theorem State.setCr_served (s : State) (p : Nat) (c : Core) : (s.setCr p c).served = s.served := rfl
@[simp] theorem State.setCr_tags (s : State) (p : Nat) (c : Core) : (s.setCr p c).tags = s.tags := rfl
@[simp] theorem State.setCr_yard0 (s : State) (p : Nat) (c : Core) : (s.setCr p c).yard0 = s.yard0 := rfl
@[simp] theorem State.setCr_yard1 (s : State) (p : Nat) (c : Core) : (s.setCr p c).yard1 = s.yard1 := rfl
@[simp] theorem State.setCr_primary1 (s : State) (p : Nat) (c : Core) : (s.setCr p c).primary1 = s.primary1 := rfl
@[simp] theorem State.setCr_ctxs (s : State) (p : Nat) (c : Core) : (s.setCr p c).ctxs = s.ctxs := rfl
@[simp] theorem State.setCr_kernels (s : State) (p : Nat) (c : Core) : (s.setCr p c).kernels = s.kernels := rfl
@[simp] theorem State.setCr_lqs (s : State) (p : Nat) (c : Core) : (s.setCr p c).lqs = s.lqs := rfl
@[simp] theorem State.setCr_lastServed (s : State) (p : Nat) (c : Core) : (s.setCr p c).lastServed = s.lastServed := rfl
@[simp] theorem State.setCr_launches (s : State) (p : Nat) (c : Core) : (s.setCr p c).launches = s.launches := rfl
@[simp] theorem State.setCr_nextLaunch (s : State) (p : Nat) (c : Core) : (s.setCr p c).nextLaunch = s.nextLaunch := rfl
@[simp] theorem State.setCr_rounds (s : State) (p : Nat) (c : Core) : (s.setCr p c).rounds = s.rounds := rfl
@[simp] theorem State.setCr_roundsDone (s : State) (p : Nat) (c : Core) : (s.setCr p c).roundsDone = s.roundsDone := rfl
@[simp] theorem State.setCr_windows (s : State) (p : Nat) (c : Core) : (s.setCr p c).windows = s.windows := rfl
@[simp] theorem State.setCr_shunters (s : State) (p : Nat) (c : Core) : (s.setCr p c).shunters = s.shunters := rfl
@[simp] theorem State.setCr_engines (s : State) (p : Nat) (c : Core) : (s.setCr p c).engines = s.engines := rfl
@[simp] theorem State.setCr_nextCmd (s : State) (p : Nat) (c : Core) : (s.setCr p c).nextCmd = s.nextCmd := rfl
@[simp] theorem State.setCr_trapFifo (s : State) (p : Nat) (c : Core) : (s.setCr p c).trapFifo = s.trapFifo := rfl
@[simp] theorem State.setCr_trapWait (s : State) (p : Nat) (c : Core) : (s.setCr p c).trapWait = s.trapWait := rfl
@[simp] theorem State.setCr_held (s : State) (p : Nat) (c : Core) : (s.setCr p c).held = s.held := rfl
@[simp] theorem State.setCr_lateAmos (s : State) (p : Nat) (c : Core) : (s.setCr p c).lateAmos = s.lateAmos := rfl
@[simp] theorem State.setCr_shedTlbs (s : State) (p : Nat) (c : Core) : (s.setCr p c).shedTlbs = s.shedTlbs := rfl
@[simp] theorem State.setCr_tlbInvs (s : State) (p : Nat) (c : Core) : (s.setCr p c).tlbInvs = s.tlbInvs := rfl
@[simp] theorem State.setCr_migration (s : State) (p : Nat) (c : Core) : (s.setCr p c).migration = s.migration := rfl
@[simp] theorem State.setCr_pnow (s : State) (p : Nat) (c : Core) : (s.setCr p c).pnow = s.pnow := rfl
@[simp] theorem State.setCr_mv (s : State) (p : Nat) (c : Core) : (s.setCr p c).mv = s.mv := rfl
@[simp] theorem State.setCr_plim (s : State) (p : Nat) (c : Core) : (s.setCr p c).plim = s.plim := rfl
@[simp] theorem State.setCr_links (s : State) (p : Nat) (c : Core) : (s.setCr p c).links = s.links := rfl
@[simp] theorem State.setCr_peerReqs (s : State) (p : Nat) (c : Core) : (s.setCr p c).peerReqs = s.peerReqs := rfl
@[simp] theorem State.setCr_peerWindows (s : State) (p : Nat) (c : Core) : (s.setCr p c).peerWindows = s.peerWindows := rfl
@[simp] theorem State.setCr_straps (s : State) (p : Nat) (c : Core) : (s.setCr p c).straps = s.straps := rfl
@[simp] theorem State.setCr_pcie (s : State) (p : Nat) (c : Core) : (s.setCr p c).pcie = s.pcie := rfl
@[simp] theorem State.setCr_cxl (s : State) (p : Nat) (c : Core) : (s.setCr p c).cxl = s.cxl := rfl
@[simp] theorem State.setCr_elog (s : State) (p : Nat) (c : Core) : (s.setCr p c).elog = s.elog := rfl
@[simp] theorem State.setCr_ioTiles (s : State) (p : Nat) (c : Core) : (s.setCr p c).ioTiles = s.ioTiles := rfl
@[simp] theorem State.setCr_plovelm (s : State) (p : Nat) (c : Core) : (s.setCr p c).plovelm = s.plovelm := rfl
@[simp] theorem State.setCr_fwRecord (s : State) (p : Nat) (c : Core) : (s.setCr p c).fwRecord = s.fwRecord := rfl
@[simp] theorem State.setCr_tileFaults (s : State) (p : Nat) (c : Core) : (s.setCr p c).tileFaults = s.tileFaults := rfl
@[simp] theorem State.setCr_mailbox (s : State) (p : Nat) (c : Core) : (s.setCr p c).mailbox = s.mailbox := rfl
@[simp] theorem State.setCr_msis (s : State) (p : Nat) (c : Core) : (s.setCr p c).msis = s.msis := rfl
@[simp] theorem State.setCr_replies (s : State) (p : Nat) (c : Core) : (s.setCr p c).replies = s.replies := rfl
@[simp] theorem State.setCr_softErrors (s : State) (p : Nat) (c : Core) : (s.setCr p c).softErrors = s.softErrors := rfl
@[simp] theorem State.setCr_ioWait (s : State) (p : Nat) (c : Core) : (s.setCr p c).ioWait = s.ioWait := rfl
@[simp] theorem State.setCr_reservations (s : State) (p : Nat) (c : Core) : (s.setCr p c).reservations = s.reservations := rfl
@[simp] theorem State.setCr_lost (s : State) (p : Nat) (c : Core) : (s.setCr p c).lost = s.lost := rfl
@[simp] theorem State.setCr_lostReport (s : State) (p : Nat) (c : Core) : (s.setCr p c).lostReport = s.lostReport := rfl
@[simp] theorem State.setCr_reports (s : State) (p : Nat) (c : Core) : (s.setCr p c).reports = s.reports := rfl
@[simp] theorem State.setCr_snaps (s : State) (p : Nat) (c : Core) : (s.setCr p c).snaps = s.snaps := rfl
@[simp] theorem State.setCr_yipUp (s : State) (p : Nat) (c : Core) : (s.setCr p c).yipUp = s.yipUp := rfl

@[simp] theorem State.setMe_now (s : State) (c : Core) : (s.setMe c).now = s.now := rfl
@[simp] theorem State.setMe_turn (s : State) (c : Core) : (s.setMe c).turn = s.turn := rfl
@[simp] theorem State.setMe_core (s : State) (c : Core) : (s.setMe c).core = s.core := rfl
@[simp] theorem State.setMe_stream (s : State) (c : Core) : (s.setMe c).stream = s.stream := rfl
@[simp] theorem State.setMe_lane (s : State) (c : Core) : (s.setMe c).lane = s.lane := rfl
@[simp] theorem State.setMe_laneNo (s : State) (c : Core) : (s.setMe c).laneNo = s.laneNo := rfl
@[simp] theorem State.setMe_choices (s : State) (c : Core) : (s.setMe c).choices = s.choices := rfl
@[simp] theorem State.setMe_inputs (s : State) (c : Core) : (s.setMe c).inputs = s.inputs := rfl
@[simp] theorem State.setMe_acts (s : State) (c : Core) : (s.setMe c).acts = s.acts := rfl
@[simp] theorem State.setMe_deltas (s : State) (c : Core) : (s.setMe c).deltas = s.deltas := rfl
@[simp] theorem State.setMe_mem (s : State) (c : Core) : (s.setMe c).mem = s.mem := rfl
@[simp] theorem State.setMe_poison (s : State) (c : Core) : (s.setMe c).poison = s.poison := rfl
@[simp] theorem State.setMe_uoOld (s : State) (c : Core) : (s.setMe c).uoOld = s.uoOld := rfl
@[simp] theorem State.setMe_tableErrors (s : State) (c : Core) : (s.setMe c).tableErrors = s.tableErrors := rfl
@[simp] theorem State.setMe_writes (s : State) (c : Core) : (s.setMe c).writes = s.writes := rfl
@[simp] theorem State.setMe_served (s : State) (c : Core) : (s.setMe c).served = s.served := rfl
@[simp] theorem State.setMe_tags (s : State) (c : Core) : (s.setMe c).tags = s.tags := rfl
@[simp] theorem State.setMe_yard0 (s : State) (c : Core) : (s.setMe c).yard0 = s.yard0 := rfl
@[simp] theorem State.setMe_yard1 (s : State) (c : Core) : (s.setMe c).yard1 = s.yard1 := rfl
@[simp] theorem State.setMe_primary1 (s : State) (c : Core) : (s.setMe c).primary1 = s.primary1 := rfl
@[simp] theorem State.setMe_ctxs (s : State) (c : Core) : (s.setMe c).ctxs = s.ctxs := rfl
@[simp] theorem State.setMe_kernels (s : State) (c : Core) : (s.setMe c).kernels = s.kernels := rfl
@[simp] theorem State.setMe_lqs (s : State) (c : Core) : (s.setMe c).lqs = s.lqs := rfl
@[simp] theorem State.setMe_lastServed (s : State) (c : Core) : (s.setMe c).lastServed = s.lastServed := rfl
@[simp] theorem State.setMe_launches (s : State) (c : Core) : (s.setMe c).launches = s.launches := rfl
@[simp] theorem State.setMe_nextLaunch (s : State) (c : Core) : (s.setMe c).nextLaunch = s.nextLaunch := rfl
@[simp] theorem State.setMe_rounds (s : State) (c : Core) : (s.setMe c).rounds = s.rounds := rfl
@[simp] theorem State.setMe_roundsDone (s : State) (c : Core) : (s.setMe c).roundsDone = s.roundsDone := rfl
@[simp] theorem State.setMe_windows (s : State) (c : Core) : (s.setMe c).windows = s.windows := rfl
@[simp] theorem State.setMe_shunters (s : State) (c : Core) : (s.setMe c).shunters = s.shunters := rfl
@[simp] theorem State.setMe_engines (s : State) (c : Core) : (s.setMe c).engines = s.engines := rfl
@[simp] theorem State.setMe_nextCmd (s : State) (c : Core) : (s.setMe c).nextCmd = s.nextCmd := rfl
@[simp] theorem State.setMe_trapFifo (s : State) (c : Core) : (s.setMe c).trapFifo = s.trapFifo := rfl
@[simp] theorem State.setMe_trapWait (s : State) (c : Core) : (s.setMe c).trapWait = s.trapWait := rfl
@[simp] theorem State.setMe_held (s : State) (c : Core) : (s.setMe c).held = s.held := rfl
@[simp] theorem State.setMe_lateAmos (s : State) (c : Core) : (s.setMe c).lateAmos = s.lateAmos := rfl
@[simp] theorem State.setMe_shedTlbs (s : State) (c : Core) : (s.setMe c).shedTlbs = s.shedTlbs := rfl
@[simp] theorem State.setMe_tlbInvs (s : State) (c : Core) : (s.setMe c).tlbInvs = s.tlbInvs := rfl
@[simp] theorem State.setMe_migration (s : State) (c : Core) : (s.setMe c).migration = s.migration := rfl
@[simp] theorem State.setMe_pnow (s : State) (c : Core) : (s.setMe c).pnow = s.pnow := rfl
@[simp] theorem State.setMe_mv (s : State) (c : Core) : (s.setMe c).mv = s.mv := rfl
@[simp] theorem State.setMe_plim (s : State) (c : Core) : (s.setMe c).plim = s.plim := rfl
@[simp] theorem State.setMe_links (s : State) (c : Core) : (s.setMe c).links = s.links := rfl
@[simp] theorem State.setMe_peerReqs (s : State) (c : Core) : (s.setMe c).peerReqs = s.peerReqs := rfl
@[simp] theorem State.setMe_peerWindows (s : State) (c : Core) : (s.setMe c).peerWindows = s.peerWindows := rfl
@[simp] theorem State.setMe_straps (s : State) (c : Core) : (s.setMe c).straps = s.straps := rfl
@[simp] theorem State.setMe_pcie (s : State) (c : Core) : (s.setMe c).pcie = s.pcie := rfl
@[simp] theorem State.setMe_cxl (s : State) (c : Core) : (s.setMe c).cxl = s.cxl := rfl
@[simp] theorem State.setMe_elog (s : State) (c : Core) : (s.setMe c).elog = s.elog := rfl
@[simp] theorem State.setMe_ioTiles (s : State) (c : Core) : (s.setMe c).ioTiles = s.ioTiles := rfl
@[simp] theorem State.setMe_plovelm (s : State) (c : Core) : (s.setMe c).plovelm = s.plovelm := rfl
@[simp] theorem State.setMe_fwRecord (s : State) (c : Core) : (s.setMe c).fwRecord = s.fwRecord := rfl
@[simp] theorem State.setMe_tileFaults (s : State) (c : Core) : (s.setMe c).tileFaults = s.tileFaults := rfl
@[simp] theorem State.setMe_mailbox (s : State) (c : Core) : (s.setMe c).mailbox = s.mailbox := rfl
@[simp] theorem State.setMe_msis (s : State) (c : Core) : (s.setMe c).msis = s.msis := rfl
@[simp] theorem State.setMe_replies (s : State) (c : Core) : (s.setMe c).replies = s.replies := rfl
@[simp] theorem State.setMe_softErrors (s : State) (c : Core) : (s.setMe c).softErrors = s.softErrors := rfl
@[simp] theorem State.setMe_ioWait (s : State) (c : Core) : (s.setMe c).ioWait = s.ioWait := rfl
@[simp] theorem State.setMe_reservations (s : State) (c : Core) : (s.setMe c).reservations = s.reservations := rfl
@[simp] theorem State.setMe_lost (s : State) (c : Core) : (s.setMe c).lost = s.lost := rfl
@[simp] theorem State.setMe_lostReport (s : State) (c : Core) : (s.setMe c).lostReport = s.lostReport := rfl
@[simp] theorem State.setMe_reports (s : State) (c : Core) : (s.setMe c).reports = s.reports := rfl
@[simp] theorem State.setMe_snaps (s : State) (c : Core) : (s.setMe c).snaps = s.snaps := rfl
@[simp] theorem State.setMe_yipUp (s : State) (c : Core) : (s.setMe c).yipUp = s.yipUp := rfl

@[simp] theorem State.cr_setCr_same (s : State) (p : Nat) (c : Core) : (s.setCr p c).cr p = c := Sparse.get_put_same ..

@[simp] theorem State.cr_setCr_ne (s : State) {p q : Nat} (h : q ≠ p) (c : Core) : (s.setCr p c).cr q = s.cr q :=
  Sparse.get_put_ne _ _ h _

@[simp] theorem State.me_setMe (s : State) (c : Core) : (s.setMe c).me = c := Sparse.get_put_same ..

@[simp] theorem State.cr_setMe_ne (s : State) {q : Nat} (h : q ≠ s.core) (c : Core) : (s.setMe c).cr q = s.cr q :=
  Sparse.get_put_ne _ _ h _

/-- The acting core and its data depend on the cores and their number alone. -/
theorem State.me_eq (s : State) : s.me = s.cr s.core := rfl

/-! ### Tables of the device -/

@[simp] theorem State.setLaunch_now (s : State) (l : Launch) : (s.setLaunch l).now = s.now := rfl
@[simp] theorem State.setLaunch_turn (s : State) (l : Launch) : (s.setLaunch l).turn = s.turn := rfl
@[simp] theorem State.setLaunch_core (s : State) (l : Launch) : (s.setLaunch l).core = s.core := rfl
@[simp] theorem State.setLaunch_stream (s : State) (l : Launch) : (s.setLaunch l).stream = s.stream := rfl
@[simp] theorem State.setLaunch_lane (s : State) (l : Launch) : (s.setLaunch l).lane = s.lane := rfl
@[simp] theorem State.setLaunch_laneNo (s : State) (l : Launch) : (s.setLaunch l).laneNo = s.laneNo := rfl
@[simp] theorem State.setLaunch_choices (s : State) (l : Launch) : (s.setLaunch l).choices = s.choices := rfl
@[simp] theorem State.setLaunch_inputs (s : State) (l : Launch) : (s.setLaunch l).inputs = s.inputs := rfl
@[simp] theorem State.setLaunch_acts (s : State) (l : Launch) : (s.setLaunch l).acts = s.acts := rfl
@[simp] theorem State.setLaunch_deltas (s : State) (l : Launch) : (s.setLaunch l).deltas = s.deltas := rfl
@[simp] theorem State.setLaunch_mem (s : State) (l : Launch) : (s.setLaunch l).mem = s.mem := rfl
@[simp] theorem State.setLaunch_poison (s : State) (l : Launch) : (s.setLaunch l).poison = s.poison := rfl
@[simp] theorem State.setLaunch_uoOld (s : State) (l : Launch) : (s.setLaunch l).uoOld = s.uoOld := rfl
@[simp] theorem State.setLaunch_tableErrors (s : State) (l : Launch) : (s.setLaunch l).tableErrors = s.tableErrors := rfl
@[simp] theorem State.setLaunch_writes (s : State) (l : Launch) : (s.setLaunch l).writes = s.writes := rfl
@[simp] theorem State.setLaunch_served (s : State) (l : Launch) : (s.setLaunch l).served = s.served := rfl
@[simp] theorem State.setLaunch_tags (s : State) (l : Launch) : (s.setLaunch l).tags = s.tags := rfl
@[simp] theorem State.setLaunch_cores (s : State) (l : Launch) : (s.setLaunch l).cores = s.cores := rfl
@[simp] theorem State.setLaunch_yard0 (s : State) (l : Launch) : (s.setLaunch l).yard0 = s.yard0 := rfl
@[simp] theorem State.setLaunch_yard1 (s : State) (l : Launch) : (s.setLaunch l).yard1 = s.yard1 := rfl
@[simp] theorem State.setLaunch_primary1 (s : State) (l : Launch) : (s.setLaunch l).primary1 = s.primary1 := rfl
@[simp] theorem State.setLaunch_ctxs (s : State) (l : Launch) : (s.setLaunch l).ctxs = s.ctxs := rfl
@[simp] theorem State.setLaunch_kernels (s : State) (l : Launch) : (s.setLaunch l).kernels = s.kernels := rfl
@[simp] theorem State.setLaunch_lqs (s : State) (l : Launch) : (s.setLaunch l).lqs = s.lqs := rfl
@[simp] theorem State.setLaunch_lastServed (s : State) (l : Launch) : (s.setLaunch l).lastServed = s.lastServed := rfl
@[simp] theorem State.setLaunch_nextLaunch (s : State) (l : Launch) : (s.setLaunch l).nextLaunch = s.nextLaunch := rfl
@[simp] theorem State.setLaunch_rounds (s : State) (l : Launch) : (s.setLaunch l).rounds = s.rounds := rfl
@[simp] theorem State.setLaunch_roundsDone (s : State) (l : Launch) : (s.setLaunch l).roundsDone = s.roundsDone := rfl
@[simp] theorem State.setLaunch_windows (s : State) (l : Launch) : (s.setLaunch l).windows = s.windows := rfl
@[simp] theorem State.setLaunch_shunters (s : State) (l : Launch) : (s.setLaunch l).shunters = s.shunters := rfl
@[simp] theorem State.setLaunch_engines (s : State) (l : Launch) : (s.setLaunch l).engines = s.engines := rfl
@[simp] theorem State.setLaunch_nextCmd (s : State) (l : Launch) : (s.setLaunch l).nextCmd = s.nextCmd := rfl
@[simp] theorem State.setLaunch_trapFifo (s : State) (l : Launch) : (s.setLaunch l).trapFifo = s.trapFifo := rfl
@[simp] theorem State.setLaunch_trapWait (s : State) (l : Launch) : (s.setLaunch l).trapWait = s.trapWait := rfl
@[simp] theorem State.setLaunch_held (s : State) (l : Launch) : (s.setLaunch l).held = s.held := rfl
@[simp] theorem State.setLaunch_lateAmos (s : State) (l : Launch) : (s.setLaunch l).lateAmos = s.lateAmos := rfl
@[simp] theorem State.setLaunch_shedTlbs (s : State) (l : Launch) : (s.setLaunch l).shedTlbs = s.shedTlbs := rfl
@[simp] theorem State.setLaunch_tlbInvs (s : State) (l : Launch) : (s.setLaunch l).tlbInvs = s.tlbInvs := rfl
@[simp] theorem State.setLaunch_migration (s : State) (l : Launch) : (s.setLaunch l).migration = s.migration := rfl
@[simp] theorem State.setLaunch_pnow (s : State) (l : Launch) : (s.setLaunch l).pnow = s.pnow := rfl
@[simp] theorem State.setLaunch_mv (s : State) (l : Launch) : (s.setLaunch l).mv = s.mv := rfl
@[simp] theorem State.setLaunch_plim (s : State) (l : Launch) : (s.setLaunch l).plim = s.plim := rfl
@[simp] theorem State.setLaunch_links (s : State) (l : Launch) : (s.setLaunch l).links = s.links := rfl
@[simp] theorem State.setLaunch_peerReqs (s : State) (l : Launch) : (s.setLaunch l).peerReqs = s.peerReqs := rfl
@[simp] theorem State.setLaunch_peerWindows (s : State) (l : Launch) : (s.setLaunch l).peerWindows = s.peerWindows := rfl
@[simp] theorem State.setLaunch_straps (s : State) (l : Launch) : (s.setLaunch l).straps = s.straps := rfl
@[simp] theorem State.setLaunch_pcie (s : State) (l : Launch) : (s.setLaunch l).pcie = s.pcie := rfl
@[simp] theorem State.setLaunch_cxl (s : State) (l : Launch) : (s.setLaunch l).cxl = s.cxl := rfl
@[simp] theorem State.setLaunch_elog (s : State) (l : Launch) : (s.setLaunch l).elog = s.elog := rfl
@[simp] theorem State.setLaunch_ioTiles (s : State) (l : Launch) : (s.setLaunch l).ioTiles = s.ioTiles := rfl
@[simp] theorem State.setLaunch_plovelm (s : State) (l : Launch) : (s.setLaunch l).plovelm = s.plovelm := rfl
@[simp] theorem State.setLaunch_fwRecord (s : State) (l : Launch) : (s.setLaunch l).fwRecord = s.fwRecord := rfl
@[simp] theorem State.setLaunch_tileFaults (s : State) (l : Launch) : (s.setLaunch l).tileFaults = s.tileFaults := rfl
@[simp] theorem State.setLaunch_mailbox (s : State) (l : Launch) : (s.setLaunch l).mailbox = s.mailbox := rfl
@[simp] theorem State.setLaunch_msis (s : State) (l : Launch) : (s.setLaunch l).msis = s.msis := rfl
@[simp] theorem State.setLaunch_replies (s : State) (l : Launch) : (s.setLaunch l).replies = s.replies := rfl
@[simp] theorem State.setLaunch_softErrors (s : State) (l : Launch) : (s.setLaunch l).softErrors = s.softErrors := rfl
@[simp] theorem State.setLaunch_ioWait (s : State) (l : Launch) : (s.setLaunch l).ioWait = s.ioWait := rfl
@[simp] theorem State.setLaunch_reservations (s : State) (l : Launch) : (s.setLaunch l).reservations = s.reservations := rfl
@[simp] theorem State.setLaunch_lost (s : State) (l : Launch) : (s.setLaunch l).lost = s.lost := rfl
@[simp] theorem State.setLaunch_lostReport (s : State) (l : Launch) : (s.setLaunch l).lostReport = s.lostReport := rfl
@[simp] theorem State.setLaunch_reports (s : State) (l : Launch) : (s.setLaunch l).reports = s.reports := rfl
@[simp] theorem State.setLaunch_snaps (s : State) (l : Launch) : (s.setLaunch l).snaps = s.snaps := rfl
@[simp] theorem State.setLaunch_yipUp (s : State) (l : Launch) : (s.setLaunch l).yipUp = s.yipUp := rfl

@[simp] theorem State.setLq_now (s : State) (q : Nat) (x : LaunchQueue) : (s.setLq q x).now = s.now := rfl
@[simp] theorem State.setLq_turn (s : State) (q : Nat) (x : LaunchQueue) : (s.setLq q x).turn = s.turn := rfl
@[simp] theorem State.setLq_core (s : State) (q : Nat) (x : LaunchQueue) : (s.setLq q x).core = s.core := rfl
@[simp] theorem State.setLq_stream (s : State) (q : Nat) (x : LaunchQueue) : (s.setLq q x).stream = s.stream := rfl
@[simp] theorem State.setLq_lane (s : State) (q : Nat) (x : LaunchQueue) : (s.setLq q x).lane = s.lane := rfl
@[simp] theorem State.setLq_laneNo (s : State) (q : Nat) (x : LaunchQueue) : (s.setLq q x).laneNo = s.laneNo := rfl
@[simp] theorem State.setLq_choices (s : State) (q : Nat) (x : LaunchQueue) : (s.setLq q x).choices = s.choices := rfl
@[simp] theorem State.setLq_inputs (s : State) (q : Nat) (x : LaunchQueue) : (s.setLq q x).inputs = s.inputs := rfl
@[simp] theorem State.setLq_acts (s : State) (q : Nat) (x : LaunchQueue) : (s.setLq q x).acts = s.acts := rfl
@[simp] theorem State.setLq_deltas (s : State) (q : Nat) (x : LaunchQueue) : (s.setLq q x).deltas = s.deltas := rfl
@[simp] theorem State.setLq_mem (s : State) (q : Nat) (x : LaunchQueue) : (s.setLq q x).mem = s.mem := rfl
@[simp] theorem State.setLq_poison (s : State) (q : Nat) (x : LaunchQueue) : (s.setLq q x).poison = s.poison := rfl
@[simp] theorem State.setLq_uoOld (s : State) (q : Nat) (x : LaunchQueue) : (s.setLq q x).uoOld = s.uoOld := rfl
@[simp] theorem State.setLq_tableErrors (s : State) (q : Nat) (x : LaunchQueue) : (s.setLq q x).tableErrors = s.tableErrors := rfl
@[simp] theorem State.setLq_writes (s : State) (q : Nat) (x : LaunchQueue) : (s.setLq q x).writes = s.writes := rfl
@[simp] theorem State.setLq_served (s : State) (q : Nat) (x : LaunchQueue) : (s.setLq q x).served = s.served := rfl
@[simp] theorem State.setLq_tags (s : State) (q : Nat) (x : LaunchQueue) : (s.setLq q x).tags = s.tags := rfl
@[simp] theorem State.setLq_cores (s : State) (q : Nat) (x : LaunchQueue) : (s.setLq q x).cores = s.cores := rfl
@[simp] theorem State.setLq_yard0 (s : State) (q : Nat) (x : LaunchQueue) : (s.setLq q x).yard0 = s.yard0 := rfl
@[simp] theorem State.setLq_yard1 (s : State) (q : Nat) (x : LaunchQueue) : (s.setLq q x).yard1 = s.yard1 := rfl
@[simp] theorem State.setLq_primary1 (s : State) (q : Nat) (x : LaunchQueue) : (s.setLq q x).primary1 = s.primary1 := rfl
@[simp] theorem State.setLq_ctxs (s : State) (q : Nat) (x : LaunchQueue) : (s.setLq q x).ctxs = s.ctxs := rfl
@[simp] theorem State.setLq_kernels (s : State) (q : Nat) (x : LaunchQueue) : (s.setLq q x).kernels = s.kernels := rfl
@[simp] theorem State.setLq_lastServed (s : State) (q : Nat) (x : LaunchQueue) : (s.setLq q x).lastServed = s.lastServed := rfl
@[simp] theorem State.setLq_launches (s : State) (q : Nat) (x : LaunchQueue) : (s.setLq q x).launches = s.launches := rfl
@[simp] theorem State.setLq_nextLaunch (s : State) (q : Nat) (x : LaunchQueue) : (s.setLq q x).nextLaunch = s.nextLaunch := rfl
@[simp] theorem State.setLq_rounds (s : State) (q : Nat) (x : LaunchQueue) : (s.setLq q x).rounds = s.rounds := rfl
@[simp] theorem State.setLq_roundsDone (s : State) (q : Nat) (x : LaunchQueue) : (s.setLq q x).roundsDone = s.roundsDone := rfl
@[simp] theorem State.setLq_windows (s : State) (q : Nat) (x : LaunchQueue) : (s.setLq q x).windows = s.windows := rfl
@[simp] theorem State.setLq_shunters (s : State) (q : Nat) (x : LaunchQueue) : (s.setLq q x).shunters = s.shunters := rfl
@[simp] theorem State.setLq_engines (s : State) (q : Nat) (x : LaunchQueue) : (s.setLq q x).engines = s.engines := rfl
@[simp] theorem State.setLq_nextCmd (s : State) (q : Nat) (x : LaunchQueue) : (s.setLq q x).nextCmd = s.nextCmd := rfl
@[simp] theorem State.setLq_trapFifo (s : State) (q : Nat) (x : LaunchQueue) : (s.setLq q x).trapFifo = s.trapFifo := rfl
@[simp] theorem State.setLq_trapWait (s : State) (q : Nat) (x : LaunchQueue) : (s.setLq q x).trapWait = s.trapWait := rfl
@[simp] theorem State.setLq_held (s : State) (q : Nat) (x : LaunchQueue) : (s.setLq q x).held = s.held := rfl
@[simp] theorem State.setLq_lateAmos (s : State) (q : Nat) (x : LaunchQueue) : (s.setLq q x).lateAmos = s.lateAmos := rfl
@[simp] theorem State.setLq_shedTlbs (s : State) (q : Nat) (x : LaunchQueue) : (s.setLq q x).shedTlbs = s.shedTlbs := rfl
@[simp] theorem State.setLq_tlbInvs (s : State) (q : Nat) (x : LaunchQueue) : (s.setLq q x).tlbInvs = s.tlbInvs := rfl
@[simp] theorem State.setLq_migration (s : State) (q : Nat) (x : LaunchQueue) : (s.setLq q x).migration = s.migration := rfl
@[simp] theorem State.setLq_pnow (s : State) (q : Nat) (x : LaunchQueue) : (s.setLq q x).pnow = s.pnow := rfl
@[simp] theorem State.setLq_mv (s : State) (q : Nat) (x : LaunchQueue) : (s.setLq q x).mv = s.mv := rfl
@[simp] theorem State.setLq_plim (s : State) (q : Nat) (x : LaunchQueue) : (s.setLq q x).plim = s.plim := rfl
@[simp] theorem State.setLq_links (s : State) (q : Nat) (x : LaunchQueue) : (s.setLq q x).links = s.links := rfl
@[simp] theorem State.setLq_peerReqs (s : State) (q : Nat) (x : LaunchQueue) : (s.setLq q x).peerReqs = s.peerReqs := rfl
@[simp] theorem State.setLq_peerWindows (s : State) (q : Nat) (x : LaunchQueue) : (s.setLq q x).peerWindows = s.peerWindows := rfl
@[simp] theorem State.setLq_straps (s : State) (q : Nat) (x : LaunchQueue) : (s.setLq q x).straps = s.straps := rfl
@[simp] theorem State.setLq_pcie (s : State) (q : Nat) (x : LaunchQueue) : (s.setLq q x).pcie = s.pcie := rfl
@[simp] theorem State.setLq_cxl (s : State) (q : Nat) (x : LaunchQueue) : (s.setLq q x).cxl = s.cxl := rfl
@[simp] theorem State.setLq_elog (s : State) (q : Nat) (x : LaunchQueue) : (s.setLq q x).elog = s.elog := rfl
@[simp] theorem State.setLq_ioTiles (s : State) (q : Nat) (x : LaunchQueue) : (s.setLq q x).ioTiles = s.ioTiles := rfl
@[simp] theorem State.setLq_plovelm (s : State) (q : Nat) (x : LaunchQueue) : (s.setLq q x).plovelm = s.plovelm := rfl
@[simp] theorem State.setLq_fwRecord (s : State) (q : Nat) (x : LaunchQueue) : (s.setLq q x).fwRecord = s.fwRecord := rfl
@[simp] theorem State.setLq_tileFaults (s : State) (q : Nat) (x : LaunchQueue) : (s.setLq q x).tileFaults = s.tileFaults := rfl
@[simp] theorem State.setLq_mailbox (s : State) (q : Nat) (x : LaunchQueue) : (s.setLq q x).mailbox = s.mailbox := rfl
@[simp] theorem State.setLq_msis (s : State) (q : Nat) (x : LaunchQueue) : (s.setLq q x).msis = s.msis := rfl
@[simp] theorem State.setLq_replies (s : State) (q : Nat) (x : LaunchQueue) : (s.setLq q x).replies = s.replies := rfl
@[simp] theorem State.setLq_softErrors (s : State) (q : Nat) (x : LaunchQueue) : (s.setLq q x).softErrors = s.softErrors := rfl
@[simp] theorem State.setLq_ioWait (s : State) (q : Nat) (x : LaunchQueue) : (s.setLq q x).ioWait = s.ioWait := rfl
@[simp] theorem State.setLq_reservations (s : State) (q : Nat) (x : LaunchQueue) : (s.setLq q x).reservations = s.reservations := rfl
@[simp] theorem State.setLq_lost (s : State) (q : Nat) (x : LaunchQueue) : (s.setLq q x).lost = s.lost := rfl
@[simp] theorem State.setLq_lostReport (s : State) (q : Nat) (x : LaunchQueue) : (s.setLq q x).lostReport = s.lostReport := rfl
@[simp] theorem State.setLq_reports (s : State) (q : Nat) (x : LaunchQueue) : (s.setLq q x).reports = s.reports := rfl
@[simp] theorem State.setLq_snaps (s : State) (q : Nat) (x : LaunchQueue) : (s.setLq q x).snaps = s.snaps := rfl
@[simp] theorem State.setLq_yipUp (s : State) (q : Nat) (x : LaunchQueue) : (s.setLq q x).yipUp = s.yipUp := rfl

@[simp] theorem State.setShunter_now (s : State) (n : Nat) (x : Shunter) : (s.setShunter n x).now = s.now := rfl
@[simp] theorem State.setShunter_turn (s : State) (n : Nat) (x : Shunter) : (s.setShunter n x).turn = s.turn := rfl
@[simp] theorem State.setShunter_core (s : State) (n : Nat) (x : Shunter) : (s.setShunter n x).core = s.core := rfl
@[simp] theorem State.setShunter_stream (s : State) (n : Nat) (x : Shunter) : (s.setShunter n x).stream = s.stream := rfl
@[simp] theorem State.setShunter_lane (s : State) (n : Nat) (x : Shunter) : (s.setShunter n x).lane = s.lane := rfl
@[simp] theorem State.setShunter_laneNo (s : State) (n : Nat) (x : Shunter) : (s.setShunter n x).laneNo = s.laneNo := rfl
@[simp] theorem State.setShunter_choices (s : State) (n : Nat) (x : Shunter) : (s.setShunter n x).choices = s.choices := rfl
@[simp] theorem State.setShunter_inputs (s : State) (n : Nat) (x : Shunter) : (s.setShunter n x).inputs = s.inputs := rfl
@[simp] theorem State.setShunter_acts (s : State) (n : Nat) (x : Shunter) : (s.setShunter n x).acts = s.acts := rfl
@[simp] theorem State.setShunter_deltas (s : State) (n : Nat) (x : Shunter) : (s.setShunter n x).deltas = s.deltas := rfl
@[simp] theorem State.setShunter_mem (s : State) (n : Nat) (x : Shunter) : (s.setShunter n x).mem = s.mem := rfl
@[simp] theorem State.setShunter_poison (s : State) (n : Nat) (x : Shunter) : (s.setShunter n x).poison = s.poison := rfl
@[simp] theorem State.setShunter_uoOld (s : State) (n : Nat) (x : Shunter) : (s.setShunter n x).uoOld = s.uoOld := rfl
@[simp] theorem State.setShunter_tableErrors (s : State) (n : Nat) (x : Shunter) : (s.setShunter n x).tableErrors = s.tableErrors := rfl
@[simp] theorem State.setShunter_writes (s : State) (n : Nat) (x : Shunter) : (s.setShunter n x).writes = s.writes := rfl
@[simp] theorem State.setShunter_served (s : State) (n : Nat) (x : Shunter) : (s.setShunter n x).served = s.served := rfl
@[simp] theorem State.setShunter_tags (s : State) (n : Nat) (x : Shunter) : (s.setShunter n x).tags = s.tags := rfl
@[simp] theorem State.setShunter_cores (s : State) (n : Nat) (x : Shunter) : (s.setShunter n x).cores = s.cores := rfl
@[simp] theorem State.setShunter_yard0 (s : State) (n : Nat) (x : Shunter) : (s.setShunter n x).yard0 = s.yard0 := rfl
@[simp] theorem State.setShunter_yard1 (s : State) (n : Nat) (x : Shunter) : (s.setShunter n x).yard1 = s.yard1 := rfl
@[simp] theorem State.setShunter_primary1 (s : State) (n : Nat) (x : Shunter) : (s.setShunter n x).primary1 = s.primary1 := rfl
@[simp] theorem State.setShunter_ctxs (s : State) (n : Nat) (x : Shunter) : (s.setShunter n x).ctxs = s.ctxs := rfl
@[simp] theorem State.setShunter_kernels (s : State) (n : Nat) (x : Shunter) : (s.setShunter n x).kernels = s.kernels := rfl
@[simp] theorem State.setShunter_lqs (s : State) (n : Nat) (x : Shunter) : (s.setShunter n x).lqs = s.lqs := rfl
@[simp] theorem State.setShunter_lastServed (s : State) (n : Nat) (x : Shunter) : (s.setShunter n x).lastServed = s.lastServed := rfl
@[simp] theorem State.setShunter_launches (s : State) (n : Nat) (x : Shunter) : (s.setShunter n x).launches = s.launches := rfl
@[simp] theorem State.setShunter_nextLaunch (s : State) (n : Nat) (x : Shunter) : (s.setShunter n x).nextLaunch = s.nextLaunch := rfl
@[simp] theorem State.setShunter_rounds (s : State) (n : Nat) (x : Shunter) : (s.setShunter n x).rounds = s.rounds := rfl
@[simp] theorem State.setShunter_roundsDone (s : State) (n : Nat) (x : Shunter) : (s.setShunter n x).roundsDone = s.roundsDone := rfl
@[simp] theorem State.setShunter_windows (s : State) (n : Nat) (x : Shunter) : (s.setShunter n x).windows = s.windows := rfl
@[simp] theorem State.setShunter_engines (s : State) (n : Nat) (x : Shunter) : (s.setShunter n x).engines = s.engines := rfl
@[simp] theorem State.setShunter_nextCmd (s : State) (n : Nat) (x : Shunter) : (s.setShunter n x).nextCmd = s.nextCmd := rfl
@[simp] theorem State.setShunter_trapFifo (s : State) (n : Nat) (x : Shunter) : (s.setShunter n x).trapFifo = s.trapFifo := rfl
@[simp] theorem State.setShunter_trapWait (s : State) (n : Nat) (x : Shunter) : (s.setShunter n x).trapWait = s.trapWait := rfl
@[simp] theorem State.setShunter_held (s : State) (n : Nat) (x : Shunter) : (s.setShunter n x).held = s.held := rfl
@[simp] theorem State.setShunter_lateAmos (s : State) (n : Nat) (x : Shunter) : (s.setShunter n x).lateAmos = s.lateAmos := rfl
@[simp] theorem State.setShunter_shedTlbs (s : State) (n : Nat) (x : Shunter) : (s.setShunter n x).shedTlbs = s.shedTlbs := rfl
@[simp] theorem State.setShunter_tlbInvs (s : State) (n : Nat) (x : Shunter) : (s.setShunter n x).tlbInvs = s.tlbInvs := rfl
@[simp] theorem State.setShunter_migration (s : State) (n : Nat) (x : Shunter) : (s.setShunter n x).migration = s.migration := rfl
@[simp] theorem State.setShunter_pnow (s : State) (n : Nat) (x : Shunter) : (s.setShunter n x).pnow = s.pnow := rfl
@[simp] theorem State.setShunter_mv (s : State) (n : Nat) (x : Shunter) : (s.setShunter n x).mv = s.mv := rfl
@[simp] theorem State.setShunter_plim (s : State) (n : Nat) (x : Shunter) : (s.setShunter n x).plim = s.plim := rfl
@[simp] theorem State.setShunter_links (s : State) (n : Nat) (x : Shunter) : (s.setShunter n x).links = s.links := rfl
@[simp] theorem State.setShunter_peerReqs (s : State) (n : Nat) (x : Shunter) : (s.setShunter n x).peerReqs = s.peerReqs := rfl
@[simp] theorem State.setShunter_peerWindows (s : State) (n : Nat) (x : Shunter) : (s.setShunter n x).peerWindows = s.peerWindows := rfl
@[simp] theorem State.setShunter_straps (s : State) (n : Nat) (x : Shunter) : (s.setShunter n x).straps = s.straps := rfl
@[simp] theorem State.setShunter_pcie (s : State) (n : Nat) (x : Shunter) : (s.setShunter n x).pcie = s.pcie := rfl
@[simp] theorem State.setShunter_cxl (s : State) (n : Nat) (x : Shunter) : (s.setShunter n x).cxl = s.cxl := rfl
@[simp] theorem State.setShunter_elog (s : State) (n : Nat) (x : Shunter) : (s.setShunter n x).elog = s.elog := rfl
@[simp] theorem State.setShunter_ioTiles (s : State) (n : Nat) (x : Shunter) : (s.setShunter n x).ioTiles = s.ioTiles := rfl
@[simp] theorem State.setShunter_plovelm (s : State) (n : Nat) (x : Shunter) : (s.setShunter n x).plovelm = s.plovelm := rfl
@[simp] theorem State.setShunter_fwRecord (s : State) (n : Nat) (x : Shunter) : (s.setShunter n x).fwRecord = s.fwRecord := rfl
@[simp] theorem State.setShunter_tileFaults (s : State) (n : Nat) (x : Shunter) : (s.setShunter n x).tileFaults = s.tileFaults := rfl
@[simp] theorem State.setShunter_mailbox (s : State) (n : Nat) (x : Shunter) : (s.setShunter n x).mailbox = s.mailbox := rfl
@[simp] theorem State.setShunter_msis (s : State) (n : Nat) (x : Shunter) : (s.setShunter n x).msis = s.msis := rfl
@[simp] theorem State.setShunter_replies (s : State) (n : Nat) (x : Shunter) : (s.setShunter n x).replies = s.replies := rfl
@[simp] theorem State.setShunter_softErrors (s : State) (n : Nat) (x : Shunter) : (s.setShunter n x).softErrors = s.softErrors := rfl
@[simp] theorem State.setShunter_ioWait (s : State) (n : Nat) (x : Shunter) : (s.setShunter n x).ioWait = s.ioWait := rfl
@[simp] theorem State.setShunter_reservations (s : State) (n : Nat) (x : Shunter) : (s.setShunter n x).reservations = s.reservations := rfl
@[simp] theorem State.setShunter_lost (s : State) (n : Nat) (x : Shunter) : (s.setShunter n x).lost = s.lost := rfl
@[simp] theorem State.setShunter_lostReport (s : State) (n : Nat) (x : Shunter) : (s.setShunter n x).lostReport = s.lostReport := rfl
@[simp] theorem State.setShunter_reports (s : State) (n : Nat) (x : Shunter) : (s.setShunter n x).reports = s.reports := rfl
@[simp] theorem State.setShunter_snaps (s : State) (n : Nat) (x : Shunter) : (s.setShunter n x).snaps = s.snaps := rfl
@[simp] theorem State.setShunter_yipUp (s : State) (n : Nat) (x : Shunter) : (s.setShunter n x).yipUp = s.yipUp := rfl

@[simp] theorem State.setLink_now (s : State) (k : Nat) (l : VLink) : (s.setLink k l).now = s.now := rfl
@[simp] theorem State.setLink_turn (s : State) (k : Nat) (l : VLink) : (s.setLink k l).turn = s.turn := rfl
@[simp] theorem State.setLink_core (s : State) (k : Nat) (l : VLink) : (s.setLink k l).core = s.core := rfl
@[simp] theorem State.setLink_stream (s : State) (k : Nat) (l : VLink) : (s.setLink k l).stream = s.stream := rfl
@[simp] theorem State.setLink_lane (s : State) (k : Nat) (l : VLink) : (s.setLink k l).lane = s.lane := rfl
@[simp] theorem State.setLink_laneNo (s : State) (k : Nat) (l : VLink) : (s.setLink k l).laneNo = s.laneNo := rfl
@[simp] theorem State.setLink_choices (s : State) (k : Nat) (l : VLink) : (s.setLink k l).choices = s.choices := rfl
@[simp] theorem State.setLink_inputs (s : State) (k : Nat) (l : VLink) : (s.setLink k l).inputs = s.inputs := rfl
@[simp] theorem State.setLink_acts (s : State) (k : Nat) (l : VLink) : (s.setLink k l).acts = s.acts := rfl
@[simp] theorem State.setLink_deltas (s : State) (k : Nat) (l : VLink) : (s.setLink k l).deltas = s.deltas := rfl
@[simp] theorem State.setLink_mem (s : State) (k : Nat) (l : VLink) : (s.setLink k l).mem = s.mem := rfl
@[simp] theorem State.setLink_poison (s : State) (k : Nat) (l : VLink) : (s.setLink k l).poison = s.poison := rfl
@[simp] theorem State.setLink_uoOld (s : State) (k : Nat) (l : VLink) : (s.setLink k l).uoOld = s.uoOld := rfl
@[simp] theorem State.setLink_tableErrors (s : State) (k : Nat) (l : VLink) : (s.setLink k l).tableErrors = s.tableErrors := rfl
@[simp] theorem State.setLink_writes (s : State) (k : Nat) (l : VLink) : (s.setLink k l).writes = s.writes := rfl
@[simp] theorem State.setLink_served (s : State) (k : Nat) (l : VLink) : (s.setLink k l).served = s.served := rfl
@[simp] theorem State.setLink_tags (s : State) (k : Nat) (l : VLink) : (s.setLink k l).tags = s.tags := rfl
@[simp] theorem State.setLink_cores (s : State) (k : Nat) (l : VLink) : (s.setLink k l).cores = s.cores := rfl
@[simp] theorem State.setLink_yard0 (s : State) (k : Nat) (l : VLink) : (s.setLink k l).yard0 = s.yard0 := rfl
@[simp] theorem State.setLink_yard1 (s : State) (k : Nat) (l : VLink) : (s.setLink k l).yard1 = s.yard1 := rfl
@[simp] theorem State.setLink_primary1 (s : State) (k : Nat) (l : VLink) : (s.setLink k l).primary1 = s.primary1 := rfl
@[simp] theorem State.setLink_ctxs (s : State) (k : Nat) (l : VLink) : (s.setLink k l).ctxs = s.ctxs := rfl
@[simp] theorem State.setLink_kernels (s : State) (k : Nat) (l : VLink) : (s.setLink k l).kernels = s.kernels := rfl
@[simp] theorem State.setLink_lqs (s : State) (k : Nat) (l : VLink) : (s.setLink k l).lqs = s.lqs := rfl
@[simp] theorem State.setLink_lastServed (s : State) (k : Nat) (l : VLink) : (s.setLink k l).lastServed = s.lastServed := rfl
@[simp] theorem State.setLink_launches (s : State) (k : Nat) (l : VLink) : (s.setLink k l).launches = s.launches := rfl
@[simp] theorem State.setLink_nextLaunch (s : State) (k : Nat) (l : VLink) : (s.setLink k l).nextLaunch = s.nextLaunch := rfl
@[simp] theorem State.setLink_rounds (s : State) (k : Nat) (l : VLink) : (s.setLink k l).rounds = s.rounds := rfl
@[simp] theorem State.setLink_roundsDone (s : State) (k : Nat) (l : VLink) : (s.setLink k l).roundsDone = s.roundsDone := rfl
@[simp] theorem State.setLink_windows (s : State) (k : Nat) (l : VLink) : (s.setLink k l).windows = s.windows := rfl
@[simp] theorem State.setLink_shunters (s : State) (k : Nat) (l : VLink) : (s.setLink k l).shunters = s.shunters := rfl
@[simp] theorem State.setLink_engines (s : State) (k : Nat) (l : VLink) : (s.setLink k l).engines = s.engines := rfl
@[simp] theorem State.setLink_nextCmd (s : State) (k : Nat) (l : VLink) : (s.setLink k l).nextCmd = s.nextCmd := rfl
@[simp] theorem State.setLink_trapFifo (s : State) (k : Nat) (l : VLink) : (s.setLink k l).trapFifo = s.trapFifo := rfl
@[simp] theorem State.setLink_trapWait (s : State) (k : Nat) (l : VLink) : (s.setLink k l).trapWait = s.trapWait := rfl
@[simp] theorem State.setLink_held (s : State) (k : Nat) (l : VLink) : (s.setLink k l).held = s.held := rfl
@[simp] theorem State.setLink_lateAmos (s : State) (k : Nat) (l : VLink) : (s.setLink k l).lateAmos = s.lateAmos := rfl
@[simp] theorem State.setLink_shedTlbs (s : State) (k : Nat) (l : VLink) : (s.setLink k l).shedTlbs = s.shedTlbs := rfl
@[simp] theorem State.setLink_tlbInvs (s : State) (k : Nat) (l : VLink) : (s.setLink k l).tlbInvs = s.tlbInvs := rfl
@[simp] theorem State.setLink_migration (s : State) (k : Nat) (l : VLink) : (s.setLink k l).migration = s.migration := rfl
@[simp] theorem State.setLink_pnow (s : State) (k : Nat) (l : VLink) : (s.setLink k l).pnow = s.pnow := rfl
@[simp] theorem State.setLink_mv (s : State) (k : Nat) (l : VLink) : (s.setLink k l).mv = s.mv := rfl
@[simp] theorem State.setLink_plim (s : State) (k : Nat) (l : VLink) : (s.setLink k l).plim = s.plim := rfl
@[simp] theorem State.setLink_peerReqs (s : State) (k : Nat) (l : VLink) : (s.setLink k l).peerReqs = s.peerReqs := rfl
@[simp] theorem State.setLink_peerWindows (s : State) (k : Nat) (l : VLink) : (s.setLink k l).peerWindows = s.peerWindows := rfl
@[simp] theorem State.setLink_straps (s : State) (k : Nat) (l : VLink) : (s.setLink k l).straps = s.straps := rfl
@[simp] theorem State.setLink_pcie (s : State) (k : Nat) (l : VLink) : (s.setLink k l).pcie = s.pcie := rfl
@[simp] theorem State.setLink_cxl (s : State) (k : Nat) (l : VLink) : (s.setLink k l).cxl = s.cxl := rfl
@[simp] theorem State.setLink_elog (s : State) (k : Nat) (l : VLink) : (s.setLink k l).elog = s.elog := rfl
@[simp] theorem State.setLink_ioTiles (s : State) (k : Nat) (l : VLink) : (s.setLink k l).ioTiles = s.ioTiles := rfl
@[simp] theorem State.setLink_plovelm (s : State) (k : Nat) (l : VLink) : (s.setLink k l).plovelm = s.plovelm := rfl
@[simp] theorem State.setLink_fwRecord (s : State) (k : Nat) (l : VLink) : (s.setLink k l).fwRecord = s.fwRecord := rfl
@[simp] theorem State.setLink_tileFaults (s : State) (k : Nat) (l : VLink) : (s.setLink k l).tileFaults = s.tileFaults := rfl
@[simp] theorem State.setLink_mailbox (s : State) (k : Nat) (l : VLink) : (s.setLink k l).mailbox = s.mailbox := rfl
@[simp] theorem State.setLink_msis (s : State) (k : Nat) (l : VLink) : (s.setLink k l).msis = s.msis := rfl
@[simp] theorem State.setLink_replies (s : State) (k : Nat) (l : VLink) : (s.setLink k l).replies = s.replies := rfl
@[simp] theorem State.setLink_softErrors (s : State) (k : Nat) (l : VLink) : (s.setLink k l).softErrors = s.softErrors := rfl
@[simp] theorem State.setLink_ioWait (s : State) (k : Nat) (l : VLink) : (s.setLink k l).ioWait = s.ioWait := rfl
@[simp] theorem State.setLink_reservations (s : State) (k : Nat) (l : VLink) : (s.setLink k l).reservations = s.reservations := rfl
@[simp] theorem State.setLink_lost (s : State) (k : Nat) (l : VLink) : (s.setLink k l).lost = s.lost := rfl
@[simp] theorem State.setLink_lostReport (s : State) (k : Nat) (l : VLink) : (s.setLink k l).lostReport = s.lostReport := rfl
@[simp] theorem State.setLink_reports (s : State) (k : Nat) (l : VLink) : (s.setLink k l).reports = s.reports := rfl
@[simp] theorem State.setLink_snaps (s : State) (k : Nat) (l : VLink) : (s.setLink k l).snaps = s.snaps := rfl
@[simp] theorem State.setLink_yipUp (s : State) (k : Nat) (l : VLink) : (s.setLink k l).yipUp = s.yipUp := rfl

@[simp] theorem State.setCtx_now (s : State) (id : Nat) (c : Context) : (s.setCtx id c).now = s.now := rfl
@[simp] theorem State.setCtx_turn (s : State) (id : Nat) (c : Context) : (s.setCtx id c).turn = s.turn := rfl
@[simp] theorem State.setCtx_core (s : State) (id : Nat) (c : Context) : (s.setCtx id c).core = s.core := rfl
@[simp] theorem State.setCtx_stream (s : State) (id : Nat) (c : Context) : (s.setCtx id c).stream = s.stream := rfl
@[simp] theorem State.setCtx_lane (s : State) (id : Nat) (c : Context) : (s.setCtx id c).lane = s.lane := rfl
@[simp] theorem State.setCtx_laneNo (s : State) (id : Nat) (c : Context) : (s.setCtx id c).laneNo = s.laneNo := rfl
@[simp] theorem State.setCtx_choices (s : State) (id : Nat) (c : Context) : (s.setCtx id c).choices = s.choices := rfl
@[simp] theorem State.setCtx_inputs (s : State) (id : Nat) (c : Context) : (s.setCtx id c).inputs = s.inputs := rfl
@[simp] theorem State.setCtx_acts (s : State) (id : Nat) (c : Context) : (s.setCtx id c).acts = s.acts := rfl
@[simp] theorem State.setCtx_deltas (s : State) (id : Nat) (c : Context) : (s.setCtx id c).deltas = s.deltas := rfl
@[simp] theorem State.setCtx_mem (s : State) (id : Nat) (c : Context) : (s.setCtx id c).mem = s.mem := rfl
@[simp] theorem State.setCtx_poison (s : State) (id : Nat) (c : Context) : (s.setCtx id c).poison = s.poison := rfl
@[simp] theorem State.setCtx_uoOld (s : State) (id : Nat) (c : Context) : (s.setCtx id c).uoOld = s.uoOld := rfl
@[simp] theorem State.setCtx_tableErrors (s : State) (id : Nat) (c : Context) : (s.setCtx id c).tableErrors = s.tableErrors := rfl
@[simp] theorem State.setCtx_writes (s : State) (id : Nat) (c : Context) : (s.setCtx id c).writes = s.writes := rfl
@[simp] theorem State.setCtx_served (s : State) (id : Nat) (c : Context) : (s.setCtx id c).served = s.served := rfl
@[simp] theorem State.setCtx_tags (s : State) (id : Nat) (c : Context) : (s.setCtx id c).tags = s.tags := rfl
@[simp] theorem State.setCtx_cores (s : State) (id : Nat) (c : Context) : (s.setCtx id c).cores = s.cores := rfl
@[simp] theorem State.setCtx_yard0 (s : State) (id : Nat) (c : Context) : (s.setCtx id c).yard0 = s.yard0 := rfl
@[simp] theorem State.setCtx_yard1 (s : State) (id : Nat) (c : Context) : (s.setCtx id c).yard1 = s.yard1 := rfl
@[simp] theorem State.setCtx_primary1 (s : State) (id : Nat) (c : Context) : (s.setCtx id c).primary1 = s.primary1 := rfl
@[simp] theorem State.setCtx_kernels (s : State) (id : Nat) (c : Context) : (s.setCtx id c).kernels = s.kernels := rfl
@[simp] theorem State.setCtx_lqs (s : State) (id : Nat) (c : Context) : (s.setCtx id c).lqs = s.lqs := rfl
@[simp] theorem State.setCtx_lastServed (s : State) (id : Nat) (c : Context) : (s.setCtx id c).lastServed = s.lastServed := rfl
@[simp] theorem State.setCtx_launches (s : State) (id : Nat) (c : Context) : (s.setCtx id c).launches = s.launches := rfl
@[simp] theorem State.setCtx_nextLaunch (s : State) (id : Nat) (c : Context) : (s.setCtx id c).nextLaunch = s.nextLaunch := rfl
@[simp] theorem State.setCtx_rounds (s : State) (id : Nat) (c : Context) : (s.setCtx id c).rounds = s.rounds := rfl
@[simp] theorem State.setCtx_roundsDone (s : State) (id : Nat) (c : Context) : (s.setCtx id c).roundsDone = s.roundsDone := rfl
@[simp] theorem State.setCtx_windows (s : State) (id : Nat) (c : Context) : (s.setCtx id c).windows = s.windows := rfl
@[simp] theorem State.setCtx_shunters (s : State) (id : Nat) (c : Context) : (s.setCtx id c).shunters = s.shunters := rfl
@[simp] theorem State.setCtx_engines (s : State) (id : Nat) (c : Context) : (s.setCtx id c).engines = s.engines := rfl
@[simp] theorem State.setCtx_nextCmd (s : State) (id : Nat) (c : Context) : (s.setCtx id c).nextCmd = s.nextCmd := rfl
@[simp] theorem State.setCtx_trapFifo (s : State) (id : Nat) (c : Context) : (s.setCtx id c).trapFifo = s.trapFifo := rfl
@[simp] theorem State.setCtx_trapWait (s : State) (id : Nat) (c : Context) : (s.setCtx id c).trapWait = s.trapWait := rfl
@[simp] theorem State.setCtx_held (s : State) (id : Nat) (c : Context) : (s.setCtx id c).held = s.held := rfl
@[simp] theorem State.setCtx_lateAmos (s : State) (id : Nat) (c : Context) : (s.setCtx id c).lateAmos = s.lateAmos := rfl
@[simp] theorem State.setCtx_shedTlbs (s : State) (id : Nat) (c : Context) : (s.setCtx id c).shedTlbs = s.shedTlbs := rfl
@[simp] theorem State.setCtx_tlbInvs (s : State) (id : Nat) (c : Context) : (s.setCtx id c).tlbInvs = s.tlbInvs := rfl
@[simp] theorem State.setCtx_migration (s : State) (id : Nat) (c : Context) : (s.setCtx id c).migration = s.migration := rfl
@[simp] theorem State.setCtx_pnow (s : State) (id : Nat) (c : Context) : (s.setCtx id c).pnow = s.pnow := rfl
@[simp] theorem State.setCtx_mv (s : State) (id : Nat) (c : Context) : (s.setCtx id c).mv = s.mv := rfl
@[simp] theorem State.setCtx_plim (s : State) (id : Nat) (c : Context) : (s.setCtx id c).plim = s.plim := rfl
@[simp] theorem State.setCtx_links (s : State) (id : Nat) (c : Context) : (s.setCtx id c).links = s.links := rfl
@[simp] theorem State.setCtx_peerReqs (s : State) (id : Nat) (c : Context) : (s.setCtx id c).peerReqs = s.peerReqs := rfl
@[simp] theorem State.setCtx_peerWindows (s : State) (id : Nat) (c : Context) : (s.setCtx id c).peerWindows = s.peerWindows := rfl
@[simp] theorem State.setCtx_straps (s : State) (id : Nat) (c : Context) : (s.setCtx id c).straps = s.straps := rfl
@[simp] theorem State.setCtx_pcie (s : State) (id : Nat) (c : Context) : (s.setCtx id c).pcie = s.pcie := rfl
@[simp] theorem State.setCtx_cxl (s : State) (id : Nat) (c : Context) : (s.setCtx id c).cxl = s.cxl := rfl
@[simp] theorem State.setCtx_elog (s : State) (id : Nat) (c : Context) : (s.setCtx id c).elog = s.elog := rfl
@[simp] theorem State.setCtx_ioTiles (s : State) (id : Nat) (c : Context) : (s.setCtx id c).ioTiles = s.ioTiles := rfl
@[simp] theorem State.setCtx_plovelm (s : State) (id : Nat) (c : Context) : (s.setCtx id c).plovelm = s.plovelm := rfl
@[simp] theorem State.setCtx_fwRecord (s : State) (id : Nat) (c : Context) : (s.setCtx id c).fwRecord = s.fwRecord := rfl
@[simp] theorem State.setCtx_tileFaults (s : State) (id : Nat) (c : Context) : (s.setCtx id c).tileFaults = s.tileFaults := rfl
@[simp] theorem State.setCtx_mailbox (s : State) (id : Nat) (c : Context) : (s.setCtx id c).mailbox = s.mailbox := rfl
@[simp] theorem State.setCtx_msis (s : State) (id : Nat) (c : Context) : (s.setCtx id c).msis = s.msis := rfl
@[simp] theorem State.setCtx_replies (s : State) (id : Nat) (c : Context) : (s.setCtx id c).replies = s.replies := rfl
@[simp] theorem State.setCtx_softErrors (s : State) (id : Nat) (c : Context) : (s.setCtx id c).softErrors = s.softErrors := rfl
@[simp] theorem State.setCtx_ioWait (s : State) (id : Nat) (c : Context) : (s.setCtx id c).ioWait = s.ioWait := rfl
@[simp] theorem State.setCtx_reservations (s : State) (id : Nat) (c : Context) : (s.setCtx id c).reservations = s.reservations := rfl
@[simp] theorem State.setCtx_lost (s : State) (id : Nat) (c : Context) : (s.setCtx id c).lost = s.lost := rfl
@[simp] theorem State.setCtx_lostReport (s : State) (id : Nat) (c : Context) : (s.setCtx id c).lostReport = s.lostReport := rfl
@[simp] theorem State.setCtx_reports (s : State) (id : Nat) (c : Context) : (s.setCtx id c).reports = s.reports := rfl
@[simp] theorem State.setCtx_snaps (s : State) (id : Nat) (c : Context) : (s.setCtx id c).snaps = s.snaps := rfl
@[simp] theorem State.setCtx_yipUp (s : State) (id : Nat) (c : Context) : (s.setCtx id c).yipUp = s.yipUp := rfl

@[simp] theorem State.setTag_now (s : State) (pa : Nat) (t : Tag) : (s.setTag pa t).now = s.now := rfl
@[simp] theorem State.setTag_turn (s : State) (pa : Nat) (t : Tag) : (s.setTag pa t).turn = s.turn := rfl
@[simp] theorem State.setTag_core (s : State) (pa : Nat) (t : Tag) : (s.setTag pa t).core = s.core := rfl
@[simp] theorem State.setTag_stream (s : State) (pa : Nat) (t : Tag) : (s.setTag pa t).stream = s.stream := rfl
@[simp] theorem State.setTag_lane (s : State) (pa : Nat) (t : Tag) : (s.setTag pa t).lane = s.lane := rfl
@[simp] theorem State.setTag_laneNo (s : State) (pa : Nat) (t : Tag) : (s.setTag pa t).laneNo = s.laneNo := rfl
@[simp] theorem State.setTag_choices (s : State) (pa : Nat) (t : Tag) : (s.setTag pa t).choices = s.choices := rfl
@[simp] theorem State.setTag_inputs (s : State) (pa : Nat) (t : Tag) : (s.setTag pa t).inputs = s.inputs := rfl
@[simp] theorem State.setTag_acts (s : State) (pa : Nat) (t : Tag) : (s.setTag pa t).acts = s.acts := rfl
@[simp] theorem State.setTag_deltas (s : State) (pa : Nat) (t : Tag) : (s.setTag pa t).deltas = s.deltas := rfl
@[simp] theorem State.setTag_mem (s : State) (pa : Nat) (t : Tag) : (s.setTag pa t).mem = s.mem := rfl
@[simp] theorem State.setTag_poison (s : State) (pa : Nat) (t : Tag) : (s.setTag pa t).poison = s.poison := rfl
@[simp] theorem State.setTag_uoOld (s : State) (pa : Nat) (t : Tag) : (s.setTag pa t).uoOld = s.uoOld := rfl
@[simp] theorem State.setTag_tableErrors (s : State) (pa : Nat) (t : Tag) : (s.setTag pa t).tableErrors = s.tableErrors := rfl
@[simp] theorem State.setTag_writes (s : State) (pa : Nat) (t : Tag) : (s.setTag pa t).writes = s.writes := rfl
@[simp] theorem State.setTag_served (s : State) (pa : Nat) (t : Tag) : (s.setTag pa t).served = s.served := rfl
@[simp] theorem State.setTag_cores (s : State) (pa : Nat) (t : Tag) : (s.setTag pa t).cores = s.cores := rfl
@[simp] theorem State.setTag_yard0 (s : State) (pa : Nat) (t : Tag) : (s.setTag pa t).yard0 = s.yard0 := rfl
@[simp] theorem State.setTag_yard1 (s : State) (pa : Nat) (t : Tag) : (s.setTag pa t).yard1 = s.yard1 := rfl
@[simp] theorem State.setTag_primary1 (s : State) (pa : Nat) (t : Tag) : (s.setTag pa t).primary1 = s.primary1 := rfl
@[simp] theorem State.setTag_ctxs (s : State) (pa : Nat) (t : Tag) : (s.setTag pa t).ctxs = s.ctxs := rfl
@[simp] theorem State.setTag_kernels (s : State) (pa : Nat) (t : Tag) : (s.setTag pa t).kernels = s.kernels := rfl
@[simp] theorem State.setTag_lqs (s : State) (pa : Nat) (t : Tag) : (s.setTag pa t).lqs = s.lqs := rfl
@[simp] theorem State.setTag_lastServed (s : State) (pa : Nat) (t : Tag) : (s.setTag pa t).lastServed = s.lastServed := rfl
@[simp] theorem State.setTag_launches (s : State) (pa : Nat) (t : Tag) : (s.setTag pa t).launches = s.launches := rfl
@[simp] theorem State.setTag_nextLaunch (s : State) (pa : Nat) (t : Tag) : (s.setTag pa t).nextLaunch = s.nextLaunch := rfl
@[simp] theorem State.setTag_rounds (s : State) (pa : Nat) (t : Tag) : (s.setTag pa t).rounds = s.rounds := rfl
@[simp] theorem State.setTag_roundsDone (s : State) (pa : Nat) (t : Tag) : (s.setTag pa t).roundsDone = s.roundsDone := rfl
@[simp] theorem State.setTag_windows (s : State) (pa : Nat) (t : Tag) : (s.setTag pa t).windows = s.windows := rfl
@[simp] theorem State.setTag_shunters (s : State) (pa : Nat) (t : Tag) : (s.setTag pa t).shunters = s.shunters := rfl
@[simp] theorem State.setTag_engines (s : State) (pa : Nat) (t : Tag) : (s.setTag pa t).engines = s.engines := rfl
@[simp] theorem State.setTag_nextCmd (s : State) (pa : Nat) (t : Tag) : (s.setTag pa t).nextCmd = s.nextCmd := rfl
@[simp] theorem State.setTag_trapFifo (s : State) (pa : Nat) (t : Tag) : (s.setTag pa t).trapFifo = s.trapFifo := rfl
@[simp] theorem State.setTag_trapWait (s : State) (pa : Nat) (t : Tag) : (s.setTag pa t).trapWait = s.trapWait := rfl
@[simp] theorem State.setTag_held (s : State) (pa : Nat) (t : Tag) : (s.setTag pa t).held = s.held := rfl
@[simp] theorem State.setTag_lateAmos (s : State) (pa : Nat) (t : Tag) : (s.setTag pa t).lateAmos = s.lateAmos := rfl
@[simp] theorem State.setTag_shedTlbs (s : State) (pa : Nat) (t : Tag) : (s.setTag pa t).shedTlbs = s.shedTlbs := rfl
@[simp] theorem State.setTag_tlbInvs (s : State) (pa : Nat) (t : Tag) : (s.setTag pa t).tlbInvs = s.tlbInvs := rfl
@[simp] theorem State.setTag_migration (s : State) (pa : Nat) (t : Tag) : (s.setTag pa t).migration = s.migration := rfl
@[simp] theorem State.setTag_pnow (s : State) (pa : Nat) (t : Tag) : (s.setTag pa t).pnow = s.pnow := rfl
@[simp] theorem State.setTag_mv (s : State) (pa : Nat) (t : Tag) : (s.setTag pa t).mv = s.mv := rfl
@[simp] theorem State.setTag_plim (s : State) (pa : Nat) (t : Tag) : (s.setTag pa t).plim = s.plim := rfl
@[simp] theorem State.setTag_links (s : State) (pa : Nat) (t : Tag) : (s.setTag pa t).links = s.links := rfl
@[simp] theorem State.setTag_peerReqs (s : State) (pa : Nat) (t : Tag) : (s.setTag pa t).peerReqs = s.peerReqs := rfl
@[simp] theorem State.setTag_peerWindows (s : State) (pa : Nat) (t : Tag) : (s.setTag pa t).peerWindows = s.peerWindows := rfl
@[simp] theorem State.setTag_straps (s : State) (pa : Nat) (t : Tag) : (s.setTag pa t).straps = s.straps := rfl
@[simp] theorem State.setTag_pcie (s : State) (pa : Nat) (t : Tag) : (s.setTag pa t).pcie = s.pcie := rfl
@[simp] theorem State.setTag_cxl (s : State) (pa : Nat) (t : Tag) : (s.setTag pa t).cxl = s.cxl := rfl
@[simp] theorem State.setTag_elog (s : State) (pa : Nat) (t : Tag) : (s.setTag pa t).elog = s.elog := rfl
@[simp] theorem State.setTag_ioTiles (s : State) (pa : Nat) (t : Tag) : (s.setTag pa t).ioTiles = s.ioTiles := rfl
@[simp] theorem State.setTag_plovelm (s : State) (pa : Nat) (t : Tag) : (s.setTag pa t).plovelm = s.plovelm := rfl
@[simp] theorem State.setTag_fwRecord (s : State) (pa : Nat) (t : Tag) : (s.setTag pa t).fwRecord = s.fwRecord := rfl
@[simp] theorem State.setTag_tileFaults (s : State) (pa : Nat) (t : Tag) : (s.setTag pa t).tileFaults = s.tileFaults := rfl
@[simp] theorem State.setTag_mailbox (s : State) (pa : Nat) (t : Tag) : (s.setTag pa t).mailbox = s.mailbox := rfl
@[simp] theorem State.setTag_msis (s : State) (pa : Nat) (t : Tag) : (s.setTag pa t).msis = s.msis := rfl
@[simp] theorem State.setTag_replies (s : State) (pa : Nat) (t : Tag) : (s.setTag pa t).replies = s.replies := rfl
@[simp] theorem State.setTag_softErrors (s : State) (pa : Nat) (t : Tag) : (s.setTag pa t).softErrors = s.softErrors := rfl
@[simp] theorem State.setTag_ioWait (s : State) (pa : Nat) (t : Tag) : (s.setTag pa t).ioWait = s.ioWait := rfl
@[simp] theorem State.setTag_reservations (s : State) (pa : Nat) (t : Tag) : (s.setTag pa t).reservations = s.reservations := rfl
@[simp] theorem State.setTag_lost (s : State) (pa : Nat) (t : Tag) : (s.setTag pa t).lost = s.lost := rfl
@[simp] theorem State.setTag_lostReport (s : State) (pa : Nat) (t : Tag) : (s.setTag pa t).lostReport = s.lostReport := rfl
@[simp] theorem State.setTag_reports (s : State) (pa : Nat) (t : Tag) : (s.setTag pa t).reports = s.reports := rfl
@[simp] theorem State.setTag_snaps (s : State) (pa : Nat) (t : Tag) : (s.setTag pa t).snaps = s.snaps := rfl
@[simp] theorem State.setTag_yipUp (s : State) (pa : Nat) (t : Tag) : (s.setTag pa t).yipUp = s.yipUp := rfl

@[simp] theorem State.setPoison_now (s : State) (pa : Nat) : (s.setPoison pa).now = s.now := rfl
@[simp] theorem State.setPoison_turn (s : State) (pa : Nat) : (s.setPoison pa).turn = s.turn := rfl
@[simp] theorem State.setPoison_core (s : State) (pa : Nat) : (s.setPoison pa).core = s.core := rfl
@[simp] theorem State.setPoison_stream (s : State) (pa : Nat) : (s.setPoison pa).stream = s.stream := rfl
@[simp] theorem State.setPoison_lane (s : State) (pa : Nat) : (s.setPoison pa).lane = s.lane := rfl
@[simp] theorem State.setPoison_laneNo (s : State) (pa : Nat) : (s.setPoison pa).laneNo = s.laneNo := rfl
@[simp] theorem State.setPoison_choices (s : State) (pa : Nat) : (s.setPoison pa).choices = s.choices := rfl
@[simp] theorem State.setPoison_inputs (s : State) (pa : Nat) : (s.setPoison pa).inputs = s.inputs := rfl
@[simp] theorem State.setPoison_acts (s : State) (pa : Nat) : (s.setPoison pa).acts = s.acts := rfl
@[simp] theorem State.setPoison_deltas (s : State) (pa : Nat) : (s.setPoison pa).deltas = s.deltas := rfl
@[simp] theorem State.setPoison_mem (s : State) (pa : Nat) : (s.setPoison pa).mem = s.mem := rfl
@[simp] theorem State.setPoison_uoOld (s : State) (pa : Nat) : (s.setPoison pa).uoOld = s.uoOld := rfl
@[simp] theorem State.setPoison_tableErrors (s : State) (pa : Nat) : (s.setPoison pa).tableErrors = s.tableErrors := rfl
@[simp] theorem State.setPoison_writes (s : State) (pa : Nat) : (s.setPoison pa).writes = s.writes := rfl
@[simp] theorem State.setPoison_served (s : State) (pa : Nat) : (s.setPoison pa).served = s.served := rfl
@[simp] theorem State.setPoison_tags (s : State) (pa : Nat) : (s.setPoison pa).tags = s.tags := rfl
@[simp] theorem State.setPoison_cores (s : State) (pa : Nat) : (s.setPoison pa).cores = s.cores := rfl
@[simp] theorem State.setPoison_yard0 (s : State) (pa : Nat) : (s.setPoison pa).yard0 = s.yard0 := rfl
@[simp] theorem State.setPoison_yard1 (s : State) (pa : Nat) : (s.setPoison pa).yard1 = s.yard1 := rfl
@[simp] theorem State.setPoison_primary1 (s : State) (pa : Nat) : (s.setPoison pa).primary1 = s.primary1 := rfl
@[simp] theorem State.setPoison_ctxs (s : State) (pa : Nat) : (s.setPoison pa).ctxs = s.ctxs := rfl
@[simp] theorem State.setPoison_kernels (s : State) (pa : Nat) : (s.setPoison pa).kernels = s.kernels := rfl
@[simp] theorem State.setPoison_lqs (s : State) (pa : Nat) : (s.setPoison pa).lqs = s.lqs := rfl
@[simp] theorem State.setPoison_lastServed (s : State) (pa : Nat) : (s.setPoison pa).lastServed = s.lastServed := rfl
@[simp] theorem State.setPoison_launches (s : State) (pa : Nat) : (s.setPoison pa).launches = s.launches := rfl
@[simp] theorem State.setPoison_nextLaunch (s : State) (pa : Nat) : (s.setPoison pa).nextLaunch = s.nextLaunch := rfl
@[simp] theorem State.setPoison_rounds (s : State) (pa : Nat) : (s.setPoison pa).rounds = s.rounds := rfl
@[simp] theorem State.setPoison_roundsDone (s : State) (pa : Nat) : (s.setPoison pa).roundsDone = s.roundsDone := rfl
@[simp] theorem State.setPoison_windows (s : State) (pa : Nat) : (s.setPoison pa).windows = s.windows := rfl
@[simp] theorem State.setPoison_shunters (s : State) (pa : Nat) : (s.setPoison pa).shunters = s.shunters := rfl
@[simp] theorem State.setPoison_engines (s : State) (pa : Nat) : (s.setPoison pa).engines = s.engines := rfl
@[simp] theorem State.setPoison_nextCmd (s : State) (pa : Nat) : (s.setPoison pa).nextCmd = s.nextCmd := rfl
@[simp] theorem State.setPoison_trapFifo (s : State) (pa : Nat) : (s.setPoison pa).trapFifo = s.trapFifo := rfl
@[simp] theorem State.setPoison_trapWait (s : State) (pa : Nat) : (s.setPoison pa).trapWait = s.trapWait := rfl
@[simp] theorem State.setPoison_held (s : State) (pa : Nat) : (s.setPoison pa).held = s.held := rfl
@[simp] theorem State.setPoison_lateAmos (s : State) (pa : Nat) : (s.setPoison pa).lateAmos = s.lateAmos := rfl
@[simp] theorem State.setPoison_shedTlbs (s : State) (pa : Nat) : (s.setPoison pa).shedTlbs = s.shedTlbs := rfl
@[simp] theorem State.setPoison_tlbInvs (s : State) (pa : Nat) : (s.setPoison pa).tlbInvs = s.tlbInvs := rfl
@[simp] theorem State.setPoison_migration (s : State) (pa : Nat) : (s.setPoison pa).migration = s.migration := rfl
@[simp] theorem State.setPoison_pnow (s : State) (pa : Nat) : (s.setPoison pa).pnow = s.pnow := rfl
@[simp] theorem State.setPoison_mv (s : State) (pa : Nat) : (s.setPoison pa).mv = s.mv := rfl
@[simp] theorem State.setPoison_plim (s : State) (pa : Nat) : (s.setPoison pa).plim = s.plim := rfl
@[simp] theorem State.setPoison_links (s : State) (pa : Nat) : (s.setPoison pa).links = s.links := rfl
@[simp] theorem State.setPoison_peerReqs (s : State) (pa : Nat) : (s.setPoison pa).peerReqs = s.peerReqs := rfl
@[simp] theorem State.setPoison_peerWindows (s : State) (pa : Nat) : (s.setPoison pa).peerWindows = s.peerWindows := rfl
@[simp] theorem State.setPoison_straps (s : State) (pa : Nat) : (s.setPoison pa).straps = s.straps := rfl
@[simp] theorem State.setPoison_pcie (s : State) (pa : Nat) : (s.setPoison pa).pcie = s.pcie := rfl
@[simp] theorem State.setPoison_cxl (s : State) (pa : Nat) : (s.setPoison pa).cxl = s.cxl := rfl
@[simp] theorem State.setPoison_elog (s : State) (pa : Nat) : (s.setPoison pa).elog = s.elog := rfl
@[simp] theorem State.setPoison_ioTiles (s : State) (pa : Nat) : (s.setPoison pa).ioTiles = s.ioTiles := rfl
@[simp] theorem State.setPoison_plovelm (s : State) (pa : Nat) : (s.setPoison pa).plovelm = s.plovelm := rfl
@[simp] theorem State.setPoison_fwRecord (s : State) (pa : Nat) : (s.setPoison pa).fwRecord = s.fwRecord := rfl
@[simp] theorem State.setPoison_tileFaults (s : State) (pa : Nat) : (s.setPoison pa).tileFaults = s.tileFaults := rfl
@[simp] theorem State.setPoison_mailbox (s : State) (pa : Nat) : (s.setPoison pa).mailbox = s.mailbox := rfl
@[simp] theorem State.setPoison_msis (s : State) (pa : Nat) : (s.setPoison pa).msis = s.msis := rfl
@[simp] theorem State.setPoison_replies (s : State) (pa : Nat) : (s.setPoison pa).replies = s.replies := rfl
@[simp] theorem State.setPoison_softErrors (s : State) (pa : Nat) : (s.setPoison pa).softErrors = s.softErrors := rfl
@[simp] theorem State.setPoison_ioWait (s : State) (pa : Nat) : (s.setPoison pa).ioWait = s.ioWait := rfl
@[simp] theorem State.setPoison_reservations (s : State) (pa : Nat) : (s.setPoison pa).reservations = s.reservations := rfl
@[simp] theorem State.setPoison_lost (s : State) (pa : Nat) : (s.setPoison pa).lost = s.lost := rfl
@[simp] theorem State.setPoison_lostReport (s : State) (pa : Nat) : (s.setPoison pa).lostReport = s.lostReport := rfl
@[simp] theorem State.setPoison_reports (s : State) (pa : Nat) : (s.setPoison pa).reports = s.reports := rfl
@[simp] theorem State.setPoison_snaps (s : State) (pa : Nat) : (s.setPoison pa).snaps = s.snaps := rfl
@[simp] theorem State.setPoison_yipUp (s : State) (pa : Nat) : (s.setPoison pa).yipUp = s.yipUp := rfl

@[simp] theorem State.report_now (s : State) (r : TrapRec) : (s.report r).now = s.now := rfl
@[simp] theorem State.report_turn (s : State) (r : TrapRec) : (s.report r).turn = s.turn := rfl
@[simp] theorem State.report_core (s : State) (r : TrapRec) : (s.report r).core = s.core := rfl
@[simp] theorem State.report_stream (s : State) (r : TrapRec) : (s.report r).stream = s.stream := rfl
@[simp] theorem State.report_lane (s : State) (r : TrapRec) : (s.report r).lane = s.lane := rfl
@[simp] theorem State.report_laneNo (s : State) (r : TrapRec) : (s.report r).laneNo = s.laneNo := rfl
@[simp] theorem State.report_choices (s : State) (r : TrapRec) : (s.report r).choices = s.choices := rfl
@[simp] theorem State.report_inputs (s : State) (r : TrapRec) : (s.report r).inputs = s.inputs := rfl
@[simp] theorem State.report_acts (s : State) (r : TrapRec) : (s.report r).acts = s.acts := rfl
@[simp] theorem State.report_deltas (s : State) (r : TrapRec) : (s.report r).deltas = s.deltas := rfl
@[simp] theorem State.report_mem (s : State) (r : TrapRec) : (s.report r).mem = s.mem := rfl
@[simp] theorem State.report_poison (s : State) (r : TrapRec) : (s.report r).poison = s.poison := rfl
@[simp] theorem State.report_uoOld (s : State) (r : TrapRec) : (s.report r).uoOld = s.uoOld := rfl
@[simp] theorem State.report_tableErrors (s : State) (r : TrapRec) : (s.report r).tableErrors = s.tableErrors := rfl
@[simp] theorem State.report_writes (s : State) (r : TrapRec) : (s.report r).writes = s.writes := rfl
@[simp] theorem State.report_served (s : State) (r : TrapRec) : (s.report r).served = s.served := rfl
@[simp] theorem State.report_tags (s : State) (r : TrapRec) : (s.report r).tags = s.tags := rfl
@[simp] theorem State.report_cores (s : State) (r : TrapRec) : (s.report r).cores = s.cores := rfl
@[simp] theorem State.report_yard0 (s : State) (r : TrapRec) : (s.report r).yard0 = s.yard0 := rfl
@[simp] theorem State.report_yard1 (s : State) (r : TrapRec) : (s.report r).yard1 = s.yard1 := rfl
@[simp] theorem State.report_primary1 (s : State) (r : TrapRec) : (s.report r).primary1 = s.primary1 := rfl
@[simp] theorem State.report_ctxs (s : State) (r : TrapRec) : (s.report r).ctxs = s.ctxs := rfl
@[simp] theorem State.report_kernels (s : State) (r : TrapRec) : (s.report r).kernels = s.kernels := rfl
@[simp] theorem State.report_lqs (s : State) (r : TrapRec) : (s.report r).lqs = s.lqs := rfl
@[simp] theorem State.report_lastServed (s : State) (r : TrapRec) : (s.report r).lastServed = s.lastServed := rfl
@[simp] theorem State.report_launches (s : State) (r : TrapRec) : (s.report r).launches = s.launches := rfl
@[simp] theorem State.report_nextLaunch (s : State) (r : TrapRec) : (s.report r).nextLaunch = s.nextLaunch := rfl
@[simp] theorem State.report_rounds (s : State) (r : TrapRec) : (s.report r).rounds = s.rounds := rfl
@[simp] theorem State.report_roundsDone (s : State) (r : TrapRec) : (s.report r).roundsDone = s.roundsDone := rfl
@[simp] theorem State.report_windows (s : State) (r : TrapRec) : (s.report r).windows = s.windows := rfl
@[simp] theorem State.report_shunters (s : State) (r : TrapRec) : (s.report r).shunters = s.shunters := rfl
@[simp] theorem State.report_engines (s : State) (r : TrapRec) : (s.report r).engines = s.engines := rfl
@[simp] theorem State.report_nextCmd (s : State) (r : TrapRec) : (s.report r).nextCmd = s.nextCmd := rfl
@[simp] theorem State.report_trapFifo (s : State) (r : TrapRec) : (s.report r).trapFifo = s.trapFifo := rfl
@[simp] theorem State.report_held (s : State) (r : TrapRec) : (s.report r).held = s.held := rfl
@[simp] theorem State.report_lateAmos (s : State) (r : TrapRec) : (s.report r).lateAmos = s.lateAmos := rfl
@[simp] theorem State.report_shedTlbs (s : State) (r : TrapRec) : (s.report r).shedTlbs = s.shedTlbs := rfl
@[simp] theorem State.report_tlbInvs (s : State) (r : TrapRec) : (s.report r).tlbInvs = s.tlbInvs := rfl
@[simp] theorem State.report_migration (s : State) (r : TrapRec) : (s.report r).migration = s.migration := rfl
@[simp] theorem State.report_pnow (s : State) (r : TrapRec) : (s.report r).pnow = s.pnow := rfl
@[simp] theorem State.report_mv (s : State) (r : TrapRec) : (s.report r).mv = s.mv := rfl
@[simp] theorem State.report_plim (s : State) (r : TrapRec) : (s.report r).plim = s.plim := rfl
@[simp] theorem State.report_links (s : State) (r : TrapRec) : (s.report r).links = s.links := rfl
@[simp] theorem State.report_peerReqs (s : State) (r : TrapRec) : (s.report r).peerReqs = s.peerReqs := rfl
@[simp] theorem State.report_peerWindows (s : State) (r : TrapRec) : (s.report r).peerWindows = s.peerWindows := rfl
@[simp] theorem State.report_straps (s : State) (r : TrapRec) : (s.report r).straps = s.straps := rfl
@[simp] theorem State.report_pcie (s : State) (r : TrapRec) : (s.report r).pcie = s.pcie := rfl
@[simp] theorem State.report_cxl (s : State) (r : TrapRec) : (s.report r).cxl = s.cxl := rfl
@[simp] theorem State.report_elog (s : State) (r : TrapRec) : (s.report r).elog = s.elog := rfl
@[simp] theorem State.report_ioTiles (s : State) (r : TrapRec) : (s.report r).ioTiles = s.ioTiles := rfl
@[simp] theorem State.report_plovelm (s : State) (r : TrapRec) : (s.report r).plovelm = s.plovelm := rfl
@[simp] theorem State.report_fwRecord (s : State) (r : TrapRec) : (s.report r).fwRecord = s.fwRecord := rfl
@[simp] theorem State.report_tileFaults (s : State) (r : TrapRec) : (s.report r).tileFaults = s.tileFaults := rfl
@[simp] theorem State.report_mailbox (s : State) (r : TrapRec) : (s.report r).mailbox = s.mailbox := rfl
@[simp] theorem State.report_msis (s : State) (r : TrapRec) : (s.report r).msis = s.msis := rfl
@[simp] theorem State.report_replies (s : State) (r : TrapRec) : (s.report r).replies = s.replies := rfl
@[simp] theorem State.report_softErrors (s : State) (r : TrapRec) : (s.report r).softErrors = s.softErrors := rfl
@[simp] theorem State.report_ioWait (s : State) (r : TrapRec) : (s.report r).ioWait = s.ioWait := rfl
@[simp] theorem State.report_reservations (s : State) (r : TrapRec) : (s.report r).reservations = s.reservations := rfl
@[simp] theorem State.report_lost (s : State) (r : TrapRec) : (s.report r).lost = s.lost := rfl
@[simp] theorem State.report_lostReport (s : State) (r : TrapRec) : (s.report r).lostReport = s.lostReport := rfl
@[simp] theorem State.report_reports (s : State) (r : TrapRec) : (s.report r).reports = s.reports := rfl
@[simp] theorem State.report_snaps (s : State) (r : TrapRec) : (s.report r).snaps = s.snaps := rfl
@[simp] theorem State.report_yipUp (s : State) (r : TrapRec) : (s.report r).yipUp = s.yipUp := rfl

@[simp] theorem State.setYard_now (s : State) (p : Nat) (y : Yard) : (s.setYard p y).now = s.now := by unfold State.setYard; split <;> rfl
@[simp] theorem State.setYard_turn (s : State) (p : Nat) (y : Yard) : (s.setYard p y).turn = s.turn := by unfold State.setYard; split <;> rfl
@[simp] theorem State.setYard_core (s : State) (p : Nat) (y : Yard) : (s.setYard p y).core = s.core := by unfold State.setYard; split <;> rfl
@[simp] theorem State.setYard_stream (s : State) (p : Nat) (y : Yard) : (s.setYard p y).stream = s.stream := by unfold State.setYard; split <;> rfl
@[simp] theorem State.setYard_lane (s : State) (p : Nat) (y : Yard) : (s.setYard p y).lane = s.lane := by unfold State.setYard; split <;> rfl
@[simp] theorem State.setYard_laneNo (s : State) (p : Nat) (y : Yard) : (s.setYard p y).laneNo = s.laneNo := by unfold State.setYard; split <;> rfl
@[simp] theorem State.setYard_choices (s : State) (p : Nat) (y : Yard) : (s.setYard p y).choices = s.choices := by unfold State.setYard; split <;> rfl
@[simp] theorem State.setYard_inputs (s : State) (p : Nat) (y : Yard) : (s.setYard p y).inputs = s.inputs := by unfold State.setYard; split <;> rfl
@[simp] theorem State.setYard_acts (s : State) (p : Nat) (y : Yard) : (s.setYard p y).acts = s.acts := by unfold State.setYard; split <;> rfl
@[simp] theorem State.setYard_deltas (s : State) (p : Nat) (y : Yard) : (s.setYard p y).deltas = s.deltas := by unfold State.setYard; split <;> rfl
@[simp] theorem State.setYard_mem (s : State) (p : Nat) (y : Yard) : (s.setYard p y).mem = s.mem := by unfold State.setYard; split <;> rfl
@[simp] theorem State.setYard_poison (s : State) (p : Nat) (y : Yard) : (s.setYard p y).poison = s.poison := by unfold State.setYard; split <;> rfl
@[simp] theorem State.setYard_uoOld (s : State) (p : Nat) (y : Yard) : (s.setYard p y).uoOld = s.uoOld := by unfold State.setYard; split <;> rfl
@[simp] theorem State.setYard_tableErrors (s : State) (p : Nat) (y : Yard) : (s.setYard p y).tableErrors = s.tableErrors := by unfold State.setYard; split <;> rfl
@[simp] theorem State.setYard_writes (s : State) (p : Nat) (y : Yard) : (s.setYard p y).writes = s.writes := by unfold State.setYard; split <;> rfl
@[simp] theorem State.setYard_served (s : State) (p : Nat) (y : Yard) : (s.setYard p y).served = s.served := by unfold State.setYard; split <;> rfl
@[simp] theorem State.setYard_tags (s : State) (p : Nat) (y : Yard) : (s.setYard p y).tags = s.tags := by unfold State.setYard; split <;> rfl
@[simp] theorem State.setYard_cores (s : State) (p : Nat) (y : Yard) : (s.setYard p y).cores = s.cores := by unfold State.setYard; split <;> rfl
@[simp] theorem State.setYard_primary1 (s : State) (p : Nat) (y : Yard) : (s.setYard p y).primary1 = s.primary1 := by unfold State.setYard; split <;> rfl
@[simp] theorem State.setYard_ctxs (s : State) (p : Nat) (y : Yard) : (s.setYard p y).ctxs = s.ctxs := by unfold State.setYard; split <;> rfl
@[simp] theorem State.setYard_kernels (s : State) (p : Nat) (y : Yard) : (s.setYard p y).kernels = s.kernels := by unfold State.setYard; split <;> rfl
@[simp] theorem State.setYard_lqs (s : State) (p : Nat) (y : Yard) : (s.setYard p y).lqs = s.lqs := by unfold State.setYard; split <;> rfl
@[simp] theorem State.setYard_lastServed (s : State) (p : Nat) (y : Yard) : (s.setYard p y).lastServed = s.lastServed := by unfold State.setYard; split <;> rfl
@[simp] theorem State.setYard_launches (s : State) (p : Nat) (y : Yard) : (s.setYard p y).launches = s.launches := by unfold State.setYard; split <;> rfl
@[simp] theorem State.setYard_nextLaunch (s : State) (p : Nat) (y : Yard) : (s.setYard p y).nextLaunch = s.nextLaunch := by unfold State.setYard; split <;> rfl
@[simp] theorem State.setYard_rounds (s : State) (p : Nat) (y : Yard) : (s.setYard p y).rounds = s.rounds := by unfold State.setYard; split <;> rfl
@[simp] theorem State.setYard_roundsDone (s : State) (p : Nat) (y : Yard) : (s.setYard p y).roundsDone = s.roundsDone := by unfold State.setYard; split <;> rfl
@[simp] theorem State.setYard_windows (s : State) (p : Nat) (y : Yard) : (s.setYard p y).windows = s.windows := by unfold State.setYard; split <;> rfl
@[simp] theorem State.setYard_shunters (s : State) (p : Nat) (y : Yard) : (s.setYard p y).shunters = s.shunters := by unfold State.setYard; split <;> rfl
@[simp] theorem State.setYard_engines (s : State) (p : Nat) (y : Yard) : (s.setYard p y).engines = s.engines := by unfold State.setYard; split <;> rfl
@[simp] theorem State.setYard_nextCmd (s : State) (p : Nat) (y : Yard) : (s.setYard p y).nextCmd = s.nextCmd := by unfold State.setYard; split <;> rfl
@[simp] theorem State.setYard_trapFifo (s : State) (p : Nat) (y : Yard) : (s.setYard p y).trapFifo = s.trapFifo := by unfold State.setYard; split <;> rfl
@[simp] theorem State.setYard_trapWait (s : State) (p : Nat) (y : Yard) : (s.setYard p y).trapWait = s.trapWait := by unfold State.setYard; split <;> rfl
@[simp] theorem State.setYard_held (s : State) (p : Nat) (y : Yard) : (s.setYard p y).held = s.held := by unfold State.setYard; split <;> rfl
@[simp] theorem State.setYard_lateAmos (s : State) (p : Nat) (y : Yard) : (s.setYard p y).lateAmos = s.lateAmos := by unfold State.setYard; split <;> rfl
@[simp] theorem State.setYard_shedTlbs (s : State) (p : Nat) (y : Yard) : (s.setYard p y).shedTlbs = s.shedTlbs := by unfold State.setYard; split <;> rfl
@[simp] theorem State.setYard_tlbInvs (s : State) (p : Nat) (y : Yard) : (s.setYard p y).tlbInvs = s.tlbInvs := by unfold State.setYard; split <;> rfl
@[simp] theorem State.setYard_migration (s : State) (p : Nat) (y : Yard) : (s.setYard p y).migration = s.migration := by unfold State.setYard; split <;> rfl
@[simp] theorem State.setYard_pnow (s : State) (p : Nat) (y : Yard) : (s.setYard p y).pnow = s.pnow := by unfold State.setYard; split <;> rfl
@[simp] theorem State.setYard_mv (s : State) (p : Nat) (y : Yard) : (s.setYard p y).mv = s.mv := by unfold State.setYard; split <;> rfl
@[simp] theorem State.setYard_plim (s : State) (p : Nat) (y : Yard) : (s.setYard p y).plim = s.plim := by unfold State.setYard; split <;> rfl
@[simp] theorem State.setYard_links (s : State) (p : Nat) (y : Yard) : (s.setYard p y).links = s.links := by unfold State.setYard; split <;> rfl
@[simp] theorem State.setYard_peerReqs (s : State) (p : Nat) (y : Yard) : (s.setYard p y).peerReqs = s.peerReqs := by unfold State.setYard; split <;> rfl
@[simp] theorem State.setYard_peerWindows (s : State) (p : Nat) (y : Yard) : (s.setYard p y).peerWindows = s.peerWindows := by unfold State.setYard; split <;> rfl
@[simp] theorem State.setYard_straps (s : State) (p : Nat) (y : Yard) : (s.setYard p y).straps = s.straps := by unfold State.setYard; split <;> rfl
@[simp] theorem State.setYard_pcie (s : State) (p : Nat) (y : Yard) : (s.setYard p y).pcie = s.pcie := by unfold State.setYard; split <;> rfl
@[simp] theorem State.setYard_cxl (s : State) (p : Nat) (y : Yard) : (s.setYard p y).cxl = s.cxl := by unfold State.setYard; split <;> rfl
@[simp] theorem State.setYard_elog (s : State) (p : Nat) (y : Yard) : (s.setYard p y).elog = s.elog := by unfold State.setYard; split <;> rfl
@[simp] theorem State.setYard_ioTiles (s : State) (p : Nat) (y : Yard) : (s.setYard p y).ioTiles = s.ioTiles := by unfold State.setYard; split <;> rfl
@[simp] theorem State.setYard_plovelm (s : State) (p : Nat) (y : Yard) : (s.setYard p y).plovelm = s.plovelm := by unfold State.setYard; split <;> rfl
@[simp] theorem State.setYard_fwRecord (s : State) (p : Nat) (y : Yard) : (s.setYard p y).fwRecord = s.fwRecord := by unfold State.setYard; split <;> rfl
@[simp] theorem State.setYard_tileFaults (s : State) (p : Nat) (y : Yard) : (s.setYard p y).tileFaults = s.tileFaults := by unfold State.setYard; split <;> rfl
@[simp] theorem State.setYard_mailbox (s : State) (p : Nat) (y : Yard) : (s.setYard p y).mailbox = s.mailbox := by unfold State.setYard; split <;> rfl
@[simp] theorem State.setYard_msis (s : State) (p : Nat) (y : Yard) : (s.setYard p y).msis = s.msis := by unfold State.setYard; split <;> rfl
@[simp] theorem State.setYard_replies (s : State) (p : Nat) (y : Yard) : (s.setYard p y).replies = s.replies := by unfold State.setYard; split <;> rfl
@[simp] theorem State.setYard_softErrors (s : State) (p : Nat) (y : Yard) : (s.setYard p y).softErrors = s.softErrors := by unfold State.setYard; split <;> rfl
@[simp] theorem State.setYard_ioWait (s : State) (p : Nat) (y : Yard) : (s.setYard p y).ioWait = s.ioWait := by unfold State.setYard; split <;> rfl
@[simp] theorem State.setYard_reservations (s : State) (p : Nat) (y : Yard) : (s.setYard p y).reservations = s.reservations := by unfold State.setYard; split <;> rfl
@[simp] theorem State.setYard_lost (s : State) (p : Nat) (y : Yard) : (s.setYard p y).lost = s.lost := by unfold State.setYard; split <;> rfl
@[simp] theorem State.setYard_lostReport (s : State) (p : Nat) (y : Yard) : (s.setYard p y).lostReport = s.lostReport := by unfold State.setYard; split <;> rfl
@[simp] theorem State.setYard_reports (s : State) (p : Nat) (y : Yard) : (s.setYard p y).reports = s.reports := by unfold State.setYard; split <;> rfl
@[simp] theorem State.setYard_snaps (s : State) (p : Nat) (y : Yard) : (s.setYard p y).snaps = s.snaps := by unfold State.setYard; split <;> rfl
@[simp] theorem State.setYard_yipUp (s : State) (p : Nat) (y : Yard) : (s.setYard p y).yipUp = s.yipUp := by unfold State.setYard; split <;> rfl

@[simp] theorem State.yard_setYard_same (s : State) {p : Nat} (h : p = 512 ∨ p = 513) (y : Yard) :
    (s.setYard p y).yard p = y := by
  obtain rfl | rfl := h <;> rfl

@[simp] theorem State.lq_setLq_same (s : State) (q : Nat) (x : LaunchQueue) : (s.setLq q x).lq q = x := Sparse.get_put_same ..

@[simp] theorem State.lq_setLq_ne (s : State) {q r : Nat} (h : r ≠ q) (x : LaunchQueue) : (s.setLq q x).lq r = s.lq r :=
  Sparse.get_put_ne _ _ h _

@[simp] theorem State.shunter_setShunter_same (s : State) (n : Nat) (x : Shunter) : (s.setShunter n x).shunter n = x :=
  Sparse.get_put_same ..

/-! ### Memory -/

@[simp] theorem State.writeBytes_now (s : State) (pa : Nat) (bs : List Byte) : (s.writeBytes pa bs).now = s.now := by unfold State.writeBytes; simp only; split <;> rfl
@[simp] theorem State.writeBytes_turn (s : State) (pa : Nat) (bs : List Byte) : (s.writeBytes pa bs).turn = s.turn := by unfold State.writeBytes; simp only; split <;> rfl
@[simp] theorem State.writeBytes_core (s : State) (pa : Nat) (bs : List Byte) : (s.writeBytes pa bs).core = s.core := by unfold State.writeBytes; simp only; split <;> rfl
@[simp] theorem State.writeBytes_stream (s : State) (pa : Nat) (bs : List Byte) : (s.writeBytes pa bs).stream = s.stream := by unfold State.writeBytes; simp only; split <;> rfl
@[simp] theorem State.writeBytes_lane (s : State) (pa : Nat) (bs : List Byte) : (s.writeBytes pa bs).lane = s.lane := by unfold State.writeBytes; simp only; split <;> rfl
@[simp] theorem State.writeBytes_laneNo (s : State) (pa : Nat) (bs : List Byte) : (s.writeBytes pa bs).laneNo = s.laneNo := by unfold State.writeBytes; simp only; split <;> rfl
@[simp] theorem State.writeBytes_choices (s : State) (pa : Nat) (bs : List Byte) : (s.writeBytes pa bs).choices = s.choices := by unfold State.writeBytes; simp only; split <;> rfl
@[simp] theorem State.writeBytes_inputs (s : State) (pa : Nat) (bs : List Byte) : (s.writeBytes pa bs).inputs = s.inputs := by unfold State.writeBytes; simp only; split <;> rfl
@[simp] theorem State.writeBytes_acts (s : State) (pa : Nat) (bs : List Byte) : (s.writeBytes pa bs).acts = s.acts := by unfold State.writeBytes; simp only; split <;> rfl
@[simp] theorem State.writeBytes_deltas (s : State) (pa : Nat) (bs : List Byte) : (s.writeBytes pa bs).deltas = s.deltas := by unfold State.writeBytes; simp only; split <;> rfl
@[simp] theorem State.writeBytes_uoOld (s : State) (pa : Nat) (bs : List Byte) : (s.writeBytes pa bs).uoOld = s.uoOld := by unfold State.writeBytes; simp only; split <;> rfl
@[simp] theorem State.writeBytes_tableErrors (s : State) (pa : Nat) (bs : List Byte) : (s.writeBytes pa bs).tableErrors = s.tableErrors := by unfold State.writeBytes; simp only; split <;> rfl
@[simp] theorem State.writeBytes_writes (s : State) (pa : Nat) (bs : List Byte) : (s.writeBytes pa bs).writes = s.writes := by unfold State.writeBytes; simp only; split <;> rfl
@[simp] theorem State.writeBytes_served (s : State) (pa : Nat) (bs : List Byte) : (s.writeBytes pa bs).served = s.served := by unfold State.writeBytes; simp only; split <;> rfl
@[simp] theorem State.writeBytes_cores (s : State) (pa : Nat) (bs : List Byte) : (s.writeBytes pa bs).cores = s.cores := by unfold State.writeBytes; simp only; split <;> rfl
@[simp] theorem State.writeBytes_yard0 (s : State) (pa : Nat) (bs : List Byte) : (s.writeBytes pa bs).yard0 = s.yard0 := by unfold State.writeBytes; simp only; split <;> rfl
@[simp] theorem State.writeBytes_yard1 (s : State) (pa : Nat) (bs : List Byte) : (s.writeBytes pa bs).yard1 = s.yard1 := by unfold State.writeBytes; simp only; split <;> rfl
@[simp] theorem State.writeBytes_primary1 (s : State) (pa : Nat) (bs : List Byte) : (s.writeBytes pa bs).primary1 = s.primary1 := by unfold State.writeBytes; simp only; split <;> rfl
@[simp] theorem State.writeBytes_ctxs (s : State) (pa : Nat) (bs : List Byte) : (s.writeBytes pa bs).ctxs = s.ctxs := by unfold State.writeBytes; simp only; split <;> rfl
@[simp] theorem State.writeBytes_kernels (s : State) (pa : Nat) (bs : List Byte) : (s.writeBytes pa bs).kernels = s.kernels := by unfold State.writeBytes; simp only; split <;> rfl
@[simp] theorem State.writeBytes_lqs (s : State) (pa : Nat) (bs : List Byte) : (s.writeBytes pa bs).lqs = s.lqs := by unfold State.writeBytes; simp only; split <;> rfl
@[simp] theorem State.writeBytes_lastServed (s : State) (pa : Nat) (bs : List Byte) : (s.writeBytes pa bs).lastServed = s.lastServed := by unfold State.writeBytes; simp only; split <;> rfl
@[simp] theorem State.writeBytes_launches (s : State) (pa : Nat) (bs : List Byte) : (s.writeBytes pa bs).launches = s.launches := by unfold State.writeBytes; simp only; split <;> rfl
@[simp] theorem State.writeBytes_nextLaunch (s : State) (pa : Nat) (bs : List Byte) : (s.writeBytes pa bs).nextLaunch = s.nextLaunch := by unfold State.writeBytes; simp only; split <;> rfl
@[simp] theorem State.writeBytes_rounds (s : State) (pa : Nat) (bs : List Byte) : (s.writeBytes pa bs).rounds = s.rounds := by unfold State.writeBytes; simp only; split <;> rfl
@[simp] theorem State.writeBytes_roundsDone (s : State) (pa : Nat) (bs : List Byte) : (s.writeBytes pa bs).roundsDone = s.roundsDone := by unfold State.writeBytes; simp only; split <;> rfl
@[simp] theorem State.writeBytes_windows (s : State) (pa : Nat) (bs : List Byte) : (s.writeBytes pa bs).windows = s.windows := by unfold State.writeBytes; simp only; split <;> rfl
@[simp] theorem State.writeBytes_shunters (s : State) (pa : Nat) (bs : List Byte) : (s.writeBytes pa bs).shunters = s.shunters := by unfold State.writeBytes; simp only; split <;> rfl
@[simp] theorem State.writeBytes_engines (s : State) (pa : Nat) (bs : List Byte) : (s.writeBytes pa bs).engines = s.engines := by unfold State.writeBytes; simp only; split <;> rfl
@[simp] theorem State.writeBytes_nextCmd (s : State) (pa : Nat) (bs : List Byte) : (s.writeBytes pa bs).nextCmd = s.nextCmd := by unfold State.writeBytes; simp only; split <;> rfl
@[simp] theorem State.writeBytes_trapFifo (s : State) (pa : Nat) (bs : List Byte) : (s.writeBytes pa bs).trapFifo = s.trapFifo := by unfold State.writeBytes; simp only; split <;> rfl
@[simp] theorem State.writeBytes_trapWait (s : State) (pa : Nat) (bs : List Byte) : (s.writeBytes pa bs).trapWait = s.trapWait := by unfold State.writeBytes; simp only; split <;> rfl
@[simp] theorem State.writeBytes_held (s : State) (pa : Nat) (bs : List Byte) : (s.writeBytes pa bs).held = s.held := by unfold State.writeBytes; simp only; split <;> rfl
@[simp] theorem State.writeBytes_lateAmos (s : State) (pa : Nat) (bs : List Byte) : (s.writeBytes pa bs).lateAmos = s.lateAmos := by unfold State.writeBytes; simp only; split <;> rfl
@[simp] theorem State.writeBytes_shedTlbs (s : State) (pa : Nat) (bs : List Byte) : (s.writeBytes pa bs).shedTlbs = s.shedTlbs := by unfold State.writeBytes; simp only; split <;> rfl
@[simp] theorem State.writeBytes_tlbInvs (s : State) (pa : Nat) (bs : List Byte) : (s.writeBytes pa bs).tlbInvs = s.tlbInvs := by unfold State.writeBytes; simp only; split <;> rfl
@[simp] theorem State.writeBytes_migration (s : State) (pa : Nat) (bs : List Byte) : (s.writeBytes pa bs).migration = s.migration := by unfold State.writeBytes; simp only; split <;> rfl
@[simp] theorem State.writeBytes_pnow (s : State) (pa : Nat) (bs : List Byte) : (s.writeBytes pa bs).pnow = s.pnow := by unfold State.writeBytes; simp only; split <;> rfl
@[simp] theorem State.writeBytes_mv (s : State) (pa : Nat) (bs : List Byte) : (s.writeBytes pa bs).mv = s.mv := by unfold State.writeBytes; simp only; split <;> rfl
@[simp] theorem State.writeBytes_plim (s : State) (pa : Nat) (bs : List Byte) : (s.writeBytes pa bs).plim = s.plim := by unfold State.writeBytes; simp only; split <;> rfl
@[simp] theorem State.writeBytes_links (s : State) (pa : Nat) (bs : List Byte) : (s.writeBytes pa bs).links = s.links := by unfold State.writeBytes; simp only; split <;> rfl
@[simp] theorem State.writeBytes_peerReqs (s : State) (pa : Nat) (bs : List Byte) : (s.writeBytes pa bs).peerReqs = s.peerReqs := by unfold State.writeBytes; simp only; split <;> rfl
@[simp] theorem State.writeBytes_peerWindows (s : State) (pa : Nat) (bs : List Byte) : (s.writeBytes pa bs).peerWindows = s.peerWindows := by unfold State.writeBytes; simp only; split <;> rfl
@[simp] theorem State.writeBytes_straps (s : State) (pa : Nat) (bs : List Byte) : (s.writeBytes pa bs).straps = s.straps := by unfold State.writeBytes; simp only; split <;> rfl
@[simp] theorem State.writeBytes_pcie (s : State) (pa : Nat) (bs : List Byte) : (s.writeBytes pa bs).pcie = s.pcie := by unfold State.writeBytes; simp only; split <;> rfl
@[simp] theorem State.writeBytes_cxl (s : State) (pa : Nat) (bs : List Byte) : (s.writeBytes pa bs).cxl = s.cxl := by unfold State.writeBytes; simp only; split <;> rfl
@[simp] theorem State.writeBytes_elog (s : State) (pa : Nat) (bs : List Byte) : (s.writeBytes pa bs).elog = s.elog := by unfold State.writeBytes; simp only; split <;> rfl
@[simp] theorem State.writeBytes_ioTiles (s : State) (pa : Nat) (bs : List Byte) : (s.writeBytes pa bs).ioTiles = s.ioTiles := by unfold State.writeBytes; simp only; split <;> rfl
@[simp] theorem State.writeBytes_plovelm (s : State) (pa : Nat) (bs : List Byte) : (s.writeBytes pa bs).plovelm = s.plovelm := by unfold State.writeBytes; simp only; split <;> rfl
@[simp] theorem State.writeBytes_fwRecord (s : State) (pa : Nat) (bs : List Byte) : (s.writeBytes pa bs).fwRecord = s.fwRecord := by unfold State.writeBytes; simp only; split <;> rfl
@[simp] theorem State.writeBytes_tileFaults (s : State) (pa : Nat) (bs : List Byte) : (s.writeBytes pa bs).tileFaults = s.tileFaults := by unfold State.writeBytes; simp only; split <;> rfl
@[simp] theorem State.writeBytes_mailbox (s : State) (pa : Nat) (bs : List Byte) : (s.writeBytes pa bs).mailbox = s.mailbox := by unfold State.writeBytes; simp only; split <;> rfl
@[simp] theorem State.writeBytes_msis (s : State) (pa : Nat) (bs : List Byte) : (s.writeBytes pa bs).msis = s.msis := by unfold State.writeBytes; simp only; split <;> rfl
@[simp] theorem State.writeBytes_replies (s : State) (pa : Nat) (bs : List Byte) : (s.writeBytes pa bs).replies = s.replies := by unfold State.writeBytes; simp only; split <;> rfl
@[simp] theorem State.writeBytes_softErrors (s : State) (pa : Nat) (bs : List Byte) : (s.writeBytes pa bs).softErrors = s.softErrors := by unfold State.writeBytes; simp only; split <;> rfl
@[simp] theorem State.writeBytes_ioWait (s : State) (pa : Nat) (bs : List Byte) : (s.writeBytes pa bs).ioWait = s.ioWait := by unfold State.writeBytes; simp only; split <;> rfl
@[simp] theorem State.writeBytes_lost (s : State) (pa : Nat) (bs : List Byte) : (s.writeBytes pa bs).lost = s.lost := by unfold State.writeBytes; simp only; split <;> rfl
@[simp] theorem State.writeBytes_lostReport (s : State) (pa : Nat) (bs : List Byte) : (s.writeBytes pa bs).lostReport = s.lostReport := by unfold State.writeBytes; simp only; split <;> rfl
@[simp] theorem State.writeBytes_reports (s : State) (pa : Nat) (bs : List Byte) : (s.writeBytes pa bs).reports = s.reports := by unfold State.writeBytes; simp only; split <;> rfl
@[simp] theorem State.writeBytes_snaps (s : State) (pa : Nat) (bs : List Byte) : (s.writeBytes pa bs).snaps = s.snaps := by unfold State.writeBytes; simp only; split <;> rfl
@[simp] theorem State.writeBytes_yipUp (s : State) (pa : Nat) (bs : List Byte) : (s.writeBytes pa bs).yipUp = s.yipUp := by unfold State.writeBytes; simp only; split <;> rfl

/-- A write of bytes keeps memory canonical. -/
theorem State.wf_writeBytes (s : State) (pa : Nat) (bs : List Byte) (h : Mem.wf s.mem = true) :
    Mem.wf (s.writeBytes pa bs).mem = true := by
  unfold State.writeBytes
  generalize List.replicate 256 (0 : Byte) = z
  cases s.scrubbed pa
  · exact Mem.wf_write _ _ _ h
  · exact Mem.wf_write _ _ _ (Mem.wf_write _ _ z h)

/-! ### A core's streams and queues -/

@[simp] theorem Core.setSt_regs (c : Core) (st : Stream) (x : StreamState) : (c.setSt st x).regs = c.regs := by cases st <;> rfl
@[simp] theorem Core.setSt_forked (c : Core) (st : Stream) (x : StreamState) : (c.setSt st x).forked = c.forked := by cases st <;> rfl
@[simp] theorem Core.setSt_forkMask (c : Core) (st : Stream) (x : StreamState) : (c.setSt st x).forkMask = c.forkMask := by cases st <;> rfl
@[simp] theorem Core.setSt_heldLine (c : Core) (st : Stream) (x : StreamState) : (c.setSt st x).heldLine = c.heldLine := by cases st <;> rfl
@[simp] theorem Core.setSt_heldClk (c : Core) (st : Stream) (x : StreamState) : (c.setSt st x).heldClk = c.heldClk := by cases st <;> rfl
@[simp] theorem Core.setSt_pend (c : Core) (st : Stream) (x : StreamState) : (c.setSt st x).pend = c.pend := by cases st <;> rfl
@[simp] theorem Core.setSt_loads (c : Core) (st : Stream) (x : StreamState) : (c.setSt st x).loads = c.loads := by cases st <;> rfl
@[simp] theorem Core.setSt_stores (c : Core) (st : Stream) (x : StreamState) : (c.setSt st x).stores = c.stores := by cases st <;> rfl
@[simp] theorem Core.setSt_amos (c : Core) (st : Stream) (x : StreamState) : (c.setSt st x).amos = c.amos := by cases st <;> rfl
@[simp] theorem Core.setSt_fences (c : Core) (st : Stream) (x : StreamState) : (c.setSt st x).fences = c.fences := by cases st <;> rfl
@[simp] theorem Core.setSt_uoFence (c : Core) (st : Stream) (x : StreamState) : (c.setSt st x).uoFence = c.uoFence := by cases st <;> rfl
@[simp] theorem Core.setSt_fenceI (c : Core) (st : Stream) (x : StreamState) : (c.setSt st x).fenceI = c.fenceI := by cases st <;> rfl
@[simp] theorem Core.setSt_roundCounts (c : Core) (st : Stream) (x : StreamState) : (c.setSt st x).roundCounts = c.roundCounts := by cases st <;> rfl
@[simp] theorem Core.setSt_gbPolls (c : Core) (st : Stream) (x : StreamState) : (c.setSt st x).gbPolls = c.gbPolls := by cases st <;> rfl
@[simp] theorem Core.setSt_gbArrives (c : Core) (st : Stream) (x : StreamState) : (c.setSt st x).gbArrives = c.gbArrives := by cases st <;> rfl
@[simp] theorem Core.setSt_queues (c : Core) (st : Stream) (x : StreamState) : (c.setSt st x).queues = c.queues := by cases st <;> rfl
@[simp] theorem Core.setSt_tokens (c : Core) (st : Stream) (x : StreamState) : (c.setSt st x).tokens = c.tokens := by cases st <;> rfl
@[simp] theorem Core.setSt_flags (c : Core) (st : Stream) (x : StreamState) : (c.setSt st x).flags = c.flags := by cases st <;> rfl
@[simp] theorem Core.setSt_counters (c : Core) (st : Stream) (x : StreamState) : (c.setSt st x).counters = c.counters := by cases st <;> rfl
@[simp] theorem Core.setSt_bars (c : Core) (st : Stream) (x : StreamState) : (c.setSt st x).bars = c.bars := by cases st <;> rfl
@[simp] theorem Core.setSt_rdvs (c : Core) (st : Stream) (x : StreamState) : (c.setSt st x).rdvs = c.rdvs := by cases st <;> rfl
@[simp] theorem Core.setSt_retired (c : Core) (st : Stream) (x : StreamState) : (c.setSt st x).retired = c.retired := by cases st <;> rfl
@[simp] theorem Core.setSt_markers (c : Core) (st : Stream) (x : StreamState) : (c.setSt st x).markers = c.markers := by cases st <;> rfl
@[simp] theorem Core.setSt_deferred (c : Core) (st : Stream) (x : StreamState) : (c.setSt st x).deferred = c.deferred := by cases st <;> rfl
@[simp] theorem Core.setSt_aloads (c : Core) (st : Stream) (x : StreamState) : (c.setSt st x).aloads = c.aloads := by cases st <;> rfl
@[simp] theorem Core.setSt_aq (c : Core) (st : Stream) (x : StreamState) : (c.setSt st x).aq = c.aq := by cases st <;> rfl
@[simp] theorem Core.setSt_dq (c : Core) (st : Stream) (x : StreamState) : (c.setSt st x).dq = c.dq := by cases st <;> rfl
@[simp] theorem Core.setSt_matrix (c : Core) (st : Stream) (x : StreamState) : (c.setSt st x).matrix = c.matrix := by cases st <;> rfl
@[simp] theorem Core.setSt_drain (c : Core) (st : Stream) (x : StreamState) : (c.setSt st x).drain = c.drain := by cases st <;> rfl
@[simp] theorem Core.setSt_digests (c : Core) (st : Stream) (x : StreamState) : (c.setSt st x).digests = c.digests := by cases st <;> rfl
@[simp] theorem Core.setSt_lookups (c : Core) (st : Stream) (x : StreamState) : (c.setSt st x).lookups = c.lookups := by cases st <;> rfl
@[simp] theorem Core.setSt_conts (c : Core) (st : Stream) (x : StreamState) : (c.setSt st x).conts = c.conts := by cases st <;> rfl
@[simp] theorem Core.setSt_wrote (c : Core) (st : Stream) (x : StreamState) : (c.setSt st x).wrote = c.wrote := by cases st <;> rfl
@[simp] theorem Core.setSt_mapCtx (c : Core) (st : Stream) (x : StreamState) : (c.setSt st x).mapCtx = c.mapCtx := by cases st <;> rfl
@[simp] theorem Core.setSt_kept (c : Core) (st : Stream) (x : StreamState) : (c.setSt st x).kept = c.kept := by cases st <;> rfl
@[simp] theorem Core.setSt_ctxWord (c : Core) (st : Stream) (x : StreamState) : (c.setSt st x).ctxWord = c.ctxWord := by cases st <;> rfl
@[simp] theorem Core.setSt_task (c : Core) (st : Stream) (x : StreamState) : (c.setSt st x).task = c.task := by cases st <;> rfl
@[simp] theorem Core.setSt_freezeHeld (c : Core) (st : Stream) (x : StreamState) : (c.setSt st x).freezeHeld = c.freezeHeld := by cases st <;> rfl
@[simp] theorem Core.setSt_freezeAsk (c : Core) (st : Stream) (x : StreamState) : (c.setSt st x).freezeAsk = c.freezeAsk := by cases st <;> rfl
@[simp] theorem Core.setSt_thawed (c : Core) (st : Stream) (x : StreamState) : (c.setSt st x).thawed = c.thawed := by cases st <;> rfl
@[simp] theorem Core.setSt_stops (c : Core) (st : Stream) (x : StreamState) : (c.setSt st x).stops = c.stops := by cases st <;> rfl
@[simp] theorem Core.setSt_freezeDog (c : Core) (st : Stream) (x : StreamState) : (c.setSt st x).freezeDog = c.freezeDog := by cases st <;> rfl
@[simp] theorem Core.setSt_port3 (c : Core) (st : Stream) (x : StreamState) : (c.setSt st x).port3 = c.port3 := by cases st <;> rfl
@[simp] theorem Core.setSt_port3Q (c : Core) (st : Stream) (x : StreamState) : (c.setSt st x).port3Q = c.port3Q := by cases st <;> rfl
@[simp] theorem Core.setSt_port3Busy (c : Core) (st : Stream) (x : StreamState) : (c.setSt st x).port3Busy = c.port3Busy := by cases st <;> rfl
@[simp] theorem Core.setSt_aReqs (c : Core) (st : Stream) (x : StreamState) : (c.setSt st x).aReqs = c.aReqs := by cases st <;> rfl
@[simp] theorem Core.setSt_ports (c : Core) (st : Stream) (x : StreamState) : (c.setSt st x).ports = c.ports := by cases st <;> rfl
@[simp] theorem Core.setSt_portHold (c : Core) (st : Stream) (x : StreamState) : (c.setSt st x).portHold = c.portHold := by cases st <;> rfl
@[simp] theorem Core.setSt_vnext (c : Core) (st : Stream) (x : StreamState) : (c.setSt st x).vnext = c.vnext := by cases st <;> rfl
@[simp] theorem Core.setSt_vhold (c : Core) (st : Stream) (x : StreamState) : (c.setSt st x).vhold = c.vhold := by cases st <;> rfl
@[simp] theorem Core.setSt_clk (c : Core) (st : Stream) (x : StreamState) : (c.setSt st x).clk = c.clk := by cases st <;> rfl
@[simp] theorem Core.setSt_hold (c : Core) (st : Stream) (x : StreamState) : (c.setSt st x).hold = c.hold := by cases st <;> rfl
@[simp] theorem Core.setSt_rclk (c : Core) (st : Stream) (x : StreamState) : (c.setSt st x).rclk = c.rclk := by cases st <;> rfl
@[simp] theorem Core.setSt_seq (c : Core) (st : Stream) (x : StreamState) : (c.setSt st x).seq = c.seq := by cases st <;> rfl
@[simp] theorem Core.setSt_first (c : Core) (st : Stream) (x : StreamState) : (c.setSt st x).first = c.first := by cases st <;> rfl
@[simp] theorem Core.setSt_restored (c : Core) (st : Stream) (x : StreamState) : (c.setSt st x).restored = c.restored := by cases st <;> rfl
@[simp] theorem Core.setSt_stalled (c : Core) (st : Stream) (x : StreamState) : (c.setSt st x).stalled = c.stalled := by cases st <;> rfl
@[simp] theorem Core.setSt_issued (c : Core) (st : Stream) (x : StreamState) : (c.setSt st x).issued = c.issued := by cases st <;> rfl
@[simp] theorem Core.setSt_snapWords (c : Core) (st : Stream) (x : StreamState) : (c.setSt st x).snapWords = c.snapWords := by cases st <;> rfl

@[simp] theorem Core.st_setSt_same (c : Core) (st : Stream) (x : StreamState) : (c.setSt st x).st st = x := by cases st <;> rfl

@[simp] theorem Core.st_setSt_ne (c : Core) {st u : Stream} (h : u ≠ st) (x : StreamState) : (c.setSt st x).st u = c.st u := by
  cases st <;> cases u <;> first | rfl | exact absurd rfl h

@[simp] theorem Core.setQ_regs (c : Core) (q : Nat) (x : CoreQueue) : (c.setQ q x).regs = c.regs := rfl
@[simp] theorem Core.setQ_c (c : Core) (q : Nat) (x : CoreQueue) : (c.setQ q x).c = c.c := rfl
@[simp] theorem Core.setQ_a (c : Core) (q : Nat) (x : CoreQueue) : (c.setQ q x).a = c.a := rfl
@[simp] theorem Core.setQ_k (c : Core) (q : Nat) (x : CoreQueue) : (c.setQ q x).k = c.k := rfl
@[simp] theorem Core.setQ_d (c : Core) (q : Nat) (x : CoreQueue) : (c.setQ q x).d = c.d := rfl
@[simp] theorem Core.setQ_forked (c : Core) (q : Nat) (x : CoreQueue) : (c.setQ q x).forked = c.forked := rfl
@[simp] theorem Core.setQ_forkMask (c : Core) (q : Nat) (x : CoreQueue) : (c.setQ q x).forkMask = c.forkMask := rfl
@[simp] theorem Core.setQ_heldLine (c : Core) (q : Nat) (x : CoreQueue) : (c.setQ q x).heldLine = c.heldLine := rfl
@[simp] theorem Core.setQ_heldClk (c : Core) (q : Nat) (x : CoreQueue) : (c.setQ q x).heldClk = c.heldClk := rfl
@[simp] theorem Core.setQ_pend (c : Core) (q : Nat) (x : CoreQueue) : (c.setQ q x).pend = c.pend := rfl
@[simp] theorem Core.setQ_loads (c : Core) (q : Nat) (x : CoreQueue) : (c.setQ q x).loads = c.loads := rfl
@[simp] theorem Core.setQ_stores (c : Core) (q : Nat) (x : CoreQueue) : (c.setQ q x).stores = c.stores := rfl
@[simp] theorem Core.setQ_amos (c : Core) (q : Nat) (x : CoreQueue) : (c.setQ q x).amos = c.amos := rfl
@[simp] theorem Core.setQ_fences (c : Core) (q : Nat) (x : CoreQueue) : (c.setQ q x).fences = c.fences := rfl
@[simp] theorem Core.setQ_uoFence (c : Core) (q : Nat) (x : CoreQueue) : (c.setQ q x).uoFence = c.uoFence := rfl
@[simp] theorem Core.setQ_fenceI (c : Core) (q : Nat) (x : CoreQueue) : (c.setQ q x).fenceI = c.fenceI := rfl
@[simp] theorem Core.setQ_roundCounts (c : Core) (q : Nat) (x : CoreQueue) : (c.setQ q x).roundCounts = c.roundCounts := rfl
@[simp] theorem Core.setQ_gbPolls (c : Core) (q : Nat) (x : CoreQueue) : (c.setQ q x).gbPolls = c.gbPolls := rfl
@[simp] theorem Core.setQ_gbArrives (c : Core) (q : Nat) (x : CoreQueue) : (c.setQ q x).gbArrives = c.gbArrives := rfl
@[simp] theorem Core.setQ_tokens (c : Core) (q : Nat) (x : CoreQueue) : (c.setQ q x).tokens = c.tokens := rfl
@[simp] theorem Core.setQ_flags (c : Core) (q : Nat) (x : CoreQueue) : (c.setQ q x).flags = c.flags := rfl
@[simp] theorem Core.setQ_counters (c : Core) (q : Nat) (x : CoreQueue) : (c.setQ q x).counters = c.counters := rfl
@[simp] theorem Core.setQ_bars (c : Core) (q : Nat) (x : CoreQueue) : (c.setQ q x).bars = c.bars := rfl
@[simp] theorem Core.setQ_rdvs (c : Core) (q : Nat) (x : CoreQueue) : (c.setQ q x).rdvs = c.rdvs := rfl
@[simp] theorem Core.setQ_retired (c : Core) (q : Nat) (x : CoreQueue) : (c.setQ q x).retired = c.retired := rfl
@[simp] theorem Core.setQ_markers (c : Core) (q : Nat) (x : CoreQueue) : (c.setQ q x).markers = c.markers := rfl
@[simp] theorem Core.setQ_deferred (c : Core) (q : Nat) (x : CoreQueue) : (c.setQ q x).deferred = c.deferred := rfl
@[simp] theorem Core.setQ_aloads (c : Core) (q : Nat) (x : CoreQueue) : (c.setQ q x).aloads = c.aloads := rfl
@[simp] theorem Core.setQ_aq (c : Core) (q : Nat) (x : CoreQueue) : (c.setQ q x).aq = c.aq := rfl
@[simp] theorem Core.setQ_dq (c : Core) (q : Nat) (x : CoreQueue) : (c.setQ q x).dq = c.dq := rfl
@[simp] theorem Core.setQ_matrix (c : Core) (q : Nat) (x : CoreQueue) : (c.setQ q x).matrix = c.matrix := rfl
@[simp] theorem Core.setQ_drain (c : Core) (q : Nat) (x : CoreQueue) : (c.setQ q x).drain = c.drain := rfl
@[simp] theorem Core.setQ_digests (c : Core) (q : Nat) (x : CoreQueue) : (c.setQ q x).digests = c.digests := rfl
@[simp] theorem Core.setQ_lookups (c : Core) (q : Nat) (x : CoreQueue) : (c.setQ q x).lookups = c.lookups := rfl
@[simp] theorem Core.setQ_conts (c : Core) (q : Nat) (x : CoreQueue) : (c.setQ q x).conts = c.conts := rfl
@[simp] theorem Core.setQ_wrote (c : Core) (q : Nat) (x : CoreQueue) : (c.setQ q x).wrote = c.wrote := rfl
@[simp] theorem Core.setQ_mapCtx (c : Core) (q : Nat) (x : CoreQueue) : (c.setQ q x).mapCtx = c.mapCtx := rfl
@[simp] theorem Core.setQ_kept (c : Core) (q : Nat) (x : CoreQueue) : (c.setQ q x).kept = c.kept := rfl
@[simp] theorem Core.setQ_ctxWord (c : Core) (q : Nat) (x : CoreQueue) : (c.setQ q x).ctxWord = c.ctxWord := rfl
@[simp] theorem Core.setQ_task (c : Core) (q : Nat) (x : CoreQueue) : (c.setQ q x).task = c.task := rfl
@[simp] theorem Core.setQ_freezeHeld (c : Core) (q : Nat) (x : CoreQueue) : (c.setQ q x).freezeHeld = c.freezeHeld := rfl
@[simp] theorem Core.setQ_freezeAsk (c : Core) (q : Nat) (x : CoreQueue) : (c.setQ q x).freezeAsk = c.freezeAsk := rfl
@[simp] theorem Core.setQ_thawed (c : Core) (q : Nat) (x : CoreQueue) : (c.setQ q x).thawed = c.thawed := rfl
@[simp] theorem Core.setQ_stops (c : Core) (q : Nat) (x : CoreQueue) : (c.setQ q x).stops = c.stops := rfl
@[simp] theorem Core.setQ_freezeDog (c : Core) (q : Nat) (x : CoreQueue) : (c.setQ q x).freezeDog = c.freezeDog := rfl
@[simp] theorem Core.setQ_port3 (c : Core) (q : Nat) (x : CoreQueue) : (c.setQ q x).port3 = c.port3 := rfl
@[simp] theorem Core.setQ_port3Q (c : Core) (q : Nat) (x : CoreQueue) : (c.setQ q x).port3Q = c.port3Q := rfl
@[simp] theorem Core.setQ_port3Busy (c : Core) (q : Nat) (x : CoreQueue) : (c.setQ q x).port3Busy = c.port3Busy := rfl
@[simp] theorem Core.setQ_aReqs (c : Core) (q : Nat) (x : CoreQueue) : (c.setQ q x).aReqs = c.aReqs := rfl
@[simp] theorem Core.setQ_ports (c : Core) (q : Nat) (x : CoreQueue) : (c.setQ q x).ports = c.ports := rfl
@[simp] theorem Core.setQ_portHold (c : Core) (q : Nat) (x : CoreQueue) : (c.setQ q x).portHold = c.portHold := rfl
@[simp] theorem Core.setQ_vnext (c : Core) (q : Nat) (x : CoreQueue) : (c.setQ q x).vnext = c.vnext := rfl
@[simp] theorem Core.setQ_vhold (c : Core) (q : Nat) (x : CoreQueue) : (c.setQ q x).vhold = c.vhold := rfl
@[simp] theorem Core.setQ_clk (c : Core) (q : Nat) (x : CoreQueue) : (c.setQ q x).clk = c.clk := rfl
@[simp] theorem Core.setQ_hold (c : Core) (q : Nat) (x : CoreQueue) : (c.setQ q x).hold = c.hold := rfl
@[simp] theorem Core.setQ_rclk (c : Core) (q : Nat) (x : CoreQueue) : (c.setQ q x).rclk = c.rclk := rfl
@[simp] theorem Core.setQ_seq (c : Core) (q : Nat) (x : CoreQueue) : (c.setQ q x).seq = c.seq := rfl
@[simp] theorem Core.setQ_first (c : Core) (q : Nat) (x : CoreQueue) : (c.setQ q x).first = c.first := rfl
@[simp] theorem Core.setQ_restored (c : Core) (q : Nat) (x : CoreQueue) : (c.setQ q x).restored = c.restored := rfl
@[simp] theorem Core.setQ_stalled (c : Core) (q : Nat) (x : CoreQueue) : (c.setQ q x).stalled = c.stalled := rfl
@[simp] theorem Core.setQ_issued (c : Core) (q : Nat) (x : CoreQueue) : (c.setQ q x).issued = c.issued := rfl
@[simp] theorem Core.setQ_snapWords (c : Core) (q : Nat) (x : CoreQueue) : (c.setQ q x).snapWords = c.snapWords := rfl

@[simp] theorem Core.putS_c (c : Core) (n : BitVec 5) (v : DWord) : (c.putS n v).c = c.c := by unfold Core.putS; split <;> rfl
@[simp] theorem Core.putS_a (c : Core) (n : BitVec 5) (v : DWord) : (c.putS n v).a = c.a := by unfold Core.putS; split <;> rfl
@[simp] theorem Core.putS_k (c : Core) (n : BitVec 5) (v : DWord) : (c.putS n v).k = c.k := by unfold Core.putS; split <;> rfl
@[simp] theorem Core.putS_d (c : Core) (n : BitVec 5) (v : DWord) : (c.putS n v).d = c.d := by unfold Core.putS; split <;> rfl
@[simp] theorem Core.putS_forked (c : Core) (n : BitVec 5) (v : DWord) : (c.putS n v).forked = c.forked := by unfold Core.putS; split <;> rfl
@[simp] theorem Core.putS_forkMask (c : Core) (n : BitVec 5) (v : DWord) : (c.putS n v).forkMask = c.forkMask := by unfold Core.putS; split <;> rfl
@[simp] theorem Core.putS_heldLine (c : Core) (n : BitVec 5) (v : DWord) : (c.putS n v).heldLine = c.heldLine := by unfold Core.putS; split <;> rfl
@[simp] theorem Core.putS_heldClk (c : Core) (n : BitVec 5) (v : DWord) : (c.putS n v).heldClk = c.heldClk := by unfold Core.putS; split <;> rfl
@[simp] theorem Core.putS_pend (c : Core) (n : BitVec 5) (v : DWord) : (c.putS n v).pend = c.pend := by unfold Core.putS; split <;> rfl
@[simp] theorem Core.putS_loads (c : Core) (n : BitVec 5) (v : DWord) : (c.putS n v).loads = c.loads := by unfold Core.putS; split <;> rfl
@[simp] theorem Core.putS_stores (c : Core) (n : BitVec 5) (v : DWord) : (c.putS n v).stores = c.stores := by unfold Core.putS; split <;> rfl
@[simp] theorem Core.putS_amos (c : Core) (n : BitVec 5) (v : DWord) : (c.putS n v).amos = c.amos := by unfold Core.putS; split <;> rfl
@[simp] theorem Core.putS_fences (c : Core) (n : BitVec 5) (v : DWord) : (c.putS n v).fences = c.fences := by unfold Core.putS; split <;> rfl
@[simp] theorem Core.putS_uoFence (c : Core) (n : BitVec 5) (v : DWord) : (c.putS n v).uoFence = c.uoFence := by unfold Core.putS; split <;> rfl
@[simp] theorem Core.putS_fenceI (c : Core) (n : BitVec 5) (v : DWord) : (c.putS n v).fenceI = c.fenceI := by unfold Core.putS; split <;> rfl
@[simp] theorem Core.putS_roundCounts (c : Core) (n : BitVec 5) (v : DWord) : (c.putS n v).roundCounts = c.roundCounts := by unfold Core.putS; split <;> rfl
@[simp] theorem Core.putS_gbPolls (c : Core) (n : BitVec 5) (v : DWord) : (c.putS n v).gbPolls = c.gbPolls := by unfold Core.putS; split <;> rfl
@[simp] theorem Core.putS_gbArrives (c : Core) (n : BitVec 5) (v : DWord) : (c.putS n v).gbArrives = c.gbArrives := by unfold Core.putS; split <;> rfl
@[simp] theorem Core.putS_queues (c : Core) (n : BitVec 5) (v : DWord) : (c.putS n v).queues = c.queues := by unfold Core.putS; split <;> rfl
@[simp] theorem Core.putS_tokens (c : Core) (n : BitVec 5) (v : DWord) : (c.putS n v).tokens = c.tokens := by unfold Core.putS; split <;> rfl
@[simp] theorem Core.putS_flags (c : Core) (n : BitVec 5) (v : DWord) : (c.putS n v).flags = c.flags := by unfold Core.putS; split <;> rfl
@[simp] theorem Core.putS_counters (c : Core) (n : BitVec 5) (v : DWord) : (c.putS n v).counters = c.counters := by unfold Core.putS; split <;> rfl
@[simp] theorem Core.putS_bars (c : Core) (n : BitVec 5) (v : DWord) : (c.putS n v).bars = c.bars := by unfold Core.putS; split <;> rfl
@[simp] theorem Core.putS_rdvs (c : Core) (n : BitVec 5) (v : DWord) : (c.putS n v).rdvs = c.rdvs := by unfold Core.putS; split <;> rfl
@[simp] theorem Core.putS_retired (c : Core) (n : BitVec 5) (v : DWord) : (c.putS n v).retired = c.retired := by unfold Core.putS; split <;> rfl
@[simp] theorem Core.putS_markers (c : Core) (n : BitVec 5) (v : DWord) : (c.putS n v).markers = c.markers := by unfold Core.putS; split <;> rfl
@[simp] theorem Core.putS_deferred (c : Core) (n : BitVec 5) (v : DWord) : (c.putS n v).deferred = c.deferred := by unfold Core.putS; split <;> rfl
@[simp] theorem Core.putS_aloads (c : Core) (n : BitVec 5) (v : DWord) : (c.putS n v).aloads = c.aloads := by unfold Core.putS; split <;> rfl
@[simp] theorem Core.putS_aq (c : Core) (n : BitVec 5) (v : DWord) : (c.putS n v).aq = c.aq := by unfold Core.putS; split <;> rfl
@[simp] theorem Core.putS_dq (c : Core) (n : BitVec 5) (v : DWord) : (c.putS n v).dq = c.dq := by unfold Core.putS; split <;> rfl
@[simp] theorem Core.putS_matrix (c : Core) (n : BitVec 5) (v : DWord) : (c.putS n v).matrix = c.matrix := by unfold Core.putS; split <;> rfl
@[simp] theorem Core.putS_drain (c : Core) (n : BitVec 5) (v : DWord) : (c.putS n v).drain = c.drain := by unfold Core.putS; split <;> rfl
@[simp] theorem Core.putS_digests (c : Core) (n : BitVec 5) (v : DWord) : (c.putS n v).digests = c.digests := by unfold Core.putS; split <;> rfl
@[simp] theorem Core.putS_lookups (c : Core) (n : BitVec 5) (v : DWord) : (c.putS n v).lookups = c.lookups := by unfold Core.putS; split <;> rfl
@[simp] theorem Core.putS_conts (c : Core) (n : BitVec 5) (v : DWord) : (c.putS n v).conts = c.conts := by unfold Core.putS; split <;> rfl
@[simp] theorem Core.putS_wrote (c : Core) (n : BitVec 5) (v : DWord) : (c.putS n v).wrote = c.wrote := by unfold Core.putS; split <;> rfl
@[simp] theorem Core.putS_mapCtx (c : Core) (n : BitVec 5) (v : DWord) : (c.putS n v).mapCtx = c.mapCtx := by unfold Core.putS; split <;> rfl
@[simp] theorem Core.putS_kept (c : Core) (n : BitVec 5) (v : DWord) : (c.putS n v).kept = c.kept := by unfold Core.putS; split <;> rfl
@[simp] theorem Core.putS_ctxWord (c : Core) (n : BitVec 5) (v : DWord) : (c.putS n v).ctxWord = c.ctxWord := by unfold Core.putS; split <;> rfl
@[simp] theorem Core.putS_task (c : Core) (n : BitVec 5) (v : DWord) : (c.putS n v).task = c.task := by unfold Core.putS; split <;> rfl
@[simp] theorem Core.putS_freezeHeld (c : Core) (n : BitVec 5) (v : DWord) : (c.putS n v).freezeHeld = c.freezeHeld := by unfold Core.putS; split <;> rfl
@[simp] theorem Core.putS_freezeAsk (c : Core) (n : BitVec 5) (v : DWord) : (c.putS n v).freezeAsk = c.freezeAsk := by unfold Core.putS; split <;> rfl
@[simp] theorem Core.putS_thawed (c : Core) (n : BitVec 5) (v : DWord) : (c.putS n v).thawed = c.thawed := by unfold Core.putS; split <;> rfl
@[simp] theorem Core.putS_stops (c : Core) (n : BitVec 5) (v : DWord) : (c.putS n v).stops = c.stops := by unfold Core.putS; split <;> rfl
@[simp] theorem Core.putS_freezeDog (c : Core) (n : BitVec 5) (v : DWord) : (c.putS n v).freezeDog = c.freezeDog := by unfold Core.putS; split <;> rfl
@[simp] theorem Core.putS_port3 (c : Core) (n : BitVec 5) (v : DWord) : (c.putS n v).port3 = c.port3 := by unfold Core.putS; split <;> rfl
@[simp] theorem Core.putS_port3Q (c : Core) (n : BitVec 5) (v : DWord) : (c.putS n v).port3Q = c.port3Q := by unfold Core.putS; split <;> rfl
@[simp] theorem Core.putS_port3Busy (c : Core) (n : BitVec 5) (v : DWord) : (c.putS n v).port3Busy = c.port3Busy := by unfold Core.putS; split <;> rfl
@[simp] theorem Core.putS_aReqs (c : Core) (n : BitVec 5) (v : DWord) : (c.putS n v).aReqs = c.aReqs := by unfold Core.putS; split <;> rfl
@[simp] theorem Core.putS_ports (c : Core) (n : BitVec 5) (v : DWord) : (c.putS n v).ports = c.ports := by unfold Core.putS; split <;> rfl
@[simp] theorem Core.putS_portHold (c : Core) (n : BitVec 5) (v : DWord) : (c.putS n v).portHold = c.portHold := by unfold Core.putS; split <;> rfl
@[simp] theorem Core.putS_vnext (c : Core) (n : BitVec 5) (v : DWord) : (c.putS n v).vnext = c.vnext := by unfold Core.putS; split <;> rfl
@[simp] theorem Core.putS_vhold (c : Core) (n : BitVec 5) (v : DWord) : (c.putS n v).vhold = c.vhold := by unfold Core.putS; split <;> rfl
@[simp] theorem Core.putS_clk (c : Core) (n : BitVec 5) (v : DWord) : (c.putS n v).clk = c.clk := by unfold Core.putS; split <;> rfl
@[simp] theorem Core.putS_hold (c : Core) (n : BitVec 5) (v : DWord) : (c.putS n v).hold = c.hold := by unfold Core.putS; split <;> rfl
@[simp] theorem Core.putS_rclk (c : Core) (n : BitVec 5) (v : DWord) : (c.putS n v).rclk = c.rclk := by unfold Core.putS; split <;> rfl
@[simp] theorem Core.putS_seq (c : Core) (n : BitVec 5) (v : DWord) : (c.putS n v).seq = c.seq := by unfold Core.putS; split <;> rfl
@[simp] theorem Core.putS_first (c : Core) (n : BitVec 5) (v : DWord) : (c.putS n v).first = c.first := by unfold Core.putS; split <;> rfl
@[simp] theorem Core.putS_restored (c : Core) (n : BitVec 5) (v : DWord) : (c.putS n v).restored = c.restored := by unfold Core.putS; split <;> rfl
@[simp] theorem Core.putS_stalled (c : Core) (n : BitVec 5) (v : DWord) : (c.putS n v).stalled = c.stalled := by unfold Core.putS; split <;> rfl
@[simp] theorem Core.putS_issued (c : Core) (n : BitVec 5) (v : DWord) : (c.putS n v).issued = c.issued := by unfold Core.putS; split <;> rfl
@[simp] theorem Core.putS_snapWords (c : Core) (n : BitVec 5) (v : DWord) : (c.putS n v).snapWords = c.snapWords := by unfold Core.putS; split <;> rfl

@[simp] theorem Core.kill_regs (c : Core) (r : Reg) : (c.kill r).regs = c.regs := by cases r <;> rfl
@[simp] theorem Core.kill_c (c : Core) (r : Reg) : (c.kill r).c = c.c := by cases r <;> rfl
@[simp] theorem Core.kill_a (c : Core) (r : Reg) : (c.kill r).a = c.a := by cases r <;> rfl
@[simp] theorem Core.kill_k (c : Core) (r : Reg) : (c.kill r).k = c.k := by cases r <;> rfl
@[simp] theorem Core.kill_d (c : Core) (r : Reg) : (c.kill r).d = c.d := by cases r <;> rfl
@[simp] theorem Core.kill_forked (c : Core) (r : Reg) : (c.kill r).forked = c.forked := by cases r <;> rfl
@[simp] theorem Core.kill_forkMask (c : Core) (r : Reg) : (c.kill r).forkMask = c.forkMask := by cases r <;> rfl
@[simp] theorem Core.kill_heldLine (c : Core) (r : Reg) : (c.kill r).heldLine = c.heldLine := by cases r <;> rfl
@[simp] theorem Core.kill_heldClk (c : Core) (r : Reg) : (c.kill r).heldClk = c.heldClk := by cases r <;> rfl
@[simp] theorem Core.kill_stores (c : Core) (r : Reg) : (c.kill r).stores = c.stores := by cases r <;> rfl
@[simp] theorem Core.kill_fences (c : Core) (r : Reg) : (c.kill r).fences = c.fences := by cases r <;> rfl
@[simp] theorem Core.kill_uoFence (c : Core) (r : Reg) : (c.kill r).uoFence = c.uoFence := by cases r <;> rfl
@[simp] theorem Core.kill_fenceI (c : Core) (r : Reg) : (c.kill r).fenceI = c.fenceI := by cases r <;> rfl
@[simp] theorem Core.kill_roundCounts (c : Core) (r : Reg) : (c.kill r).roundCounts = c.roundCounts := by cases r <;> rfl
@[simp] theorem Core.kill_gbPolls (c : Core) (r : Reg) : (c.kill r).gbPolls = c.gbPolls := by cases r <;> rfl
@[simp] theorem Core.kill_gbArrives (c : Core) (r : Reg) : (c.kill r).gbArrives = c.gbArrives := by cases r <;> rfl
@[simp] theorem Core.kill_queues (c : Core) (r : Reg) : (c.kill r).queues = c.queues := by cases r <;> rfl
@[simp] theorem Core.kill_tokens (c : Core) (r : Reg) : (c.kill r).tokens = c.tokens := by cases r <;> rfl
@[simp] theorem Core.kill_flags (c : Core) (r : Reg) : (c.kill r).flags = c.flags := by cases r <;> rfl
@[simp] theorem Core.kill_counters (c : Core) (r : Reg) : (c.kill r).counters = c.counters := by cases r <;> rfl
@[simp] theorem Core.kill_bars (c : Core) (r : Reg) : (c.kill r).bars = c.bars := by cases r <;> rfl
@[simp] theorem Core.kill_rdvs (c : Core) (r : Reg) : (c.kill r).rdvs = c.rdvs := by cases r <;> rfl
@[simp] theorem Core.kill_retired (c : Core) (r : Reg) : (c.kill r).retired = c.retired := by cases r <;> rfl
@[simp] theorem Core.kill_markers (c : Core) (r : Reg) : (c.kill r).markers = c.markers := by cases r <;> rfl
@[simp] theorem Core.kill_deferred (c : Core) (r : Reg) : (c.kill r).deferred = c.deferred := by cases r <;> rfl
@[simp] theorem Core.kill_aloads (c : Core) (r : Reg) : (c.kill r).aloads = c.aloads := by cases r <;> rfl
@[simp] theorem Core.kill_aq (c : Core) (r : Reg) : (c.kill r).aq = c.aq := by cases r <;> rfl
@[simp] theorem Core.kill_dq (c : Core) (r : Reg) : (c.kill r).dq = c.dq := by cases r <;> rfl
@[simp] theorem Core.kill_matrix (c : Core) (r : Reg) : (c.kill r).matrix = c.matrix := by cases r <;> rfl
@[simp] theorem Core.kill_drain (c : Core) (r : Reg) : (c.kill r).drain = c.drain := by cases r <;> rfl
@[simp] theorem Core.kill_digests (c : Core) (r : Reg) : (c.kill r).digests = c.digests := by cases r <;> rfl
@[simp] theorem Core.kill_lookups (c : Core) (r : Reg) : (c.kill r).lookups = c.lookups := by cases r <;> rfl
@[simp] theorem Core.kill_conts (c : Core) (r : Reg) : (c.kill r).conts = c.conts := by cases r <;> rfl
@[simp] theorem Core.kill_wrote (c : Core) (r : Reg) : (c.kill r).wrote = c.wrote := by cases r <;> rfl
@[simp] theorem Core.kill_mapCtx (c : Core) (r : Reg) : (c.kill r).mapCtx = c.mapCtx := by cases r <;> rfl
@[simp] theorem Core.kill_kept (c : Core) (r : Reg) : (c.kill r).kept = c.kept := by cases r <;> rfl
@[simp] theorem Core.kill_ctxWord (c : Core) (r : Reg) : (c.kill r).ctxWord = c.ctxWord := by cases r <;> rfl
@[simp] theorem Core.kill_task (c : Core) (r : Reg) : (c.kill r).task = c.task := by cases r <;> rfl
@[simp] theorem Core.kill_freezeHeld (c : Core) (r : Reg) : (c.kill r).freezeHeld = c.freezeHeld := by cases r <;> rfl
@[simp] theorem Core.kill_freezeAsk (c : Core) (r : Reg) : (c.kill r).freezeAsk = c.freezeAsk := by cases r <;> rfl
@[simp] theorem Core.kill_thawed (c : Core) (r : Reg) : (c.kill r).thawed = c.thawed := by cases r <;> rfl
@[simp] theorem Core.kill_stops (c : Core) (r : Reg) : (c.kill r).stops = c.stops := by cases r <;> rfl
@[simp] theorem Core.kill_freezeDog (c : Core) (r : Reg) : (c.kill r).freezeDog = c.freezeDog := by cases r <;> rfl
@[simp] theorem Core.kill_port3 (c : Core) (r : Reg) : (c.kill r).port3 = c.port3 := by cases r <;> rfl
@[simp] theorem Core.kill_port3Q (c : Core) (r : Reg) : (c.kill r).port3Q = c.port3Q := by cases r <;> rfl
@[simp] theorem Core.kill_port3Busy (c : Core) (r : Reg) : (c.kill r).port3Busy = c.port3Busy := by cases r <;> rfl
@[simp] theorem Core.kill_aReqs (c : Core) (r : Reg) : (c.kill r).aReqs = c.aReqs := by cases r <;> rfl
@[simp] theorem Core.kill_ports (c : Core) (r : Reg) : (c.kill r).ports = c.ports := by cases r <;> rfl
@[simp] theorem Core.kill_portHold (c : Core) (r : Reg) : (c.kill r).portHold = c.portHold := by cases r <;> rfl
@[simp] theorem Core.kill_vnext (c : Core) (r : Reg) : (c.kill r).vnext = c.vnext := by cases r <;> rfl
@[simp] theorem Core.kill_vhold (c : Core) (r : Reg) : (c.kill r).vhold = c.vhold := by cases r <;> rfl
@[simp] theorem Core.kill_clk (c : Core) (r : Reg) : (c.kill r).clk = c.clk := by cases r <;> rfl
@[simp] theorem Core.kill_hold (c : Core) (r : Reg) : (c.kill r).hold = c.hold := by cases r <;> rfl
@[simp] theorem Core.kill_rclk (c : Core) (r : Reg) : (c.kill r).rclk = c.rclk := by cases r <;> rfl
@[simp] theorem Core.kill_seq (c : Core) (r : Reg) : (c.kill r).seq = c.seq := by cases r <;> rfl
@[simp] theorem Core.kill_first (c : Core) (r : Reg) : (c.kill r).first = c.first := by cases r <;> rfl
@[simp] theorem Core.kill_restored (c : Core) (r : Reg) : (c.kill r).restored = c.restored := by cases r <;> rfl
@[simp] theorem Core.kill_stalled (c : Core) (r : Reg) : (c.kill r).stalled = c.stalled := by cases r <;> rfl
@[simp] theorem Core.kill_issued (c : Core) (r : Reg) : (c.kill r).issued = c.issued := by cases r <;> rfl
@[simp] theorem Core.kill_snapWords (c : Core) (r : Reg) : (c.kill r).snapWords = c.snapWords := by cases r <;> rfl

@[simp] theorem Core.later_regs (c : Core) (r : Reg) (v : Line) (a b : Nat) : (c.later r v a b).regs = c.regs := by cases r <;> rfl
@[simp] theorem Core.later_c (c : Core) (r : Reg) (v : Line) (a b : Nat) : (c.later r v a b).c = c.c := by cases r <;> rfl
@[simp] theorem Core.later_a (c : Core) (r : Reg) (v : Line) (a b : Nat) : (c.later r v a b).a = c.a := by cases r <;> rfl
@[simp] theorem Core.later_k (c : Core) (r : Reg) (v : Line) (a b : Nat) : (c.later r v a b).k = c.k := by cases r <;> rfl
@[simp] theorem Core.later_d (c : Core) (r : Reg) (v : Line) (a b : Nat) : (c.later r v a b).d = c.d := by cases r <;> rfl
@[simp] theorem Core.later_forked (c : Core) (r : Reg) (v : Line) (a b : Nat) : (c.later r v a b).forked = c.forked := by cases r <;> rfl
@[simp] theorem Core.later_forkMask (c : Core) (r : Reg) (v : Line) (a b : Nat) : (c.later r v a b).forkMask = c.forkMask := by cases r <;> rfl
@[simp] theorem Core.later_heldLine (c : Core) (r : Reg) (v : Line) (a b : Nat) : (c.later r v a b).heldLine = c.heldLine := by cases r <;> rfl
@[simp] theorem Core.later_heldClk (c : Core) (r : Reg) (v : Line) (a b : Nat) : (c.later r v a b).heldClk = c.heldClk := by cases r <;> rfl
@[simp] theorem Core.later_stores (c : Core) (r : Reg) (v : Line) (a b : Nat) : (c.later r v a b).stores = c.stores := by cases r <;> rfl
@[simp] theorem Core.later_fences (c : Core) (r : Reg) (v : Line) (a b : Nat) : (c.later r v a b).fences = c.fences := by cases r <;> rfl
@[simp] theorem Core.later_uoFence (c : Core) (r : Reg) (v : Line) (a b : Nat) : (c.later r v a b).uoFence = c.uoFence := by cases r <;> rfl
@[simp] theorem Core.later_fenceI (c : Core) (r : Reg) (v : Line) (a b : Nat) : (c.later r v a b).fenceI = c.fenceI := by cases r <;> rfl
@[simp] theorem Core.later_roundCounts (c : Core) (r : Reg) (v : Line) (a b : Nat) : (c.later r v a b).roundCounts = c.roundCounts := by cases r <;> rfl
@[simp] theorem Core.later_gbPolls (c : Core) (r : Reg) (v : Line) (a b : Nat) : (c.later r v a b).gbPolls = c.gbPolls := by cases r <;> rfl
@[simp] theorem Core.later_gbArrives (c : Core) (r : Reg) (v : Line) (a b : Nat) : (c.later r v a b).gbArrives = c.gbArrives := by cases r <;> rfl
@[simp] theorem Core.later_queues (c : Core) (r : Reg) (v : Line) (a b : Nat) : (c.later r v a b).queues = c.queues := by cases r <;> rfl
@[simp] theorem Core.later_tokens (c : Core) (r : Reg) (v : Line) (a b : Nat) : (c.later r v a b).tokens = c.tokens := by cases r <;> rfl
@[simp] theorem Core.later_flags (c : Core) (r : Reg) (v : Line) (a b : Nat) : (c.later r v a b).flags = c.flags := by cases r <;> rfl
@[simp] theorem Core.later_counters (c : Core) (r : Reg) (v : Line) (a b : Nat) : (c.later r v a b).counters = c.counters := by cases r <;> rfl
@[simp] theorem Core.later_bars (c : Core) (r : Reg) (v : Line) (a b : Nat) : (c.later r v a b).bars = c.bars := by cases r <;> rfl
@[simp] theorem Core.later_rdvs (c : Core) (r : Reg) (v : Line) (a b : Nat) : (c.later r v a b).rdvs = c.rdvs := by cases r <;> rfl
@[simp] theorem Core.later_retired (c : Core) (r : Reg) (v : Line) (a b : Nat) : (c.later r v a b).retired = c.retired := by cases r <;> rfl
@[simp] theorem Core.later_markers (c : Core) (r : Reg) (v : Line) (a b : Nat) : (c.later r v a b).markers = c.markers := by cases r <;> rfl
@[simp] theorem Core.later_deferred (c : Core) (r : Reg) (v : Line) (a b : Nat) : (c.later r v a b).deferred = c.deferred := by cases r <;> rfl
@[simp] theorem Core.later_aloads (c : Core) (r : Reg) (v : Line) (a b : Nat) : (c.later r v a b).aloads = c.aloads := by cases r <;> rfl
@[simp] theorem Core.later_aq (c : Core) (r : Reg) (v : Line) (a b : Nat) : (c.later r v a b).aq = c.aq := by cases r <;> rfl
@[simp] theorem Core.later_dq (c : Core) (r : Reg) (v : Line) (a b : Nat) : (c.later r v a b).dq = c.dq := by cases r <;> rfl
@[simp] theorem Core.later_matrix (c : Core) (r : Reg) (v : Line) (a b : Nat) : (c.later r v a b).matrix = c.matrix := by cases r <;> rfl
@[simp] theorem Core.later_drain (c : Core) (r : Reg) (v : Line) (a b : Nat) : (c.later r v a b).drain = c.drain := by cases r <;> rfl
@[simp] theorem Core.later_digests (c : Core) (r : Reg) (v : Line) (a b : Nat) : (c.later r v a b).digests = c.digests := by cases r <;> rfl
@[simp] theorem Core.later_lookups (c : Core) (r : Reg) (v : Line) (a b : Nat) : (c.later r v a b).lookups = c.lookups := by cases r <;> rfl
@[simp] theorem Core.later_conts (c : Core) (r : Reg) (v : Line) (a b : Nat) : (c.later r v a b).conts = c.conts := by cases r <;> rfl
@[simp] theorem Core.later_wrote (c : Core) (r : Reg) (v : Line) (a b : Nat) : (c.later r v a b).wrote = c.wrote := by cases r <;> rfl
@[simp] theorem Core.later_mapCtx (c : Core) (r : Reg) (v : Line) (a b : Nat) : (c.later r v a b).mapCtx = c.mapCtx := by cases r <;> rfl
@[simp] theorem Core.later_kept (c : Core) (r : Reg) (v : Line) (a b : Nat) : (c.later r v a b).kept = c.kept := by cases r <;> rfl
@[simp] theorem Core.later_ctxWord (c : Core) (r : Reg) (v : Line) (a b : Nat) : (c.later r v a b).ctxWord = c.ctxWord := by cases r <;> rfl
@[simp] theorem Core.later_task (c : Core) (r : Reg) (v : Line) (a b : Nat) : (c.later r v a b).task = c.task := by cases r <;> rfl
@[simp] theorem Core.later_freezeHeld (c : Core) (r : Reg) (v : Line) (a b : Nat) : (c.later r v a b).freezeHeld = c.freezeHeld := by cases r <;> rfl
@[simp] theorem Core.later_freezeAsk (c : Core) (r : Reg) (v : Line) (a b : Nat) : (c.later r v a b).freezeAsk = c.freezeAsk := by cases r <;> rfl
@[simp] theorem Core.later_thawed (c : Core) (r : Reg) (v : Line) (a b : Nat) : (c.later r v a b).thawed = c.thawed := by cases r <;> rfl
@[simp] theorem Core.later_stops (c : Core) (r : Reg) (v : Line) (a b : Nat) : (c.later r v a b).stops = c.stops := by cases r <;> rfl
@[simp] theorem Core.later_freezeDog (c : Core) (r : Reg) (v : Line) (a b : Nat) : (c.later r v a b).freezeDog = c.freezeDog := by cases r <;> rfl
@[simp] theorem Core.later_port3 (c : Core) (r : Reg) (v : Line) (a b : Nat) : (c.later r v a b).port3 = c.port3 := by cases r <;> rfl
@[simp] theorem Core.later_port3Q (c : Core) (r : Reg) (v : Line) (a b : Nat) : (c.later r v a b).port3Q = c.port3Q := by cases r <;> rfl
@[simp] theorem Core.later_port3Busy (c : Core) (r : Reg) (v : Line) (a b : Nat) : (c.later r v a b).port3Busy = c.port3Busy := by cases r <;> rfl
@[simp] theorem Core.later_aReqs (c : Core) (r : Reg) (v : Line) (a b : Nat) : (c.later r v a b).aReqs = c.aReqs := by cases r <;> rfl
@[simp] theorem Core.later_ports (c : Core) (r : Reg) (v : Line) (a b : Nat) : (c.later r v a b).ports = c.ports := by cases r <;> rfl
@[simp] theorem Core.later_portHold (c : Core) (r : Reg) (v : Line) (a b : Nat) : (c.later r v a b).portHold = c.portHold := by cases r <;> rfl
@[simp] theorem Core.later_vnext (c : Core) (r : Reg) (v : Line) (a b : Nat) : (c.later r v a b).vnext = c.vnext := by cases r <;> rfl
@[simp] theorem Core.later_vhold (c : Core) (r : Reg) (v : Line) (a b : Nat) : (c.later r v a b).vhold = c.vhold := by cases r <;> rfl
@[simp] theorem Core.later_clk (c : Core) (r : Reg) (v : Line) (a b : Nat) : (c.later r v a b).clk = c.clk := by cases r <;> rfl
@[simp] theorem Core.later_hold (c : Core) (r : Reg) (v : Line) (a b : Nat) : (c.later r v a b).hold = c.hold := by cases r <;> rfl
@[simp] theorem Core.later_rclk (c : Core) (r : Reg) (v : Line) (a b : Nat) : (c.later r v a b).rclk = c.rclk := by cases r <;> rfl
@[simp] theorem Core.later_seq (c : Core) (r : Reg) (v : Line) (a b : Nat) : (c.later r v a b).seq = c.seq := by cases r <;> rfl
@[simp] theorem Core.later_first (c : Core) (r : Reg) (v : Line) (a b : Nat) : (c.later r v a b).first = c.first := by cases r <;> rfl
@[simp] theorem Core.later_restored (c : Core) (r : Reg) (v : Line) (a b : Nat) : (c.later r v a b).restored = c.restored := by cases r <;> rfl
@[simp] theorem Core.later_stalled (c : Core) (r : Reg) (v : Line) (a b : Nat) : (c.later r v a b).stalled = c.stalled := by cases r <;> rfl
@[simp] theorem Core.later_issued (c : Core) (r : Reg) (v : Line) (a b : Nat) : (c.later r v a b).issued = c.issued := by cases r <;> rfl
@[simp] theorem Core.later_snapWords (c : Core) (r : Reg) (v : Line) (a b : Nat) : (c.later r v a b).snapWords = c.snapWords := by cases r <;> rfl

@[simp] theorem Core.putS_zero (c : Core) (v : DWord) : c.putS 0 v = c := rfl

theorem Core.regs_putS (c : Core) {n : BitVec 5} (h : n ≠ 0) (v : DWord) :
    (c.putS n v).regs = { c.regs with s := c.regs.s.setIfInBounds n.toNat v } := by
  unfold Core.putS; rw [if_neg h]

/-- s0 reads zero; another register what was written (R74). -/
theorem Core.getS_putS (c : Core) (n m : BitVec 5) (v : DWord) :
    (c.putS n v).getS m = if m = 0 then 0 else if m = n then v else c.getS m := by
  by_cases h0 : m = 0
  · rw [if_pos h0]; unfold Core.getS; rw [if_pos h0]
  · rw [if_neg h0]
    by_cases hn : n = 0
    · subst hn; rw [if_neg h0, Core.putS_zero]
    · unfold Core.getS
      rw [if_neg h0, if_neg h0, Core.regs_putS c hn]
      have hm : m.toNat < 32 := m.isLt
      by_cases h : m = n
      · subst h
        rw [if_pos rfl]
        simp [Vector.getD, hm]
      · have hne : n.toNat ≠ m.toNat := fun e => h (BitVec.eq_of_toNat_eq e).symm
        rw [if_neg h]
        simp [Vector.getD, hm, hne]

end Sys2Proof.Machine
end

