-- ==== Sys2Proof/Laws/Ops.lean ====
section
/-! SUPPORT. What the shared operations can do, said once: cores read back as they were written, the frame of a meaning has
five ends, an event always answers, the reads of registers, every write of memory keeps its canonical form, and what taking an
exception changes. -/

namespace Sys2Proof.Machine

/-! ### Cores and yardmasters -/

theorem State.cr_setYard (s : State) (p q : Nat) (y : Yard) : (s.setYard p y).cr q = s.cr q := by
  unfold State.setYard; split <;> rfl

theorem State.yard_setYard (s : State) (p : Nat) (y : Yard) : (s.setYard p y).yard p = y := by
  unfold State.setYard State.yard; split <;> rfl

theorem State.yard_setCr (s : State) (p q : Nat) (c : Core) : (s.setCr p c).yard q = s.yard q := rfl

/-! ### The frame of a meaning -/

/-- An instruction that may not run raises its exception. -/
theorem run_refused {i : Instr} {w : BitVec 2} {m : Act Unit} {s : State} {c : Cause} (h : s.refusal i = some c) :
    run i w m s = .next (s.laneTrap c 0 [] none) := by
  simp [run, h]

/-- An instruction that IQ suppresses changes nothing. -/
theorem run_suppressed {i : Instr} {w : BitVec 2} {m : Act Unit} {s : State} (h : s.refusal i = none)
    (hw : s.issues w = false) : run i w m s = .next { s with lane := .suppressed } := by
  simp [run, h, hw]

/-- An instruction whose meaning answers is done. -/
theorem run_done {i : Instr} {w : BitVec 2} {m : Act Unit} {s t : State} (h : s.refusal i = none) (hw : s.issues w = true)
    (hm : m s = .ok ((), t)) : run i w m s = .next { t with lane := .done } := by
  simp [run, h, hw, hm]

/-- An instruction whose meaning waits leaves the state, but for a lookup that it starts. -/
theorem run_waits {i : Instr} {w : BitVec 2} {m : Act Unit} {s : State} {x : Wait} {l : Option Lookup}
    (h : s.refusal i = none) (hw : s.issues w = true) (hm : m s = .error (.wait x l)) :
    run i w m s = .next { s.begin l with lane := .waiting x l } := by
  simp [run, h, hw, hm]

/-- An instruction whose meaning raises takes its exception. -/
theorem run_raises {i : Instr} {w : BitVec 2} {m : Act Unit} {s : State} {c : Cause} {v : DWord}
    {k : List (Nat × Option Nat)} {l : Option LogRec} (h : s.refusal i = none) (hw : s.issues w = true)
    (hm : m s = .error (.trap c v k l)) : run i w m s = .next (s.laneTrap c v k l) := by
  simp [run, h, hw, hm]

/-- No meaning stops the machine. -/
theorem run_goesOn (i : Instr) (w : BitVec 2) (m : Act Unit) (s : State) : GoesOn (run i w m s) := by
  unfold run GoesOn
  split
  · exact ⟨_, rfl⟩
  · split
    · exact ⟨_, rfl⟩
    · split <;> exact ⟨_, rfl⟩

/-- A device step that may take place does. -/
theorem event_some {e : Option State} {s t : State} (h : e = some t) : event e s = .next t := by simp [event, h]

/-- A device step that may not take place changes nothing. -/
theorem event_none {e : Option State} {s : State} (h : e = none) : event e s = .next s := by simp [event, h]

theorem event_goesOn (e : Option State) (s : State) : GoesOn (event e s) := ⟨_, rfl⟩

/-! ### Reading registers -/

/-- A read of a register with nothing pending answers its value and leaves the state. -/
theorem readS_ok {s : State} {n : BitVec 5} (h : s.me.regWait (.s n) = none) : readS n s = .ok (s.me.getS n, s) := by
  unfold readS await core
  simp only [bind, StateT.bind, Except.bind, h]
  rfl

/-! ### Memory -/

theorem Sparse.above_filter {α : Type} [DecidableEq α] {d : α} {n : Nat} {m : Sparse α} (f : Nat × α → Bool)
    (hm : Sparse.above n m = true) (hw : Sparse.wf d m = true) : Sparse.above n (m.filter f) = true := by
  induction m with
  | nil => rfl
  | cons e m ih =>
    obtain ⟨k, u⟩ := e
    simp only [Sparse.wf, Bool.and_eq_true, bne_iff_ne, ne_eq] at hw
    have hk : n < k := by simpa [Sparse.above] using hm
    simp only [List.filter_cons]
    split
    · simpa [Sparse.above] using hm
    · exact ih (Sparse.above_mono hk hw.1.1) hw.2

/-- Dropping entries keeps the canonical form. -/
theorem Sparse.wf_filter {α : Type} [DecidableEq α] {d : α} {m : Sparse α} (f : Nat × α → Bool)
    (hw : Sparse.wf d m = true) : Sparse.wf d (m.filter f) = true := by
  induction m with
  | nil => rfl
  | cons e m ih =>
    obtain ⟨k, u⟩ := e
    have h := hw
    simp only [Sparse.wf, Bool.and_eq_true, bne_iff_ne, ne_eq] at h
    simp only [List.filter_cons]
    split
    · simp [Sparse.wf, Sparse.above_filter f h.1.1 h.2, h.1.2, ih h.2]
    · exact ih h.2

theorem Sparse.ne_default {α : Type} [DecidableEq α] {d : α} {m : Sparse α} (hw : Sparse.wf d m = true) :
    ∀ e ∈ m, e.2 ≠ d := by
  induction m with
  | nil => simp
  | cons e m ih =>
    obtain ⟨k, u⟩ := e
    simp only [Sparse.wf, Bool.and_eq_true, bne_iff_ne, ne_eq] at hw
    intro x hx
    rcases List.mem_cons.mp hx with rfl | hx
    · exact hw.1.2
    · exact ih hw.2 x hx

/-- Placing entries that are not the default keeps the canonical form. -/
theorem Sparse.wf_puts {α : Type} [DecidableEq α] {d : α} (f : Nat → Nat) (xs : Sparse α) :
    ∀ m : Sparse α, (∀ e ∈ xs, e.2 ≠ d) → Sparse.wf d m = true →
      Sparse.wf d (xs.foldl (fun m e => Sparse.put m (f e.1) e.2) m) = true := by
  induction xs with
  | nil => exact fun m _ hm => hm
  | cons e xs ih =>
    intro m hx hm
    exact ih _ (fun y hy => hx y (List.mem_cons_of_mem _ hy)) (Sparse.wf_put (hx e (List.mem_cons_self ..)) hm)

theorem State.wf_setGranule {s : State} (pa v : Nat) (h : MemOk s) : MemOk (s.setGranule pa v) :=
  Mem.wf_write _ _ _ h

theorem State.wf_moveGranule {s : State} (a b : Nat) (h : MemOk s) : MemOk (s.moveGranule a b) := by
  unfold MemOk at *
  exact Sparse.wf_puts (fun k => k - a + b) _ _
    (fun e he => Sparse.ne_default (d := Config.blankByte) h e (List.mem_of_mem_filter he)) (Sparse.wf_filter _ h)

theorem State.wf_clearPlane {s : State} (l : Launch) (p : Nat) (h : MemOk s) : MemOk (s.clearPlane l p) := by
  unfold MemOk State.clearPlane at *
  simp only
  split
  · exact h
  · exact Sparse.wf_filter _ h

theorem State.wf_loadSlot {s : State} (b : Bool) (h : MemOk s) : MemOk (s.loadSlot b) := Mem.wf_write _ _ _ h

/-- Reset memory is canonical. -/
theorem State.wf_reset : MemOk State.reset := rfl

/-! ### Taking an exception, and returning from one -/

/-- What the entry of a yardmaster's exception saves and where it goes (R153): with the position, what stands open in the line
(R66). -/
theorem State.yardTrap_yard (s : State) (p : Nat) (pos cause val : DWord) :
    (s.yardTrap p pos cause val).yard p =
      { s.yard p with
        ytepc := pos, ytcause := cause, ytval := val, pie := (s.yard p).ie, ie := false
        shadow := (s.cr p).c.open_ :: (s.cr p).c.after } := by
  simp [State.yardTrap, State.yard_setYard, State.yard_setCr]

theorem State.yardTrap_line (s : State) (p : Nat) (pos cause val : DWord) :
    ((s.yardTrap p pos cause val).cr p).c.line = (s.yard p).ytvec &&& ~~~0x1F := by
  simp [State.yardTrap]

theorem State.yardTrap_cr_ne (s : State) {p q : Nat} (pos cause val : DWord) (h : q ≠ p) :
    (s.yardTrap p pos cause val).cr q = s.cr q := by
  simp [State.yardTrap, h, State.cr_setYard]

theorem State.yardTrap_mem (s : State) (p : Nat) (pos cause val : DWord) : (s.yardTrap p pos cause val).mem = s.mem := by
  unfold State.yardTrap State.setYard; split <;> rfl

/-- A compute core's exception leaves every register, queue and flag: its stops grow by one (R178, R389). -/
theorem State.takeTrap_core (s : State) {p : Nat} (st : Stream) (lane : Nat) (c : Cause) (v : DWord) (kind obj swc : Nat)
    (h : isYard p = false) :
    ((s.takeTrap p st lane c v kind obj swc).cr p).regs = (s.cr p).regs ∧
    ((s.takeTrap p st lane c v kind obj swc).cr p).stops =
      (s.cr p).stops ++ [⟨if (s.cr p).forked then some st else none, false⟩] := by
  unfold State.takeTrap State.takeTrapAt
  rw [show ∀ t u : State, (if isYard p then t else u) = u from fun t u => if_neg (by simp [h])]
  simp only [State.report, State.cr, State.setCr, Sparse.get_put_same]
  by_cases hf : (Sparse.get {} s.cores p).forked = true <;> simp only [hf] <;> cases st <;> exact ⟨rfl, rfl⟩

/-- The return restores `IE` and resumes at `YTEPC` (R154). -/
theorem State.yardReturn_yard (s : State) (p : Nat) : (s.yardReturn p).yard p = { s.yard p with ie := (s.yard p).pie } := by
  simp [State.yardReturn, State.yard_setYard, State.yard_setCr]

end Sys2Proof.Machine
end

