-- ==== Sys2Proof/Laws/PerInstr.lean ====
section
/-! SUPPORT. A statement about every instruction, one lemma for each constructor: an instruction has words exactly where the
opcode map of some stream holds it, and then one or two of them (R73, R76-R81). -/

namespace Sys2Proof.Laws.Words

/-- Instruction `i` has words exactly where some stream's map holds it; a step of the device has neither. -/
def Statement (i : Instr) : Prop :=
  match i.homes, encode i with
  | [], [] => True
  | _ :: _, [_] => True
  | _ :: _, [_, _] => True
  | _, _ => False

theorem nop : Statement (.nop) := trivial
theorem add x0 x1 x2 x3 : Statement (.add x0 x1 x2 x3) := trivial
theorem sub x0 x1 x2 x3 : Statement (.sub x0 x1 x2 x3) := trivial
theorem mul x0 x1 x2 x3 : Statement (.mul x0 x1 x2 x3) := trivial
theorem mulh x0 x1 x2 x3 : Statement (.mulh x0 x1 x2 x3) := trivial
theorem mulhu x0 x1 x2 x3 : Statement (.mulhu x0 x1 x2 x3) := trivial
theorem div x0 x1 x2 x3 : Statement (.div x0 x1 x2 x3) := trivial
theorem divu x0 x1 x2 x3 : Statement (.divu x0 x1 x2 x3) := trivial
theorem rem x0 x1 x2 x3 : Statement (.rem x0 x1 x2 x3) := trivial
theorem remu x0 x1 x2 x3 : Statement (.remu x0 x1 x2 x3) := trivial
theorem and_ x0 x1 x2 x3 : Statement (.and_ x0 x1 x2 x3) := trivial
theorem or_ x0 x1 x2 x3 : Statement (.or_ x0 x1 x2 x3) := trivial
theorem xor_ x0 x1 x2 x3 : Statement (.xor_ x0 x1 x2 x3) := trivial
theorem andn x0 x1 x2 x3 : Statement (.andn x0 x1 x2 x3) := trivial
theorem shl x0 x1 x2 x3 : Statement (.shl x0 x1 x2 x3) := trivial
theorem shr x0 x1 x2 x3 : Statement (.shr x0 x1 x2 x3) := trivial
theorem sar x0 x1 x2 x3 : Statement (.sar x0 x1 x2 x3) := trivial
theorem rol x0 x1 x2 x3 : Statement (.rol x0 x1 x2 x3) := trivial
theorem min_ x0 x1 x2 x3 : Statement (.min_ x0 x1 x2 x3) := trivial
theorem max_ x0 x1 x2 x3 : Statement (.max_ x0 x1 x2 x3) := trivial
theorem minu x0 x1 x2 x3 : Statement (.minu x0 x1 x2 x3) := trivial
theorem maxu x0 x1 x2 x3 : Statement (.maxu x0 x1 x2 x3) := trivial
theorem slt x0 x1 x2 x3 : Statement (.slt x0 x1 x2 x3) := trivial
theorem sltu x0 x1 x2 x3 : Statement (.sltu x0 x1 x2 x3) := trivial
theorem seq x0 x1 x2 x3 : Statement (.seq x0 x1 x2 x3) := trivial
theorem clz x0 x1 x2 : Statement (.clz x0 x1 x2) := trivial
theorem ctz x0 x1 x2 : Statement (.ctz x0 x1 x2) := trivial
theorem popc x0 x1 x2 : Statement (.popc x0 x1 x2) := trivial
theorem bext x0 x1 x2 x3 : Statement (.bext x0 x1 x2 x3) := trivial
theorem addi x0 x1 x2 x3 : Statement (.addi x0 x1 x2 x3) := trivial
theorem andi x0 x1 x2 x3 : Statement (.andi x0 x1 x2 x3) := trivial
theorem ori x0 x1 x2 x3 : Statement (.ori x0 x1 x2 x3) := trivial
theorem xori x0 x1 x2 x3 : Statement (.xori x0 x1 x2 x3) := trivial
theorem shli x0 x1 x2 x3 : Statement (.shli x0 x1 x2 x3) := trivial
theorem shri x0 x1 x2 x3 : Statement (.shri x0 x1 x2 x3) := trivial
theorem sari x0 x1 x2 x3 : Statement (.sari x0 x1 x2 x3) := trivial
theorem slti x0 x1 x2 x3 : Statement (.slti x0 x1 x2 x3) := trivial
theorem sltiu x0 x1 x2 x3 : Statement (.sltiu x0 x1 x2 x3) := trivial
theorem li x0 x1 x2 x3 : Statement (.li x0 x1 x2 x3) := trivial
theorem li64 x0 x1 x2 : Statement (.li64 x0 x1 x2) := trivial
theorem ldB x0 x1 x2 x3 : Statement (.ldB x0 x1 x2 x3) := trivial
theorem ldBu x0 x1 x2 x3 : Statement (.ldBu x0 x1 x2 x3) := trivial
theorem ldH x0 x1 x2 x3 : Statement (.ldH x0 x1 x2 x3) := trivial
theorem ldHu x0 x1 x2 x3 : Statement (.ldHu x0 x1 x2 x3) := trivial
theorem ldW x0 x1 x2 x3 : Statement (.ldW x0 x1 x2 x3) := trivial
theorem ldWu x0 x1 x2 x3 : Statement (.ldWu x0 x1 x2 x3) := trivial
theorem ldD x0 x1 x2 x3 : Statement (.ldD x0 x1 x2 x3) := trivial
theorem stB x0 x1 x2 x3 : Statement (.stB x0 x1 x2 x3) := trivial
theorem stH x0 x1 x2 x3 : Statement (.stH x0 x1 x2 x3) := trivial
theorem stW x0 x1 x2 x3 : Statement (.stW x0 x1 x2 x3) := trivial
theorem stD x0 x1 x2 x3 : Statement (.stD x0 x1 x2 x3) := trivial
theorem amoAdd x0 x1 x2 x3 x4 x5 x6 : Statement (.amoAdd x0 x1 x2 x3 x4 x5 x6) := trivial
theorem amoAnd x0 x1 x2 x3 x4 x5 x6 : Statement (.amoAnd x0 x1 x2 x3 x4 x5 x6) := trivial
theorem amoOr x0 x1 x2 x3 x4 x5 x6 : Statement (.amoOr x0 x1 x2 x3 x4 x5 x6) := trivial
theorem amoXor x0 x1 x2 x3 x4 x5 x6 : Statement (.amoXor x0 x1 x2 x3 x4 x5 x6) := trivial
theorem amoMin x0 x1 x2 x3 x4 x5 x6 : Statement (.amoMin x0 x1 x2 x3 x4 x5 x6) := trivial
theorem amoMax x0 x1 x2 x3 x4 x5 x6 : Statement (.amoMax x0 x1 x2 x3 x4 x5 x6) := trivial
theorem amoSwp x0 x1 x2 x3 x4 x5 x6 : Statement (.amoSwp x0 x1 x2 x3 x4 x5 x6) := trivial
theorem amoCas x0 x1 x2 x3 x4 x5 x6 : Statement (.amoCas x0 x1 x2 x3 x4 x5 x6) := trivial
theorem amoAddd x0 x1 x2 x3 x4 x5 x6 : Statement (.amoAddd x0 x1 x2 x3 x4 x5 x6) := trivial
theorem amoNull x0 x1 x2 x3 x4 x5 : Statement (.amoNull x0 x1 x2 x3 x4 x5) := trivial
theorem fence x0 x1 x2 x3 x4 : Statement (.fence x0 x1 x2 x3 x4) := trivial
theorem fenceI x0 : Statement (.fenceI x0) := trivial
theorem beq x0 x1 x2 x3 : Statement (.beq x0 x1 x2 x3) := trivial
theorem bne x0 x1 x2 x3 : Statement (.bne x0 x1 x2 x3) := trivial
theorem blt x0 x1 x2 x3 : Statement (.blt x0 x1 x2 x3) := trivial
theorem bge x0 x1 x2 x3 : Statement (.bge x0 x1 x2 x3) := trivial
theorem bltu x0 x1 x2 x3 : Statement (.bltu x0 x1 x2 x3) := trivial
theorem bgeu x0 x1 x2 x3 : Statement (.bgeu x0 x1 x2 x3) := trivial
theorem jmpr x0 x1 : Statement (.jmpr x0 x1) := trivial
theorem fork x0 x1 x2 x3 x4 : Statement (.fork x0 x1 x2 x3 x4) := trivial
theorem pushfmt x0 x1 : Statement (.pushfmt x0 x1) := trivial
theorem qpush x0 x1 x2 : Statement (.qpush x0 x1 x2) := trivial
theorem qpop x0 x1 x2 : Statement (.qpop x0 x1 x2) := trivial
theorem qstat x0 x1 x2 : Statement (.qstat x0 x1 x2) := trivial
theorem cont x0 x1 x2 : Statement (.cont x0 x1 x2) := trivial
theorem launch x0 x1 x2 x3 : Statement (.launch x0 x1 x2 x3) := trivial
theorem csrr x0 x1 x2 : Statement (.csrr x0 x1 x2) := trivial
theorem csrw x0 x1 x2 x3 : Statement (.csrw x0 x1 x2 x3) := trivial
theorem csrs x0 x1 x2 x3 : Statement (.csrs x0 x1 x2 x3) := trivial
theorem csrc x0 x1 x2 x3 : Statement (.csrc x0 x1 x2 x3) := trivial
theorem rtt x0 : Statement (.rtt x0) := trivial
theorem wfi x0 : Statement (.wfi x0) := trivial
theorem halt x0 : Statement (.halt x0) := trivial
theorem freeze x0 x1 x2 : Statement (.freeze x0 x1 x2) := trivial
theorem thaw x0 x1 : Statement (.thaw x0 x1) := trivial
theorem snapr x0 x1 x2 x3 : Statement (.snapr x0 x1 x2 x3) := trivial
theorem snapw x0 x1 x2 x3 : Statement (.snapw x0 x1 x2 x3) := trivial
theorem loop x0 x1 x2 x3 x4 x5 : Statement (.loop x0 x1 x2 x3 x4 x5) := trivial
theorem lstr x0 x1 x2 x3 x4 x5 : Statement (.lstr x0 x1 x2 x3 x4 x5) := trivial
theorem jmp x0 x1 : Statement (.jmp x0 x1) := trivial
theorem bqz x0 x1 x2 : Statement (.bqz x0 x1 x2) := trivial
theorem bqnz x0 x1 x2 : Statement (.bqnz x0 x1 x2) := trivial
theorem join x0 x1 : Statement (.join x0 x1) := trivial
theorem tksig x0 x1 : Statement (.tksig x0 x1) := trivial
theorem tkwait x0 x1 : Statement (.tkwait x0 x1) := trivial
theorem mark x0 x1 : Statement (.mark x0 x1) := trivial
theorem fset x0 x1 : Statement (.fset x0 x1) := trivial
theorem fclr x0 x1 : Statement (.fclr x0 x1) := trivial
theorem fwait x0 x1 x2 : Statement (.fwait x0 x1 x2) := trivial
theorem cntset x0 x1 : Statement (.cntset x0 x1) := trivial
theorem cntwait x0 x1 x2 : Statement (.cntwait x0 x1 x2) := trivial
theorem barInit x0 x1 x2 x3 : Statement (.barInit x0 x1 x2 x3) := trivial
theorem barArv x0 x1 : Statement (.barArv x0 x1) := trivial
theorem barWait x0 x1 x2 : Statement (.barWait x0 x1 x2) := trivial
theorem barArvGroup x0 x1 : Statement (.barArvGroup x0 x1) := trivial
theorem barWaitGroup x0 x1 x2 : Statement (.barWaitGroup x0 x1 x2) := trivial
theorem rdvset x0 x1 x2 x3 : Statement (.rdvset x0 x1 x2 x3) := trivial
theorem rdvwait x0 x1 : Statement (.rdvwait x0 x1) := trivial
theorem tend x0 : Statement (.tend x0) := trivial
theorem hint x0 x1 x2 : Statement (.hint x0 x1 x2) := trivial
theorem mhint x0 x1 : Statement (.mhint x0 x1) := trivial
theorem trap x0 x1 : Statement (.trap x0 x1) := trivial
theorem aadd x0 x1 x2 x3 x4 : Statement (.aadd x0 x1 x2 x3 x4) := trivial
theorem aaddi x0 x1 x2 x3 x4 : Statement (.aaddi x0 x1 x2 x3 x4) := trivial
theorem amov x0 x1 x2 x3 x4 : Statement (.amov x0 x1 x2 x3 x4) := trivial
theorem aset x0 x1 x2 x3 x4 x5 x6 : Statement (.aset x0 x1 x2 x3 x4 x5 x6) := trivial
theorem ali x0 x1 x2 x3 x4 : Statement (.ali x0 x1 x2 x3 x4) := trivial
theorem tld x0 x1 x2 x3 x4 : Statement (.tld x0 x1 x2 x3 x4) := trivial
theorem tldT x0 x1 x2 x3 : Statement (.tldT x0 x1 x2 x3) := trivial
theorem tldb x0 x1 x2 x3 x4 : Statement (.tldb x0 x1 x2 x3 x4) := trivial
theorem ild x0 x1 x2 x3 : Statement (.ild x0 x1 x2 x3) := trivial
theorem bfxcfg x0 x1 x2 x3 : Statement (.bfxcfg x0 x1 x2 x3) := trivial
theorem mldw x0 x1 x2 x3 x4 : Statement (.mldw x0 x1 x2 x3 x4) := trivial
theorem mldwT x0 x1 x2 x3 : Statement (.mldwT x0 x1 x2 x3) := trivial
theorem mlds x0 x1 x2 x3 x4 : Statement (.mlds x0 x1 x2 x3 x4) := trivial
theorem gather x0 x1 x2 x3 x4 x5 x6 x7 x8 x9 x10 : Statement (.gather x0 x1 x2 x3 x4 x5 x6 x7 x8 x9 x10) := trivial
theorem xchgP x0 x1 x2 x3 x4 x5 x6 x7 x8 : Statement (.xchgP x0 x1 x2 x3 x4 x5 x6 x7 x8) := trivial
theorem xchgD x0 x1 x2 x3 x4 x5 x6 x7 x8 : Statement (.xchgD x0 x1 x2 x3 x4 x5 x6 x7 x8) := trivial
theorem xfer x0 x1 x2 x3 x4 x5 x6 x7 x8 x9 : Statement (.xfer x0 x1 x2 x3 x4 x5 x6 x7 x8 x9) := trivial
theorem stash x0 x1 x2 x3 x4 x5 x6 x7 x8 x9 : Statement (.stash x0 x1 x2 x3 x4 x5 x6 x7 x8 x9) := trivial
theorem restore x0 x1 x2 x3 x4 x5 x6 x7 x8 x9 : Statement (.restore x0 x1 x2 x3 x4 x5 x6 x7 x8 x9) := trivial
theorem mflip x0 : Statement (.mflip x0) := trivial
theorem mstream x0 x1 x2 x3 x4 : Statement (.mstream x0 x1 x2 x3 x4) := trivial
theorem mstreamIdx x0 x1 x2 x3 x4 : Statement (.mstreamIdx x0 x1 x2 x3 x4) := trivial
theorem mzero x0 x1 : Statement (.mzero x0 x1) := trivial
theorem bind x0 x1 x2 : Statement (.bind x0 x1 x2) := trivial
theorem slotcfg x0 x1 x2 : Statement (.slotcfg x0 x1 x2) := trivial
theorem slotcfgFault x0 : Statement (.slotcfgFault x0) := trivial
theorem slotfree x0 x1 : Statement (.slotfree x0 x1) := trivial
theorem slotfreeAll x0 : Statement (.slotfreeAll x0) := trivial
theorem slotmapRead x0 x1 x2 : Statement (.slotmapRead x0 x1 x2) := trivial
theorem slotmapMap x0 x1 x2 : Statement (.slotmapMap x0 x1 x2) := trivial
theorem mspill x0 x1 : Statement (.mspill x0 x1) := trivial
theorem vpop x0 x1 x2 : Statement (.vpop x0 x1 x2) := trivial
theorem vpopK x0 x1 x2 : Statement (.vpopK x0 x1 x2) := trivial
theorem vpush x0 x1 x2 : Statement (.vpush x0 x1 x2) := trivial
theorem vpushOq0 x0 x1 x2 : Statement (.vpushOq0 x0 x1 x2) := trivial
theorem vmov x0 x1 x2 x3 x4 x5 : Statement (.vmov x0 x1 x2 x3 x4 x5) := trivial
theorem vmovK x0 x1 x2 x3 x4 : Statement (.vmovK x0 x1 x2 x3 x4) := trivial
theorem vbcast x0 x1 x2 x3 x4 x5 : Statement (.vbcast x0 x1 x2 x3 x4 x5) := trivial
theorem vbcastLane x0 x1 x2 x3 x4 x5 x6 : Statement (.vbcastLane x0 x1 x2 x3 x4 x5 x6) := trivial
theorem vli x0 x1 x2 x3 x4 x5 : Statement (.vli x0 x1 x2 x3 x4 x5) := trivial
theorem vliK x0 x1 x2 : Statement (.vliK x0 x1 x2) := trivial
theorem vadd x0 x1 x2 x3 x4 x5 x6 : Statement (.vadd x0 x1 x2 x3 x4 x5 x6) := trivial
theorem vsub x0 x1 x2 x3 x4 x5 x6 : Statement (.vsub x0 x1 x2 x3 x4 x5 x6) := trivial
theorem vmul x0 x1 x2 x3 x4 x5 x6 : Statement (.vmul x0 x1 x2 x3 x4 x5 x6) := trivial
theorem vfma x0 x1 x2 x3 x4 x5 x6 : Statement (.vfma x0 x1 x2 x3 x4 x5 x6) := trivial
theorem vfms x0 x1 x2 x3 x4 x5 x6 : Statement (.vfms x0 x1 x2 x3 x4 x5 x6) := trivial
theorem vnfma x0 x1 x2 x3 x4 x5 x6 : Statement (.vnfma x0 x1 x2 x3 x4 x5 x6) := trivial
theorem vmin x0 x1 x2 x3 x4 x5 x6 : Statement (.vmin x0 x1 x2 x3 x4 x5 x6) := trivial
theorem vmax x0 x1 x2 x3 x4 x5 x6 : Statement (.vmax x0 x1 x2 x3 x4 x5 x6) := trivial
theorem vabs x0 x1 x2 x3 x4 x5 : Statement (.vabs x0 x1 x2 x3 x4 x5) := trivial
theorem vneg x0 x1 x2 x3 x4 x5 : Statement (.vneg x0 x1 x2 x3 x4 x5) := trivial
theorem vrcp x0 x1 x2 x3 x4 x5 : Statement (.vrcp x0 x1 x2 x3 x4 x5) := trivial
theorem vrsq x0 x1 x2 x3 x4 x5 : Statement (.vrsq x0 x1 x2 x3 x4 x5) := trivial
theorem vexp2 x0 x1 x2 x3 x4 x5 : Statement (.vexp2 x0 x1 x2 x3 x4 x5) := trivial
theorem vlog2 x0 x1 x2 x3 x4 x5 : Statement (.vlog2 x0 x1 x2 x3 x4 x5) := trivial
theorem vcvt x0 x1 x2 x3 x4 x5 x6 x7 : Statement (.vcvt x0 x1 x2 x3 x4 x5 x6 x7) := trivial
theorem vq x0 x1 x2 x3 x4 x5 x6 x7 : Statement (.vq x0 x1 x2 x3 x4 x5 x6 x7) := trivial
theorem vcmp x0 x1 x2 x3 x4 x5 : Statement (.vcmp x0 x1 x2 x3 x4 x5) := trivial
theorem vsel x0 x1 x2 x3 x4 x5 : Statement (.vsel x0 x1 x2 x3 x4 x5) := trivial
theorem vand x0 x1 x2 x3 x4 x5 x6 : Statement (.vand x0 x1 x2 x3 x4 x5 x6) := trivial
theorem vor x0 x1 x2 x3 x4 x5 x6 : Statement (.vor x0 x1 x2 x3 x4 x5 x6) := trivial
theorem vxor x0 x1 x2 x3 x4 x5 x6 : Statement (.vxor x0 x1 x2 x3 x4 x5 x6) := trivial
theorem vshl x0 x1 x2 x3 x4 x5 x6 : Statement (.vshl x0 x1 x2 x3 x4 x5 x6) := trivial
theorem vshr x0 x1 x2 x3 x4 x5 x6 : Statement (.vshr x0 x1 x2 x3 x4 x5 x6) := trivial
theorem vsar x0 x1 x2 x3 x4 x5 x6 : Statement (.vsar x0 x1 x2 x3 x4 x5 x6) := trivial
theorem viadd x0 x1 x2 x3 x4 x5 x6 x7 : Statement (.viadd x0 x1 x2 x3 x4 x5 x6 x7) := trivial
theorem visub x0 x1 x2 x3 x4 x5 x6 x7 : Statement (.visub x0 x1 x2 x3 x4 x5 x6 x7) := trivial
theorem vimul x0 x1 x2 x3 x4 x5 x6 x7 : Statement (.vimul x0 x1 x2 x3 x4 x5 x6 x7) := trivial
theorem vimin x0 x1 x2 x3 x4 x5 x6 x7 : Statement (.vimin x0 x1 x2 x3 x4 x5 x6 x7) := trivial
theorem vimax x0 x1 x2 x3 x4 x5 x6 x7 : Statement (.vimax x0 x1 x2 x3 x4 x5 x6 x7) := trivial
theorem vred x0 x1 x2 x3 x4 x5 : Statement (.vred x0 x1 x2 x3 x4 x5) := trivial
theorem vscan x0 x1 x2 x3 x4 x5 : Statement (.vscan x0 x1 x2 x3 x4 x5) := trivial
theorem vperm x0 x1 x2 x3 x4 x5 x6 : Statement (.vperm x0 x1 x2 x3 x4 x5 x6) := trivial
theorem vthr x0 x1 x2 x3 x4 x5 x6 : Statement (.vthr x0 x1 x2 x3 x4 x5 x6) := trivial
theorem vtopk x0 x1 x2 x3 x4 x5 x6 : Statement (.vtopk x0 x1 x2 x3 x4 x5 x6) := trivial
theorem pand x0 x1 x2 x3 : Statement (.pand x0 x1 x2 x3) := trivial
theorem por x0 x1 x2 x3 : Statement (.por x0 x1 x2 x3) := trivial
theorem pxor x0 x1 x2 x3 : Statement (.pxor x0 x1 x2 x3) := trivial
theorem pnot x0 x1 x2 : Statement (.pnot x0 x1 x2) := trivial
theorem pset x0 x1 x2 x3 : Statement (.pset x0 x1 x2 x3) := trivial
theorem drain x0 x1 x2 x3 x4 x5 x6 x7 x8 x9 x10 x11 : Statement (.drain x0 x1 x2 x3 x4 x5 x6 x7 x8 x9 x10 x11) := trivial
theorem drainQ x0 x1 x2 x3 x4 x5 x6 x7 x8 x9 x10 x11 x12 x13 : Statement (.drainQ x0 x1 x2 x3 x4 x5 x6 x7 x8 x9 x10 x11 x12 x13) := trivial
theorem tst x0 x1 x2 x3 x4 : Statement (.tst x0 x1 x2 x3 x4) := trivial
theorem scatter x0 x1 x2 x3 x4 x5 x6 x7 x8 x9 x10 x11 x12 x13 : Statement (.scatter x0 x1 x2 x3 x4 x5 x6 x7 x8 x9 x10 x11 x12 x13) := trivial
theorem rwrAddF32 x0 x1 x2 x3 x4 x5 x6 x7 x8 x9 : Statement (.rwrAddF32 x0 x1 x2 x3 x4 x5 x6 x7 x8 x9) := trivial
theorem rwrAddBf16 x0 x1 x2 x3 x4 x5 x6 x7 x8 x9 : Statement (.rwrAddBf16 x0 x1 x2 x3 x4 x5 x6 x7 x8 x9) := trivial
theorem rwrMaxF32 x0 x1 x2 x3 x4 x5 x6 x7 x8 x9 : Statement (.rwrMaxF32 x0 x1 x2 x3 x4 x5 x6 x7 x8 x9) := trivial
theorem rwrAddI32 x0 x1 x2 x3 x4 x5 x6 x7 x8 x9 : Statement (.rwrAddI32 x0 x1 x2 x3 x4 x5 x6 x7 x8 x9) := trivial
theorem instructionLineFetch x0 x1 : Statement (.instructionLineFetch x0 x1) := trivial
theorem linePassOver x0 x1 : Statement (.linePassOver x0 x1) := trivial
theorem heldLaneResume x0 : Statement (.heldLaneResume x0) := trivial
theorem loopLineEnd x0 x1 : Statement (.loopLineEnd x0 x1) := trivial
theorem joinComplete x0 : Statement (.joinComplete x0) := trivial
theorem scalarResultReady x0 : Statement (.scalarResultReady x0) := trivial
theorem vectorResultReady x0 : Statement (.vectorResultReady x0) := trivial
theorem loadReply x0 : Statement (.loadReply x0) := trivial
theorem amoResultReturn x0 : Statement (.amoResultReturn x0) := trivial
theorem roundClose x0 : Statement (.roundClose x0) := trivial
theorem tldLineArrival x0 x1 : Statement (.tldLineArrival x0 x1) := trivial
theorem planeLineArrival x0 : Statement (.planeLineArrival x0) := trivial
theorem bfxcfgRecordLoaded x0 : Statement (.bfxcfgRecordLoaded x0) := trivial
theorem tileLookupComplete x0 x1 : Statement (.tileLookupComplete x0 x1) := trivial
theorem pageWalkComplete x0 : Statement (.pageWalkComplete x0) := trivial
theorem deferredReleaseEffect x0 x1 : Statement (.deferredReleaseEffect x0 x1) := trivial
theorem groupBarrierUpdate x0 : Statement (.groupBarrierUpdate x0) := trivial
theorem groupBarrierPollReply x0 : Statement (.groupBarrierPollReply x0) := trivial
theorem markerRetire x0 x1 : Statement (.markerRetire x0 x1) := trivial
theorem rendezvousFire x0 x1 : Statement (.rendezvousFire x0 x1) := trivial
theorem engineCommandDispatch x0 x1 : Statement (.engineCommandDispatch x0 x1) := trivial
theorem engineCommandCompletion x0 : Statement (.engineCommandCompletion x0) := trivial
theorem gatherExecute x0 : Statement (.gatherExecute x0) := trivial
theorem scatterExecute x0 : Statement (.scatterExecute x0) := trivial
theorem xferExecute x0 : Statement (.xferExecute x0) := trivial
theorem stashEncode x0 : Statement (.stashEncode x0) := trivial
theorem restoreDecode x0 : Statement (.restoreDecode x0) := trivial
theorem reduceRequestApply x0 : Statement (.reduceRequestApply x0) := trivial
theorem xchgPStart x0 : Statement (.xchgPStart x0) := trivial
theorem xchgDStart x0 : Statement (.xchgDStart x0) := trivial
theorem exchangeLineSwap x0 : Statement (.exchangeLineSwap x0) := trivial
theorem exchangeCommit x0 : Statement (.exchangeCommit x0) := trivial
theorem exchangeRollbackStart x0 : Statement (.exchangeRollbackStart x0) := trivial
theorem rollbackLineSwap x0 : Statement (.rollbackLineSwap x0) := trivial
theorem rollbackComplete x0 : Statement (.rollbackComplete x0) := trivial
theorem rollbackLinkLost x0 : Statement (.rollbackLinkLost x0) := trivial
theorem idleScrubWrite x0 x1 : Statement (.idleScrubWrite x0 x1) := trivial
theorem matrixRowEntry x0 : Statement (.matrixRowEntry x0) := trivial
theorem rampUpEnd x0 : Statement (.rampUpEnd x0) := trivial
theorem slotRowAdd x0 : Statement (.slotRowAdd x0) := trivial
theorem mflipEffect x0 : Statement (.mflipEffect x0) := trivial
theorem mzeroEffect x0 : Statement (.mzeroEffect x0) := trivial
theorem slotSpill x0 : Statement (.slotSpill x0) := trivial
theorem bindStart x0 : Statement (.bindStart x0) := trivial
theorem bindRowWrite x0 : Statement (.bindRowWrite x0) := trivial
theorem arrayCold x0 : Statement (.arrayCold x0) := trivial
theorem hintTargetReached x0 : Statement (.hintTargetReached x0) := trivial
theorem claimComplete x0 : Statement (.claimComplete x0) := trivial
theorem drainRowRead x0 : Statement (.drainRowRead x0) := trivial
theorem drainDelivery x0 : Statement (.drainDelivery x0) := trivial
theorem writeBufferLineWrite x0 : Statement (.writeBufferLineWrite x0) := trivial
theorem remoteLineWrite x0 : Statement (.remoteLineWrite x0) := trivial
theorem freezeWatchdogExpiry x0 : Statement (.freezeWatchdogExpiry x0) := trivial
theorem waitWatchdogExpiry x0 x1 : Statement (.waitWatchdogExpiry x0 x1) := trivial
theorem scheduleSlip x0 : Statement (.scheduleSlip x0) := trivial
theorem taskStart x0 : Statement (.taskStart x0) := trivial
theorem taskCommit x0 : Statement (.taskCommit x0) := trivial
theorem launchTake x0 : Statement (.launchTake x0) := trivial
theorem launchAgingTick x0 : Statement (.launchAgingTick x0) := trivial
theorem launchQueuePush x0 x1 : Statement (.launchQueuePush x0 x1) := trivial
theorem launchQueueOpen x0 : Statement (.launchQueueOpen x0) := trivial
theorem launchQueueQuiesce x0 : Statement (.launchQueueQuiesce x0) := trivial
theorem launchQueueDisable x0 : Statement (.launchQueueDisable x0) := trivial
theorem trapRecordPlace : Statement (.trapRecordPlace) := trivial
theorem trapqPop x0 : Statement (.trapqPop x0) := trivial
theorem yardmasterTrapEntry x0 : Statement (.yardmasterTrapEntry x0) := trivial
theorem heartbeat x0 : Statement (.heartbeat x0) := trivial
theorem heartbeatLimitExpiry x0 : Statement (.heartbeatLimitExpiry x0) := trivial
theorem snapshotStore x0 x1 : Statement (.snapshotStore x0 x1) := trivial
theorem snapshotLoad x0 x1 : Statement (.snapshotLoad x0 x1) := trivial
theorem snapshotEvict x0 : Statement (.snapshotEvict x0) := trivial
theorem snapshotClear x0 : Statement (.snapshotClear x0) := trivial
theorem serviceXchgP x0 : Statement (.serviceXchgP x0) := trivial
theorem serviceXchgD x0 : Statement (.serviceXchgD x0) := trivial
theorem grant x0 : Statement (.grant x0) := trivial
theorem tlbinvAll x0 : Statement (.tlbinvAll x0) := trivial
theorem tlbinvAsid x0 : Statement (.tlbinvAsid x0) := trivial
theorem tlbinvPage x0 : Statement (.tlbinvPage x0) := trivial
theorem tlbInvalidationDone : Statement (.tlbInvalidationDone) := trivial
theorem granuleMigrationStart x0 : Statement (.granuleMigrationStart x0) := trivial
theorem migrationCopyComplete : Statement (.migrationCopyComplete) := trivial
theorem migrationFlip : Statement (.migrationFlip) := trivial
theorem migrationAbandon : Statement (.migrationAbandon) := trivial
theorem rtsVerify : Statement (.rtsVerify) := trivial
theorem rtsExtend : Statement (.rtsExtend) := trivial
theorem rtsSwitch : Statement (.rtsSwitch) := trivial
theorem rtsRequestComplete : Statement (.rtsRequestComplete) := trivial
theorem contextCreate : Statement (.contextCreate) := trivial
theorem contextDestroy : Statement (.contextDestroy) := trivial
theorem contextDestructionComplete x0 : Statement (.contextDestructionComplete x0) := trivial
theorem groupBind : Statement (.groupBind) := trivial
theorem groupRebind : Statement (.groupRebind) := trivial
theorem groupResume : Statement (.groupResume) := trivial
theorem groupRelease : Statement (.groupRelease) := trivial
theorem launchQueueAssign : Statement (.launchQueueAssign) := trivial
theorem trapReply : Statement (.trapReply) := trivial
theorem vylumEnable x0 : Statement (.vylumEnable x0) := trivial
theorem vylumRetrain x0 : Statement (.vylumRetrain x0) := trivial
theorem vylumDisable x0 : Statement (.vylumDisable x0) := trivial
theorem linkTrained x0 x1 x2 x3 x4 : Statement (.linkTrained x0 x1 x2 x3 x4) := trivial
theorem linkTrainingTimeout x0 : Statement (.linkTrainingTimeout x0) := trivial
theorem linkRetrainTimeout x0 : Statement (.linkRetrainTimeout x0) := trivial
theorem errorBurst x0 : Statement (.errorBurst x0) := trivial
theorem laneLockLoss x0 : Statement (.laneLockLoss x0) := trivial
theorem flitReceive x0 x1 : Statement (.flitReceive x0 x1) := trivial
theorem nakReceive x0 x1 : Statement (.nakReceive x0 x1) := trivial
theorem peerRequestReceive x0 x1 : Statement (.peerRequestReceive x0 x1) := trivial
theorem portLinkStateChange x0 x1 : Statement (.portLinkStateChange x0 x1) := trivial
theorem pcieMemoryRequest x0 : Statement (.pcieMemoryRequest x0) := trivial
theorem shedLost x0 : Statement (.shedLost x0) := trivial
theorem packageReset : Statement (.packageReset) := trivial
theorem spdmRequest x0 x1 : Statement (.spdmRequest x0 x1) := trivial
theorem registerWrite x0 x1 x2 x3 x4 : Statement (.registerWrite x0 x1 x2 x3 x4) := trivial
theorem applicationCoreAccess x0 : Statement (.applicationCoreAccess x0) := trivial
theorem storeResolved x0 : Statement (.storeResolved x0) := trivial
theorem softError x0 x1 : Statement (.softError x0 x1) := trivial
theorem walkerResume x0 : Statement (.walkerResume x0) := trivial
theorem serialisedReRun x0 : Statement (.serialisedReRun x0) := trivial
theorem phaseRollBack x0 : Statement (.phaseRollBack x0) := trivial
theorem launchAbort x0 x1 : Statement (.launchAbort x0 x1) := trivial
theorem dvfs x0 x1 : Statement (.dvfs x0 x1) := trivial

end Sys2Proof.Laws.Words
end

