-- ==== Sys2Proof/Tests/Slice0.lean ====
section
/-! SUPPORT. The model's own tests: ill-formed terms that WellFormed refuses, words of the encoding tables decoded, one step
of some instructions against the spec's tables and examples, and a witness for the hypotheses of every statement. -/

namespace Sys2Proof.Tests

set_option Elab.async false

open Sys2Proof Sys2Proof.Machine Sys2Proof.Claims

/-! ### Well-formed and ill-formed terms -/

/-- Terms that R74 to R82 refuse in stream C, one for each check. -/
def illC : List Instr := [
  .loop 0 6 0 0 0 1, .loop 0 0 0 0 0 0, .lstr 0 0 0 7 0 0, .fence 0 3 0 1 0, .fence 0 0 1 1 0, .fork 0 0 0 0 0,
  .qpush 0 13 0, .qpop 0 15 0, .qstat 0 14 0, .cont 0 0 30, .bqz 0 13 0, .bqnz 0 22 0, .tksig 0 6, .tkwait 0 7,
  .barInit 0 0 0 0, .hint 0 0 3, .fork 0 1 0 1 0, .loop 0 0 1 0 1 1, .loop 0 0 0 1 0 1, .lstr 0 0 0 0 1 0, .amov 0 0 0 0 0,
  .vadd 0 0 0 0 0 0 0, .drain 0 0 0 0 0 0 0 0 0 0 0 0, .amoAdd 0 0 0 0 0 0 3, .amoAnd 0 0 0 0 0 0 3, .amoOr 0 0 0 0 0 0 3,
  .amoXor 0 0 0 0 0 0 3, .amoMin 0 0 0 0 0 0 3, .amoMax 0 0 0 0 0 0 3, .amoSwp 0 0 0 0 0 0 3, .amoCas 0 0 0 0 0 0 3,
  .amoAddd 0 0 0 0 0 0 2, .amoNull 0 0 0 0 0 2]

theorem test_ill_formed_c : ∀ i ∈ illC, i.wf .c = false := by decide

/-- Terms that R74 to R82 refuse in stream A, one for each check. -/
def illA : List Instr := [
  .aadd 0 0 0 0 0, .aadd 0 16 0 0 1, .aaddi 0 0 30 0 0, .amov 0 0 23 0 0, .aset 0 29 0 0 0 0 0, .ali 0 16 0 0 0,
  .tld 0 13 0 0 0, .tld 0 11 0 0 1, .tldT 0 13 0 0, .tldb 0 13 0 0 0, .bfxcfg 0 0 31 0, .mlds 0 0 0 3 0, .mlds 0 0 0 1 4,
  .gather 0 0 5 0 0 0 0 0 0 0 1, .gather 0 0 0 0 0 0 0 0 0 0 0, .xchgP 0 0 0 0 0 6 0 0 1, .xchgD 0 0 0 0 0 0 6 0 1,
  .xfer 0 0 0 0 0 0 0 0 0 0, .stash 0 0 0 0 0 0 6 0 0 1, .restore 0 0 0 0 0 0 0 6 0 1, .amov 0 0 1 1 0,
  .aset 0 0 1 0 0 1 0, .add 0 0 0 0, .tend 0]

theorem test_ill_formed_a : ∀ i ∈ illA, i.wf .a = false := by decide

/-- Terms that R74 to R82 refuse in stream K, one for each check. -/
def illK : List Instr := [
  .mstream 0 0 0 4 0, .mstream 0 0 32 0 32, .mstreamIdx 0 13 0 0 0, .bind 0 13 0, .slotcfg 0 63 65, .slotmapRead 0 8 0,
  .vpop 0 0 13, .vpopK 0 8 0, .vpush 0 13 0, .vpushOq0 0 0 8, .vmovK 0 8 0 0 0, .vbcast 0 0 8 0 0 0,
  .vbcastLane 0 0 0 23 0 0 0, .vliK 0 16 0, .vadd 0 0 0 0 0 0 3, .vsub 0 0 0 0 0 0 3, .vmul 0 0 0 0 0 0 3,
  .vfma 0 0 0 0 0 0 3, .vfms 0 0 0 0 0 0 3, .vnfma 0 0 0 0 0 0 3, .vmin 0 0 0 0 0 0 3, .vmax 0 0 0 0 0 0 3,
  .vabs 0 0 0 0 0 3, .vneg 0 0 0 0 0 3, .vrcp 0 0 0 0 0 3, .vrsq 0 0 0 0 0 3, .vexp2 0 0 0 0 0 3, .vlog2 0 0 0 0 0 3,
  .vcvt 0 0 0 0 0 1 0 0, .vq 0 0 0 0 0 0 0 2, .vq 0 0 0 8 0 0 1 3, .vcmp 0 8 0 0 0 0, .vcmp 0 0 0 0 0 6,
  .vshl 0 0 0 0 0 0 2, .vshr 0 0 0 0 0 0 2, .vsar 0 0 0 0 0 0 2, .viadd 0 0 0 0 0 0 0 2, .visub 0 0 0 0 0 0 0 2,
  .vimul 0 0 0 0 0 0 0 2, .vimin 0 0 0 0 0 0 0 2, .vimax 0 0 0 0 0 0 0 2, .vred 0 0 0 3 0 0, .vscan 0 0 0 0 0 6,
  .vthr 0 0 0 0 0 0 6, .vtopk 0 0 0 0 0 0 1, .pand 0 0 8 0, .por 0 0 0 8, .pxor 0 8 0 0, .pnot 0 0 8, .pset 0 0 0 3,
  .pset 0 0 1 0, .lstr 0 0 0 0 1 0, .lstr 0 8 0 0 0 0, .ldD 0 0 0 0]

theorem test_ill_formed_k : ∀ i ∈ illK, i.wf .k = false := by decide

/-- Terms that R74 to R82 refuse in stream D, one for each check. -/
def illD : List Instr := [
  .drain 0 0 0 19 0 0 0 0 0 0 0 0, .drain 0 0 0 0 0 0 0 63 1 0 0 0, .drainQ 0 0 0 0 1 0 0 0 16 0 0 0 0 0,
  .drainQ 0 0 0 0 0 1 0 0 0 0 0 0 0 0, .drainQ 0 0 0 0 1 0 0 0 0 31 0 1 0 0, .drain 0 0 0 0 0 0 0 0 0 0 0 1,
  .drain 0 0 0 10 0 0 0 0 0 0 1 0, .tst 0 13 0 0 0, .scatter 0 0 0 5 0 0 0 0 0 0 0 1 0 0, .rwrAddF32 0 0 64 0 0 0 0 1 1 0,
  .rwrMaxF32 0 0 0 0 0 0 0 1 0 0, .rwrAddI32 0 13 0 0 0 0 0 1 1 0, .rwrAddBf16 0 0 0 0 0 6 0 1 1 0, .lstr 0 22 0 0 0 0,
  .mflip 0]

theorem test_ill_formed_d : ∀ i ∈ illD, i.wf .d = false := by decide

/-- Terms that stream C accepts. -/
def wellC : List Instr := [
  .loop 0 0 0 0 0 1, .lstr 0 0 0 0 0 0, .fence 0 0 0 1 0, .fork 0 1 0 0 0, .qpush 0 0 0, .qpop 0 0 0, .qstat 0 0 0,
  .cont 0 0 0, .bqz 0 0 0, .bqnz 0 0 0, .tksig 0 0, .tkwait 0 0, .barInit 0 0 1 0, .hint 0 0 0, .amoAdd 0 0 0 0 0 0 1,
  .amoAnd 0 0 0 0 0 0 1, .amoOr 0 0 0 0 0 0 1, .amoXor 0 0 0 0 0 0 1, .amoMin 0 0 0 0 0 0 1, .amoMax 0 0 0 0 0 0 1,
  .amoSwp 0 0 0 0 0 0 1, .amoCas 0 0 0 0 0 0 1, .amoAddd 0 0 0 0 0 0 1, .amoNull 0 0 0 0 0 1]

theorem test_well_formed_c : ∀ i ∈ wellC, i.wf .c = true := by decide

/-- Terms that stream A accepts. -/
def wellA : List Instr := [
  .aadd 0 0 0 0 1, .aaddi 0 0 0 0 0, .amov 0 0 0 0 0, .aset 0 0 0 0 0 0 0, .ali 0 0 0 0 0, .tld 0 0 0 0 0, .tldT 0 0 0 0,
  .tldb 0 0 0 0 0, .bfxcfg 0 0 0 0, .mlds 0 0 0 0 0, .gather 0 0 0 0 0 0 0 0 0 0 1, .xchgP 0 0 0 0 0 0 0 0 1,
  .xchgD 0 0 0 0 0 0 0 0 1, .xfer 0 0 0 0 0 0 0 0 0 1, .stash 0 0 0 0 0 0 0 0 0 1, .restore 0 0 0 0 0 0 0 0 0 1]

theorem test_well_formed_a : ∀ i ∈ wellA, i.wf .a = true := by decide

/-- Terms that stream K accepts. -/
def wellK : List Instr := [
  .mstream 0 0 0 0 0, .mstreamIdx 0 0 0 0 0, .bind 0 0 0, .slotcfg 0 0 0, .slotmapRead 0 0 0, .vpop 0 0 0, .vpopK 0 0 0,
  .vpush 0 0 0, .vpushOq0 0 0 0, .vmovK 0 0 0 0 0, .vbcast 0 0 0 0 0 0, .vbcastLane 0 0 0 0 0 0 0, .vliK 0 0 0,
  .vadd 0 0 0 0 0 0 0, .vsub 0 0 0 0 0 0 0, .vmul 0 0 0 0 0 0 0, .vfma 0 0 0 0 0 0 0, .vfms 0 0 0 0 0 0 0,
  .vnfma 0 0 0 0 0 0 0, .vmin 0 0 0 0 0 0 0, .vmax 0 0 0 0 0 0 0, .vabs 0 0 0 0 0 0, .vneg 0 0 0 0 0 0, .vrcp 0 0 0 0 0 0,
  .vrsq 0 0 0 0 0 0, .vexp2 0 0 0 0 0 0, .vlog2 0 0 0 0 0 0, .vcvt 0 0 0 0 0 0 0 0, .vq 0 0 0 0 0 0 0 3, .vcmp 0 0 0 0 0 0,
  .vshl 0 0 0 0 0 0 3, .vshr 0 0 0 0 0 0 3, .vsar 0 0 0 0 0 0 3, .viadd 0 0 0 0 0 0 0 3, .visub 0 0 0 0 0 0 0 3,
  .vimul 0 0 0 0 0 0 0 3, .vimin 0 0 0 0 0 0 0 3, .vimax 0 0 0 0 0 0 0 3, .vred 0 0 0 0 0 0, .vscan 0 0 0 0 0 0,
  .vthr 0 0 0 0 0 0 0, .vtopk 0 0 0 0 0 0 0, .pand 0 0 0 0, .por 0 0 0 0, .pxor 0 0 0 0, .pnot 0 0 0, .pset 0 0 0 0,
  .lstr 0 0 0 0 0 0]

theorem test_well_formed_k : ∀ i ∈ wellK, i.wf .k = true := by decide

/-- Terms that stream D accepts. -/
def wellD : List Instr := [
  .drain 0 0 0 0 0 0 0 0 0 0 0 0, .drainQ 0 0 0 0 0 0 0 0 0 0 0 0 0 0, .tst 0 0 0 0 0,
  .scatter 0 0 0 0 0 0 0 0 0 0 0 1 0 0, .rwrAddF32 0 0 0 0 0 0 0 1 1 0, .rwrMaxF32 0 0 0 0 0 0 0 1 1 0,
  .rwrAddI32 0 0 0 0 0 0 0 1 1 0, .rwrAddBf16 0 0 0 0 0 0 0 1 1 0, .lstr 0 0 0 0 0 0]

theorem test_well_formed_d : ∀ i ∈ wellD, i.wf .d = true := by decide

/-! ### Words of the spec's own examples, and words written out from its tables -/

/-- 04: `addi s1, s1, -1`, `bne s1, s0, top`, `addi s2, s2, 3`. 06: `add s3, s1, s2`, `li s3, 1`, the LOOP and LSTR of the joined
loop, `addi s4, s4, 1, when=last`. -/
theorem test_words_c : decode .c 0x04043FFF 0 = .ok (.addi 0 1 1 0x1FFF) ∧ decode .c 0x62040000 0 = .ok (.bne 0 1 0 0) ∧
    decode .c 0x04084003 0 = .ok (.addi 0 2 2 3) ∧ decode .c 0x020C2200 0 = .ok (.add 0 3 1 2) ∧
    decode .c 0x160C0001 0 = .ok (.li 0 3 0 1) ∧ decode .c 0xC0000000 0x00040001 = .ok (.loop 0 0 0 0 4 1) ∧
    decode .c 0xC20C0000 0x0000000A = .ok (.lstr 0 3 0 0 0 10) ∧ decode .c 0x05108001 0 = .ok (.addi 2 4 4 1) ∧
    decode .c 0x50148628 0 = .ok (.amoAddd 0 5 4 6 2 2 0) := by decide

/-- 07: three lines of tensor loads, and the XCHG.D of R45; 11: the XCHG.P of the example; 13: STASH. -/
theorem test_words_a : decode .a 0x20004000 0 = .ok (.tld 0 0 2 0 0) ∧ decode .a 0x20084201 0 = .ok (.tld 0 1 2 1 1) ∧
    decode .a 0x04000840 0 = .ok (.aaddi 0 0 0 1 0x40) ∧ decode .a 0x62006200 0x10B82040 = .ok (.xchgD 0 3 1 4 2 7 0 2 4) ∧
    decode .a 0x6000E200 0x24BF1010 = .ok (.xchgP 0 7 1 9 2 7 7 1 1) ∧
    decode .a 0x66006200 0x20BF4011 = .ok (.stash 0 1 3 1 8 2 7 7 4 1) := by decide

/-- 08: the encodings worked from the table; 09: VADD, VTOPK, VPERM, PSET, VLI and VRED; 12: SLOTCFG. -/
theorem test_words_k : decode .k 0x02000000 0 = .ok (.mflip 0) ∧ decode .k 0x0400001F 0 = .ok (.mstream 0 0 0 0 31) ∧
    decode .k 0x0A192000 0 = .ok (.bind 0 3 9) ∧ decode .k 0x0C0007C0 0 = .ok (.slotcfg 0 15 64) ∧
    decode .k 0x0C0000E4 0 = .ok (.slotcfg 0 1 100) ∧ decode .k 0xFC000028 0 = .ok (.mhint 0 40) ∧
    decode .k 0x500443A1 0 = .ok (.vadd 0 1 2 3 1 2 1) ∧ decode .k 0xA8102208 0 = .ok (.vtopk 0 4 1 2 0 1 0) ∧
    decode .k 0xA4142400 0 = .ok (.vperm 0 5 1 4 0 0 0) ∧ decode .k 0xB8040002 0 = .ok (.pset 0 1 0 2) ∧
    decode .k 0x48000008 8 = .ok (.vliK 0 0 8) ∧ decode .k 0xA0040000 0 = .ok (.vred 0 1 0 0 0 0) := by decide

/-- 08: MSTREAM.IDX and SLOTMAP; 09: the VCVT of the example. -/
theorem test_words_k2 : decode .k 0x0608008F 0 = .ok (.mstreamIdx 0 1 0 2 15) ∧ decode .k 0x100C0007 0 = .ok (.slotmapRead 0 3 7) ∧
    decode .k 0x6C180410 0 = .ok (.vcvt 0 6 0 1 0 1 0 0) := by decide

/-- 10: `drain t2[d0], 0, 0, 32, f64, bf16` and the MX drain. -/
theorem test_words_d : decode .d 0x02004003 0x0007C000 = .ok (.drain 0 2 0 3 0 0 0 0 31 0 0 0) ∧
    decode .d 0x04008206 0x0C004052 = .ok (.drainQ 0 4 1 6 0 0 0 3 0 1 0 0 5 2) := by decide

/-- The common block (R81) in every stream: TKSIG (0x66), FSET (0x69, FC 0), TRAP (0x7F), NOP; the yardmaster's RTT (0x58) and
WFI (0x59) in C. -/
theorem test_words_common : (∀ st, decode st 0xCC000003 0 = .ok (.tksig 0 3) ∧ decode st 0xD2000005 0 = .ok (.fset 0 5) ∧
    decode st 0xFE00002A 0 = .ok (.trap 0 42) ∧ decode st 0 0 = .ok .nop) ∧
    decode .c 0xB0000000 0 = .ok (.rtt 0) ∧ decode .c 0xB2000000 0 = .ok (.wfi 0) := by
  refine ⟨fun st => by cases st <;> decide, by decide, by decide⟩

/-- R82, R83: what the decoder refuses, by name. -/
theorem test_words_refused : decode .c 0x00000001 0 = .reserved ∧ decode .a 0x14000000 0 = .illegal ∧
    decode .c 0xCC000007 0 = .illegal ∧ decode .c 0xCC000013 0 = .reserved ∧ decode .a 0xDE000000 0 = .illegal := by decide

/-- R4: the first byte is the least significant. -/
theorem test_bytes : decodeBytes .c [0x00, 0x22, 0x0C, 0x02] = .ok (.add 0 3 1 2) ∧
    decodeTableWord 32 0x020C2200 = some (.add 0 3 1 2) := by decide

/-! ### One step of some instructions -/

/-- Core 0 acts for C; s1 and s2 hold two values. -/
def withS (a b : DWord) : State := ({} : State).setCr 0 { regs := { s := ((Vector.replicate 32 0).set 1 a).set 2 b } }

/-- s3 after an instruction, a result that stands pending among it. -/
def s3After (i : Instr) (s : State) : Option DWord :=
  match exec i s with
  | .next t => match t.me.pend with
    | x :: _ => some (x.val.setWidth 64)
    | [] => some (t.me.regs.s.getD 3 0)
  | _ => none

/-- R112: the corners of division; R111: a wrapping sum, an arithmetic shift. -/
theorem test_alu : s3After (.add 0 3 1 2) (withS 0xFFFFFFFFFFFFFFFF 2) = some 1 ∧
    s3After (.sar 0 3 1 2) (withS 0x8000000000000000 63) = some 0xFFFFFFFFFFFFFFFF ∧
    s3After (.sltu 0 3 1 2) (withS 1 0xFFFFFFFFFFFFFFFF) = some 1 := by decide +kernel

/-- 04: bundle 1 of the joined loop: s1 becomes 2, s2 becomes 3, and the branch is taken to the line itself. -/
theorem test_joined_line :
    let v : ILine := 0x04084003_62040000_04043FFF_00000111#128 |>.setWidth 256
    let s : State := ({ turn := .issue 0 .c } : State).setCr 0 { task := some {}, c := { line := 0x40, buf := some v }, regs := { s := (Vector.replicate 32 0).set 1 3 } }
    ∃ t, step s = .next t ∧ (t.cr 0).regs.s[1] = 2 ∧ (t.cr 0).regs.s[2] = 3 ∧ (t.cr 0).c.line = 0x40 := by
  refine ⟨_, rfl, by decide +kernel, by decide +kernel, by decide +kernel⟩

/-- A pending scalar result that is due. -/
def pending : State := ({} : State).setCr 0 { pend := [⟨.s 3, 7, 2, 0⟩], rclk := 5 }

theorem witness_AluRegister : ∃ x ∈ aluOps, ∃ s : State, Can (x.1 0 3 1 2) 0 s ∧ Free s (.s 1) ∧ Free s (.s 2) :=
  ⟨_, List.mem_cons_self, {}, by decide⟩

/-- A core whose s1 and s2 hold the operands of a division. -/
def dividing (a b : DWord) : State :=
  ({} : State).setCr 0 { regs := { s := ((Vector.replicate 32 0).setIfInBounds 1 a).setIfInBounds 2 b } }

theorem witness_AluRegister_division :
    (dividing 5 0).me.getS 2 = 0 ∧ Free (dividing 5 0) (.s 1) ∧ Free (dividing 5 0) (.s 2) ∧
    Can (.div 0 3 1 2) 0 (dividing 5 0) ∧ Can (.remu 0 3 1 2) 0 (dividing 5 0) ∧
    (dividing 0x8000000000000000 0xFFFFFFFFFFFFFFFF).me.getS 1 = 0x8000000000000000 ∧
    (dividing 0x8000000000000000 0xFFFFFFFFFFFFFFFF).me.getS 2 = 0xFFFFFFFFFFFFFFFF ∧
    Can (.rem 0 3 1 2) 0 (dividing 0x8000000000000000 0xFFFFFFFFFFFFFFFF) := by decide +kernel

theorem witness_AluRegister_traps : (Instr.div 0 3 1 2).wf .c = true ∧ major ((encode (.div 0 3 1 2)).headD 0) = 1 ∧
    ({} : State).refusal (.div 0 3 1 2) = none := by decide

theorem witness_AluImmediate_imm : ∃ x ∈ immOps, ∃ s : State, Can (x.1 0 3 1 0x1FFF) 0 s ∧ Free s (.s 1) :=
  ⟨_, List.mem_cons_self, {}, by decide⟩

theorem witness_AluImmediate_shift : ∃ x ∈ shiftOps, ∃ s : State, Can (x.1 0 3 1 63) 0 s ∧ Free s (.s 1) :=
  ⟨_, List.mem_cons_self, {}, by decide⟩

theorem witness_AluImmediate_count : ∃ x ∈ countOps, ∃ s : State, Can (x.1 0 3 1) 0 s ∧ Free s (.s 1) :=
  ⟨_, List.mem_cons_self, {}, by decide⟩

theorem witness_AluImmediate_li : Can (.li 0 7 0x1F 0) 0 {} := by decide

theorem witness_ResultReady :
    (pending.cr 0).pend.find? (fun x => x.reg.scalar = true && x.ready ≤ (pending.cr 0).rclk) = some ⟨.s 3, 7, 2, 0⟩ := rfl

/-- A yardmaster at its own addresses (R376): no translation stands between it and memory. -/
def yard : State := ({ core := 512 } : State).setCr 512 { regs := { s := (Vector.replicate 32 0).setIfInBounds 1 0x80_0000_0100 } }

/-- What stands in flight at the yardmaster: a load, a store and an atomic of one word of yard memory. -/
def flying : State := yard.setCr 512 {
  loads := [{ dst := some 3, va := 0, pa := 0x80_0000_0108, size := 2, signed := true, kind := 0, seq := 0, due := 0, issued := 0 }] }
def storing : State := yard.setCr 512 {
  stores := [{ va := 0, pa := 0x80_0000_0108, size := 4, val := 0x1122334455667788, kind := 0, seq := 0, due := 0 }] }
def adding : State := yard.setCr 512 {
  amos := [
    { op := .add, dst := some 3, va := 0, pa := 0x80_0000_0108, width := 32, b := 7, cmp := 0, stm := 0, scope := 0, kind := 0
      seq := 0, due := 0, round := none, issued := 0 }] }

/-- The word of an atomic lies in memory of the device. -/
def inMemory (va : DWord) (n : Nat) (s : State) : Bool :=
  match resolve .amo va n s with
  | .ok (g, s1) => place g.pa ≠ .control && (s1.peer? g.pa).isNone
  | .error _ => false

theorem witness_LoadIssues : ∃ x ∈ loadOps, Can (x.1 0 3 1 8) 0 yard ∧ Free yard (.s 1) ∧
    (resolve .load (yard.me.getS 1 + signed 8) x.2.1 yard).isOk = true :=
  ⟨_, List.mem_cons_self, by decide⟩

theorem witness_LoadReturns : (flying.cr 512).loads.length = 1 ∧ (flying.cr 512).stores = [] ∧
    (∀ l ∈ (flying.cr 512).loads, l.due ≤ flying.now ∧ l.bound = none ∧ l.failed = false ∧ l.again = false ∧
      (flying.cr 512).restored = false ∧ flying.waitsPort3 (.load 512 l.seq) = false ∧ flying.lineLocked l.pa = false ∧
      l.kind ≠ 2 ∧ (flying.cr 512).free l.access = true ∧ (ctlReg l.pa = none ∧ flying.peer? l.pa = none ∧ flying.farLink l.pa = .ok) ∧
      flying.poisoned l.pa = false ∧ l.size ∈ [1, 2, 4, 8]) := by decide

theorem witness_StoreIssues : ∃ x ∈ storeOps, Can (x.1 0 3 1 8) 0 yard ∧ Free yard (.s 1) ∧ Free yard (.s 3) ∧
    (resolve .store (yard.me.getS 1 + signed 8) x.2 yard).isOk = true :=
  ⟨_, List.mem_cons_self, by decide⟩

theorem witness_StoreLands : (storing.cr 512).stores.length = 1 ∧
    (∀ x ∈ (storing.cr 512).stores, x.due ≤ storing.now ∧ (storing.cr 512).free x.access = true ∧
      (ctlReg x.pa = none ∧ storing.peer? x.pa = none ∧ storing.farLink x.pa = .ok) ∧ storing.scrubbed x.pa = false ∧
      storing.lineLocked x.pa = false ∧ place x.pa = .yard 0) := by decide

theorem witness_MemoryWrite : 0xFC + [1, 2, 3, 4].length ≤ 256 ∧ yard.scrubbed 0x80_0000_00FC = false ∧
    (yard.setTag 0x80_0000_00FC { scrub := 1 }).scrubbed 0x80_0000_00FC = true := by decide

theorem witness_AtomicIssues : ∃ x ∈ amoOps, Can (x.1 0 3 1 2 0 0 2) 0 yard ∧ Free yard (.s 1) ∧ Free yard (.s 2) ∧
    inMemory (yard.me.getS 1) 8 yard = true :=
  ⟨_, List.mem_cons_self, by decide⟩

theorem witness_AtomicResult : (adding.cr 512).amos.length = 1 ∧
    (∀ r ∈ (adding.cr 512).amos, r.due ≤ adding.now ∧ r.round = none ∧ r.late = .here ∧ r.failed = false ∧
      (adding.cr 512).free r.access = true ∧ adding.farLink r.pa = .ok ∧ adding.poisoned r.pa = false ∧
      adding.scrubbed r.pa = false ∧ adding.lineLocked r.pa = false ∧ place r.pa = .yard 0 ∧ r.width ∈ [16, 32, 64] ∧ r.b.toNat < 2 ^ r.width ∧ r.cmp.toNat < 2 ^ r.width ∧
      r.pa % (r.width / 8) = 0) := by decide

theorem witness_FencesAct : Can (.fence 0 0 0 7 0) 0 yard ∧ Can (.fence 0 1 0 7 3) 0 yard ∧ Can (.fenceI 0) 0 yard := by decide

/-- Core 0 in forked mode, acting as a stream. -/
def forkedAs (st : Stream) : State := ({ stream := st } : State).setCr 0 { forked := true, task := some {} }

theorem witness_BranchesTransfer : (∃ x ∈ branchOps, Can (x.1 0 1 2 0x1FFF) 0 {} ∧ x.2 (({} : State).me.getS 1) (({} : State).me.getS 2)) ∧
    Free {} (.s 1) ∧ Free {} (.s 2) ∧ Can (.jmpr 0 1) 0 {} ∧ 32 ∣ (({} : State).me.getS 1).toNat ∧ Can (.jmp 0 3) 0 {} :=
  ⟨⟨_, List.mem_cons_self, by decide⟩, by decide⟩

/-- s1 of core 0 is not a line address. -/
def odd : State := ({} : State).setCr 0 { regs := { s := (Vector.replicate 32 0).setIfInBounds 1 33 } }

theorem witness_BranchesTransfer_untaken : Can (.jmpr 0 1) 0 odd ∧ Free odd (.s 1) ∧ ¬ 32 ∣ (odd.me.getS 1).toNat ∧
    odd.me.getS 1 ≠ odd.me.getS 2 := by decide

theorem witness_QueueBranches : Can (.bqz 0 10 1) 0 {} ∧ Can (.bqnz 0 10 1) 0 {} ∧
    ({} : State).stream = queueConsumer 10 ∧ (({} : State).me.q 10).poppable 0 = [] ∧
    ¬ (({} : State).stream = queueProducer 0 ∨ ({} : State).stream = queueConsumer 0) := by decide

theorem witness_QueueBranches_filled :
    let s := ({ now := 1 } : State).setCr 0 { queues := (Vector.replicate 14 {}).setIfInBounds 10 { entries := [⟨some 7, 0, 0, 0⟩] } }
    (s.me.q 10).poppable s.now ≠ [] := by decide

theorem witness_ControlActs : Can .nop 0 {} ∧ Can (.hint 0 1 0) 0 {} ∧ Can (.fork 0 7 1 2 3) 0 {} ∧ Can (.loop 0 5 0 0 0xFFFF 2) 0 {} ∧
    Can (.lstr 0 1 3 5 0 8) 0 {} ∧ Can (.tend 0) 0 {} ∧ Can (.trap 0 255) 0 {} ∧ ({} : State).me.forked = false := by decide

theorem witness_ControlActs_forked : Can (.join 0 7) 0 (forkedAs .a) ∧ (forkedAs .a).me.forked = true ∧
    Can (.loop 0 0 1 3 0 2) 0 (forkedAs .k) ∧ Free (forkedAs .k) (.k 3) ∧
    (allStreams.all fun st => ((forkedAs .a).me.st st).jn.isNone) = true := by decide

/-- A forked stream A with a line of another stream, a held joined line, a line at the end of a loop, and an arrived join. -/
def atLine : State := ({} : State).setCr 0 { forked := true, task := some {}, a := { buf := some 1 } }
def heldAt : State := ({} : State).setCr 0 { heldLine := true, c := { lane := 2, wait := some (.sameLine (.s 3)) } }
def looping (index : Word) : State := ({} : State).setCr 0
  { c := { lane := 8, line := 64, loops := (Vector.replicate 6 {}).setIfInBounds 1 ⟨true, 3, index, 0, 64, []⟩ } }
def joined : State := ({} : State).setCr 0
  { forked := true, task := some {}, c := { jn := some 2, line := 32 }, a := { jn := some 2 }, k := { out := true }, d := { out := true } }

/-- Core 1 held by FREEZE, as yardmaster 0 sees it: by its own FREEZE or by an earlier one. -/
def frozen (asked : Bool) : State := (yard.setMe { yard.me with regs := { s := (Vector.replicate 32 0).setIfInBounds 1 1 } }).setCr 1
  { freezeHeld := true, freezeAsk := asked }

theorem witness_LinesEnd : ((atLine.cr 0).st .a).buf.isSome = true ∧ atLine.runs 0 .a = true ∧ ownLanes 1 .a = [] ∧
    (heldAt.cr 0).c.wait = some (.sameLine (.s 3)) ∧ (heldAt.cr 0).regWait (.s 3) = none := by decide

theorem witness_LinesEnd_loop (i : Word) : ((looping i).cr 0).c.ending = [1] ∧ ((looping i).cr 0).strides .c 1 = [] ∧
    ((looping i).cr 0).c.loops[1]? = some ⟨true, 3, i, 0, 64, []⟩ := ⟨rfl, rfl, rfl⟩

theorem witness_LinesEnd_join : (joined.cr 0).clocked = true ∧ ∀ st ∈ [Stream.c, .a, .k, .d],
    (st = .c ∨ ((joined.cr 0).st st).out = false) →
      ((joined.cr 0).st st).jn = some 2 ∧ ((joined.cr 0).st st).hlt = false := by decide

/-- Yardmaster 0 at a line of yard memory. -/
def fetching : State := ({ core := 512, yard0 := { inReset := false } } : State).setCr 512 { c := { line := 0x80_0000_0000 } }

/-- The yardmaster at that line with a store from before a FENCE.I in flight. -/
def fetchWaits : State := fetching.setCr 512 { fetching.cr 512 with
  fenceI := 1, stores := [{ va := 0, pa := 0x80_0000_0108, size := 4, val := 0, kind := 0, seq := 0, due := 0 }] }

theorem witness_LineFetch_held : fetchWaits.runs 512 .c = true ∧ ((fetchWaits.cr 512).st .c).buf = none ∧
    (fetchWaits.cr 512).fetchHeld = true ∧ (fetching.cr 512).fetchHeld = false := by decide

theorem witness_LineFetch : fetching.runs 512 .c = true ∧ ((fetching.cr 512).st .c).buf = none ∧
    (match resolve .fetch 0x80_0000_0000 32 fetching with
      | .ok (g, s1) => (s1.peer? g.pa).isNone && !s1.poisoned g.pa && lineLegal true false (BitVec.ofNat 256 (bytesVal (s1.readBytes g.pa 32)))
      | .error _ => false) = true := by decide

/-- A yardmaster about to be interrupted: by a missed heartbeat, and by a bit of `YIP`. -/
def missing : State := { yard0 := { inReset := false, ie := true, missed := some true } }
def flagged : State := { yard0 := { inReset := false, ie := true, yip := 1 } }

theorem witness_TrapsOfAYardmaster : missing.yardUp 0 = true ∧ (missing.cr 512).atBoundary = true ∧
    (missing.yard 512).missed = some true ∧ flagged.yardUp 0 = true ∧ (flagged.yard 512).missed = none ∧ flagged.yip 512 ≠ 0 := by decide

theorem witness_YardInstructions : Can (.rtt 0) 0 yard ∧ Can (.wfi 0) 0 yard ∧ Can (.halt 0) 0 yard ∧ Can (.thaw 0 2) 0 yard ∧
    Free yard (.s 2) ∧ (yard.me.getS 2).toNat < 512 ∧ yard.yip 512 = 0 ∧ flagged.yip 512 ≠ 0 := by decide

theorem witness_YardInstructions_far : Can (.freeze 0 2 1) 0 yard ∧ Can (.snapr 0 2 1 0) 0 yard ∧ Can (.snapw 0 2 1 0) 0 yard ∧
    Free yard (.s 1) ∧ 511 < (yard.me.getS 1).toNat := by decide

theorem witness_YardInstructions_freeze (asked : Bool) : Can (.freeze 0 2 1) 0 (frozen asked) ∧ Free (frozen asked) (.s 1) ∧
    ((frozen asked).me.getS 1).toNat = 1 ∧ ((frozen asked).cr 1).freezeHeld = true ∧ (yard.cr 0).freezeHeld = false := by
  cases asked <;> decide

theorem witness_ReleasesDefer : ∀ x ∈ signals 0 1 2 3 4 1 5 6, Can x.1 0 {} := by decide

/-- A core with one deferred effect of C. -/
def deferred (e : SyncEff) : State := ({} : State).setCr 0 { deferred := [⟨.c, 0, 0, false, e⟩] }

theorem witness_DeferredActs : ∀ e ∈ [SyncEff.flag 1 true, .cntSet 3 7, .barArv 15, .give 5 9, .rdvDisarm 7],
    ((deferred e).cr 0).mayApply [] ⟨.c, 0, 0, false, e⟩ = true := by decide

/-- A rendezvous register that has fired, and one that is armed, with a flag and a token that stand. -/
def signalled : State := ({ stream := .k } : State).setCr 0
  { rdvs := #v[.fired, .armed 3 2, .disarmed, .disarmed, .disarmed, .disarmed, .disarmed, .disarmed], flags := 2
    tokens := #v[[⟨4, true⟩], [], [], [], [], []] }

theorem witness_WaitsPass : Can (.fwait 0 0 1) 0 signalled ∧ (seen signalled).flags.getLsbD 1 = true ∧
    signalled.me.heldLine = false ∧
    Can (.cntwait 0 3 0) 0 signalled ∧ Can (.barWait 0 2 1) 0 signalled ∧ Can (.rdvwait 0 0) 0 signalled ∧
    (seen signalled).rdvs.getD 0 .disarmed = .fired ∧ (seen signalled).rdvs.getD 1 .disarmed = .armed 3 2 ∧
    Can (.tkwait 0 0) 0 signalled ∧ (tokenOwners 0).2 = .k ∧ (seen signalled).tokenReady 0 = true ∧
    (seen signalled).tokenReady 2 = false ∧ Can (.tksig 0 1) 0 signalled ∧ (tokenOwners 1).1 = .k := by decide

/-- A marker of K behind nothing, and a rendezvous that waits for it. -/
def marked : State := ({ stream := .k } : State).setCr 0
  { markers := [⟨.k, 3, 0⟩], rdvs := (Vector.replicate 8 .disarmed).setIfInBounds 1 (.armed 3 2) }

theorem witness_MarkersAndRendezvous : Can (.mark 0 3) 0 marked ∧ marked.retiredBefore 0 .k 0 = true ∧
    (marked.cr 0).rdvs[1]? = some (.armed 3 2) ∧ retired (marked.cr 0) .k 3 = true := by decide

theorem witness_QueueInstructions : Can (.pushfmt 0 5) 0 {} ∧ Can (.qpush 0 7 1) 0 {} ∧ Can (.qpop 0 10 1) 0 {} ∧
    Can (.qstat 0 12 1) 0 {} ∧ Can (.cont 0 1 2) 0 {} ∧ ({} : State).me.settled .c 0 = true ∧ ({} : State).me.conts.length < 16 ∧
    (({} : State).me.q 10).poppable 0 = [] ∧ (({} : State).me.q 7).entries.length + (({} : State).me.q 7).pops < 8 := by decide

theorem witness_CsrReads : Can (.csrr 0 3 0x33) 0 {} ∧ (coreCsr {} 0x33).isSome = true ∧ Can (.csrr 0 3 0x806) 0 yard ∧
    (yardCsr yard 0x806).isSome = true ∧ Can (.csrr 0 3 0x811) 0 yard ∧ coreCsr {} 7 = none ∧ yardCsr yard 0x807 = none := by decide

theorem witness_CsrWrites : Can (.csrw 0 3 1 0x805) 0 yard ∧ Can (.csrw 0 3 1 0x811) 0 yard ∧ Can (.csrs 0 3 1 0x10) 0 {} ∧ Can (.csrc 0 3 1 0x2F) 0 {} ∧
    Can (.csrs 0 3 1 0x11) 0 {} ∧ Free {} (.s 1) ∧ Free yard (.s 1) := by decide

/-- The translation of a core's first page to yard memory, readable and writable (R375). -/
def mapped (c : Core) : State := ({} : State).setCr 0 { c with lookups := { tlb := [placePage 0] } }

/-- An arrival on its way to a word of yard memory, which reads count 2, arrivals 1. -/
def arriving : State := (({} : State).writeBytes 0x80_0000_0100 [2, 0, 1, 0]).setCr 0
  { gbArrives := [{ va := 0, pa := 0x80_0000_0100, due := 0, pos := 0, seq := 0, level := 1, win := false }] }

/-- A poll of the same word, asked and answered. -/
def polled (v : Option DWord) : State := mapped { gbPolls := [⟨0, 0, 0x80_0000_0000, 0, v, false⟩] }

/-- A word that a core may use for a barrier. -/
def barrierAt (acc : Acc) (s : State) : Bool :=
  match resolve acc (s.me.getS 2) 8 s with
  | .ok (g, s1) => inYard g.pa && !s1.poisoned g.pa
  | .error _ => false

theorem witness_GroupBarriers : Can (.barArvGroup 0 2) 0 (mapped {}) ∧ barrierAt .amo (mapped {}) = true ∧
    Can (.barWaitGroup 0 2 1) 0 (polled (some 5)) ∧ barrierAt .load (polled (some 5)) = true ∧
    (polled (some 5)).me.gbPolls.head?.bind (·.reply) = some 5 ∧ (polled none).me.gbPolls.head?.bind (·.reply) = none ∧
    (∀ g ∈ ((polled none).cr 0).gbPolls, ((polled none).cr 0).free (((polled none).cr 0).pollLoad g).access = true) ∧
    arriving.readNat 0x80_0000_0100 8 = 0x10002 ∧ (∀ x ∈ (arriving.cr 0).gbArrives, (arriving.cr 0).free x.access = true) ∧
    arriving.lineLocked 0x80_0000_0100 = false ∧ arriving.poisoned 0x80_0000_0100 = false := by decide

/-- A launch record of context 5 that names a group. -/
def namesGroup (g : Nat) : Nat := 2 ^ 167 + 5 * 2 ^ 64 + g * 2 ^ 80

/-- Queue 2, open for context 0, with `n` records. -/
def queued (n : Nat) : State :=
  ({} : State).setLq 2 { st := .opened, recs := List.replicate n ⟨BitVec.ofNat 512 (namesGroup 0), .wait, [], none⟩, aged := 2 ^ 24 }

/-- A task whose page 0 is mapped to yard memory, with the number of queue 2 in s2. -/
def pushing : State := { queued 1 with cores := [(0, { lookups := { tlb := [placePage 0] }, regs := { s := (Vector.replicate 32 0).setIfInBounds 2 2 } })] }

theorem witness_LaunchQueues : Can (.launch 0 3 1 2) 0 pushing ∧ Free pushing (.s 1) ∧ Free pushing (.s 2) ∧
    (resolve .load (pushing.me.getS 1) 8 pushing).isOk = true ∧ (pushing.lq 2).ctx.toNat = pushing.me.ctxId ∧
    (pushing.me.getS 2).toNat % 64 = 2 ∧ ((queued 1).lq 2).prio.toNat + ((queued 1).lq 2).elev < 3 := by decide

/-- Sizes of records: one group; a timed phase. -/
def oneGroup : Nat := 2 ^ 176
def timedPhase : Nat := 2 + 4 * 2 ^ 256

/-- A machine whose primary yardmaster runs; context 5 has group 0 bound to one core; queue 2, which belongs to it, holds a
record that names the group `g` and whose kernel has been read. -/
def taking (g : Nat) : State :=
  { (({} : State).setLq 2 { ctx := 5, st := .opened, recs := [⟨BitVec.ofNat 512 (namesGroup g),
      .ok ⟨0, [], [0], [[]], []⟩, [], none⟩] }) with
    yard0 := { inReset := false }, ctxs := [(5, { record := BitVec.ofNat 1024 oneGroup, groups := [(0, { st := .bound })] })] }

/-- The head record of a queue. -/
def headOf (s : State) (q : Nat) : BitVec 512 := ((s.lq q).recs.map (·.bits)).headD 0

/-- A launch of one phase of two tasks on one core, with fields given; ordinary tasks, or timed ones at 100 and 200. -/
def launch (timed : Bool) : Launch :=
  { id := 1, queue := 2, level := 0, ctx := 5, group := 0, stat := 0, msia := 0, msid := 0, khdr := 0, hdr := 1, binds := []
    phases := [if timed then BitVec.ofNat 1024 timedPhase else 2], offs := [[100, 200]], st := .running, sizes := [2] }

/-- A machine that runs a launch of context 5. -/
def running (l : Launch) : State := { taking 0 with launches := [l], nextLaunch := 2 }

/-- The same, and core 0 holds the launch's first task, in ENDING. -/
def ending (l : Launch) : State :=
  (running l).setCr 0 { task := some { ctx := 5, launch := 1, phase := 0, ordinal := 0 }, c := { ended := true } }

theorem witness_LaunchesRun : (taking 0).firmwareRuns = true ∧ (taking 0).nextQueue = some 2 ∧ (taking 1).nextQueue = some 2 ∧
    (taking 1).recordGroup 2 (headOf (taking 1) 2) = none ∧ recordOk (headOf (taking 1) 2) = true ∧
    (taking 0).recordGroup 2 (headOf (taking 0) 2) = some (5, 0) ∧ walkSize 0 ≠ 0 ∧ phCont 0 = false := by decide +kernel

theorem witness_LaunchesRun_more : (taking 1).coresOf (taking 1).nextLaunch = [] ∧
    ((taking 0).lq 2).recs.map (fun x => decide (x.text = .ok ⟨0, [], [0], [[]], []⟩)) = [true] ∧
    ({ running { launch true with halted := true, slipped := 1 } with deltas := [7] } : State).deltas = [7] ∧
    (launch true).timed 1 = some 200 := by decide +kernel

theorem witness_LaunchesRun_tasks : (running (launch false)).predPoison (launch false) 0 = none ∧
    (running (launch false)).predsCommitted (launch false) 0 = true ∧
    (running (launch false)).pickCore (launch false) 0 = some 0 ∧ (launch false).next + 1 < (launch false).size 0 ∧
    (launch false).phaseDone 0 = false ∧ (launch true).timed 0 = some 100 := by decide +kernel

theorem witness_LaunchesEnd : ((ending (launch false)).cr 0).task.isSome = true ∧
    (ending (launch false)).outstanding 0 { ctx := 5, launch := 1, phase := 0, ordinal := 0 } = false ∧
    (ending (launch false)).contsBlocked (launch false) 0 = false ∧ (launch false).committed 0 + 1 ≠ (launch false).size 0 ∧
    (launch false).runningPhase = 0 ∧ NoneParked (running (launch false)) ∧
    phCont ((launch false).record 0) = false ∧ walkSize ((launch false).record 0) ≠ 0 ∧
    ((ending (launch false)).cr 0).stores = [] ∧ ((ending (launch false)).cr 0).matrix.queue = [] := by decide +kernel

theorem witness_LaunchesEnd_rollBack : (match (running (launch false)).ctx? 5 with
    | some c => (running (launch false)).ringRoom c
        (errorRecord (running (launch false)).fwRecord ((running (launch false)).wroteOf (launch false))).length &&
      (running (launch false)).repairable c [] []
    | none => false) = true := by decide +kernel

/-- Stream A of core 0, with an entry of sq0 that can be popped. -/
def stA : State := ({ stream := .a, now := 5 } : State).setCr 0
  { queues := (Vector.replicate 14 {}).setIfInBounds 7 { entries := [⟨some 9, 1, 0, 0⟩] } }

theorem witness_Coordinates : Can (.aadd 0 3 4 16 5) 0 stA ∧ Can (.aaddi 0 3 4 1 0x7FF) 0 stA ∧ Can (.amov 0 3 4 1 0xE4) 0 stA ∧
    Can (.aset 0 3 4 2 63 1 15) 0 stA ∧ Can (.ali 0 15 1 1 2) 0 stA ∧ ((stA.me.q 7).poppable 5).length = 1 ∧
    Can (.amov 0 3 4 1 0xE4) 0 { stream := .a } := by decide

/-- A layout entry: FP32, blocks of 128 rows of 64 columns, extents 64 by 128, one block, its tile table in yard memory. -/
def layoutEntry : Nat := 1 + 1 * 2 ^ 4 + 6 * 2 ^ 16 + 7 * 2 ^ 20 + 64 * 2 ^ 32 + 128 * 2 ^ 48 + 0x800001 * 2 ^ 216

/-- The entry of a RESIDENT block in the second frame of shed 0's yard memory. -/
def tileEntry : Nat := 1 + 2 ^ 12 + 8 * 2 ^ 16

/-- A context record whose layout table has `n` entries from the start of yard memory, and one group. -/
def layoutRecord (n : Nat) : Nat := 0x80_0000_0000 * 2 ^ 64 + n * 2 ^ 128 + 2 ^ 176

/-- Stream `st` of core 0 in a task whose binding t0 names the layout entry; the tile caches hold its block's entry. -/
def tensors (st : Stream) : State :=
  let held := [(0x80_0001_0000, BitVec.ofNat 128 tileEntry)]
  let c : Core := { task := some { ctx := 5, launch := 1 }
                    regs := { x := .replicate 4 ⟨0, true⟩ }
                    matrix := { owner := [(32, 5)] }, lookups := { tiles := .replicate 4 held, tlb := [placePage 0] } }
  { ({} : State).writeBytes 0x80_0000_0000 (valBytes 32 layoutEntry) with
    stream := st, cores := [(0, c)], ctxs := [(5, { record := BitVec.ofNat 1024 (layoutRecord 1), groups := [(0, { st := .bound })] })]
    launches := [{ launch false with binds := [0] }] }

/-- The operand t0 at a0 passes the checks of a load, which its block's entry at a port serves. -/
def operandHeld (s : State) : Bool :=
  match loadOperand 0 0 (fun _ => true) s with
  | .ok ((b, v, blk, off, bit), s1) => decide (s1 = s) && b.lay.lineStart (coords v) && bit = 0 && off = 0 &&
      fmtWidth b.lay.fmt = 32 && decide ((s.me.lookups.tiles.getD 0 []).find? (·.1 = b.lay.entry blk) =
        some (b.lay.entry blk, BitVec.ofNat 128 tileEntry)) &&
      !s.poisoned (b.lay.entry blk) && s.farState (tBase (BitVec.ofNat 128 tileEntry)) = .ok
  | .error _ => false

theorem witness_TensorLoads : operandHeld (tensors .a) = true ∧ tileOk (BitVec.ofNat 128 tileEntry) = true ∧
    tState (BitVec.ofNat 128 tileEntry) = 0 ∧ OwnPlanes (tensors .a) ∧ Can (.tld 0 0 0 0 1) 0 (tensors .a) ∧
    Can (.tldb 0 1 0 0 2) 0 (tensors .a) ∧ Can (.mlds 0 0 0 2 5) 0 (tensors .a) ∧ patBytes 0 ≤ 256 := by
  refine ⟨by decide +kernel, by decide +kernel, by decide +kernel, ?_, by decide, by decide, by decide, by decide +kernel⟩
  exact ⟨by decide, by decide⟩

theorem witness_TensorLoads_bfxcfg : Can (.bfxcfg 0 1 3 8) 0 { tensors .a with ctxs := [] } ∧
    (resolve .load 8 8 { tensors .a with ctxs := [] }).isOk = true ∧ (linearRequest 8 { tensors .a with ctxs := [] }).isOk = true ∧
    (resolve .load 256 8 { tensors .a with ctxs := [] }).isOk = true := by decide +kernel

/-- A line of a TLD, of a plane load and of a BFXCFG, with its bytes. -/
def cameLoad (k : ALoadKind) (bad : Bool) : ALoad :=
  { kind := k, id := 7, seq := 7, due := 0, reads := [0], got := [([1, 2], bad)], pos := 0 }
def cameAs (k : ALoadKind) (bad : Bool) : State := ({} : State).setCr 3 { aloads := [cameLoad k bad] }

theorem witness_LoadsArrive : ∀ k ∈ [ALoadKind.tld 2 0 0 0, .plane 3 127 0 0 none, .planeColumn 5 0 0 4, .bfx 3 0 0 0 false], ∀ bad ∈ [false, true],
    Came (cameAs k bad) 3 (cameLoad k bad) [] [1, 2] bad := by
  intro k hk bad hb
  exact ⟨rfl, by simp, Nat.zero_le _, rfl, rfl, rfl, rfl, fun _ => rfl, .inl ⟨by simp [cameLoad], rfl, rfl, by cases bad <;> rfl⟩⟩

/-- A tile lookup and a page walk of core 3 that come back. -/
def lookedUp : State :=
  let s := ({} : State).writeBytes 0x80_0001_0000 (valBytes 16 tileEntry)
  s.setCr 3 { lookups := { tileReqs := [(2, 0x80_0001_0000, 0)], walks := [⟨.load, 5, 0x8000000, 0, 0, some (placePage 5)⟩, ⟨.load, 5, 0x8000000, 0, 0, none⟩] } }

theorem witness_LoadsArrive_lookups : tileOk (lookedUp.tileEntry 0x80_0001_0000) = true ∧
    tState (lookedUp.tileEntry 0x80_0001_0000) = 0 ∧ lookedUp.walk 0x8000000 0 = .fault ∧ (lookedUp.cr 3).lookups.tileReqs.length = 1 := by
  decide +kernel

/-- A task whose image has 16 bytes of constants in its first page. -/
def literals : State :=
  { tensors .c with ctxs := [], kernels := [⟨5, 0, 0x100, 16⟩] }

theorem witness_LoadIssues_literal : Can (.li64 0 3 8) 0 literals ∧ literals.constants = (0x100, 16) ∧
    (resolve .load 0x108 8 literals).isOk = true := by decide +kernel

/-- The same task, with a stash region of one slot as t1, and entries in sq2, dq4 and iq that can be popped. -/
def commanding (st : Stream) : State :=
  let s := tensors st
  let q : CoreQueue := { entries := [⟨some 3, 1, 0, 0⟩] }
  let qs : Vector CoreQueue 14 := (((Vector.replicate 14 {}).setIfInBounds 9 q).setIfInBounds 4 q).setIfInBounds 13 q
  let r := 15 + 2 ^ 4
  { s.writeBytes 0x80_0000_0020 (valBytes 32 r) with
    now := 5, cores := [(0, { s.me with queues := qs })], launches := [{ launch false with binds := [0, 1] }]
    ctxs := [(5, { record := BitVec.ofNat 1024 (layoutRecord 2), groups := [(0, { st := .bound })] })] }

/-- The binding t0 is a tensor whose element 0 has its block's entry held at port 3, and the row of it is one line; t1 is a
region. -/
def commandable (s : State) : Bool :=
  match binding 3 false 0 s, binding 3 true 1 s with
  | .ok (a, s1), .ok (b, s2) => decide (s1 = s) && decide (s2 = s) && (Region.of b.raw).ok && decide ((Region.of b.raw).mode = 0) &&
      a.lay.lineStart (coords 0) && fmtWidth a.lay.fmt = 32 && s.outputOk a.idx &&
      (match inTensor 3 a 0 s with
        | .ok ((blk, off, _), s3) => decide (s3 = s) && off = 0 && decide ((s.me.lookups.tiles.getD 3 []).find?
            (·.1 = a.lay.entry blk) = some (a.lay.entry blk, BitVec.ofNat 128 tileEntry)) && !s.poisoned (a.lay.entry blk)
        | .error _ => false)
  | _, _ => false

theorem witness_EngineCommandsIssue : commandable (commanding .a) = true ∧ commandable (indicesTaken (commanding .a) 1) = true ∧
    Can (.xchgP 0 0 0 0 0 7 0 3 1) 0 (commanding .a) ∧ Can (.xchgD 0 0 0 0 0 1 7 3 1) 0 (commanding .a) ∧
    Can (.xfer 0 127 0 0 0 0 7 4 3 1) 0 (commanding .a) ∧ Can (.stash 0 0 0 0 1 0 7 7 3 1) 0 (commanding .a) ∧
    Can (.restore 0 0 0 0 1 0 7 7 3 1) 0 (commanding .a) ∧ Can (.gather 0 0 4 0 0 0 0 5 7 3 1) 0 (commanding .a) ∧
    commandTokens .a 7 0 = true ∧ commandTokens .a 1 7 = true ∧ commandTokens .a 5 7 = true := by decide +kernel

theorem witness_EngineCommandsIssue_drain :
    commandable (popped (coordTaken (coordTaken (commanding .d) 1 0) 0 0) 4) = true ∧
    CoordReady (commanding .d) 1 ∧ ((coordTaken (commanding .d) 1 0).me.q 4).poppable 5 ≠ [] ∧
    Can (.scatter 0 4 0 4 0 0 0 0 2 7 3 1 1 0) 0 (commanding .d) ∧ commandTokens .d 2 7 = true ∧
    ∀ x ∈ rwrs 0 4 31 0 0 7 3 3 1 1, Can x.1 0 (commanding .d) := by
  refine ⟨by decide +kernel, fun _ => by decide +kernel, by decide +kernel, by decide, by decide, by decide⟩

/-- A command of kind `k` of core 0's task at its engine. -/
def engineOf (k : EngKind) : EngCmd :=
  { id := 4, core := 0, st := .a, kind := k, lay1 := 0, c1 := 0, lay2 := if k = .stash || k = .restore then 1 else 0, c2 := 0
    n := 2, rb := if k = .rwrAddF32 then 32 else if k = .xfer then 0 else 1, idx := [5, 6], data := 0, waitt := 7, sigt := 7, cnt := 3, inc := 1
    task := { ctx := 5, launch := 1 }, pos := 0, seq := 0, queue := 4, number := 9, lq := 2 }

/-- The machine with the command at its engine, and its block's entry in memory. -/
def working (x : EngCmd) : State := { (commanding .a).writeBytes 0x80_0001_0000 (valBytes 16 tileEntry) with engines := [x] }

/-- The command has started, with the layout entries that it read. -/
def begun (k : EngKind) : EngCmd :=
  { engineOf k with started := true, raw1 := layoutEntry, raw2 := if k = .stash || k = .restore then 31 else layoutEntry }

/-- The started command's next part can be read and written, at a place outside the near stores. -/
def partReady (s : State) (x : EngCmd) : Bool :=
  let r := s.copyRow x x.progress
  (match s.readBlock x.reads ((s.cmdLay x x.lay1).entry r.blk) r.off (if x.kind = .xfer then 256 else 16) with
    | .data bs false => bs.length ≤ 256
    | _ => false) &&
  (match s.destOf (s.cmdLay x 0) 0 0 true with
    | .at pa => (s.peer? pa).isNone && !s.scrubbed pa && !s.poisoned pa && inYard pa
    | _ => false)

theorem witness_EngineCommandsRun : ∀ k ∈ [EngKind.gather, .scatter, .xfer],
    (working (engineOf k)).copyCheck (engineOf k) = .go ∧
    ((working (engineOf k)).copyTiles (engineOf k)).all (fun r => (working (engineOf k)).tileKnown 0 r.1 r.2) = true ∧
    partReady (working (begun k)) (begun k) = true := by decide +kernel

theorem witness_EngineCommandsRun_codec : ∀ k ∈ [EngKind.stash, .restore, .rwrAddF32],
    partReady (working (begun k)) (begun k) = true ∧ inYard ((working (begun .stash)).slotBase (begun .stash)) = true ∧
    (working (begun .stash)).farLink ((working (begun .stash)).slotBase (begun .stash)) = .ok := by decide +kernel

theorem witness_EngineCommandsRun_completion : (({ working { engineOf .xfer with finished := true } with turn := .events } : State).cr 0).runsTask
    (engineOf .xfer).task = true ∧ (engineOf .rwrAddF32).kind.reduces = true ∧ EngKind.reduces .gather = false := by decide +kernel

/-- Two blocks in frames of shed 0 with their entries, owned by context 5, and an exchange of them that shunter 0 runs. -/
def exchange : Exchange :=
  { placement := true, e1 := 0x80_0002_0000, e2 := 0x80_0002_0010, f1 := 0x80_0004_0000, f2 := 0x80_0005_0000, cursor := 0
    rollback := false, marked := true, drained := true, due := 0, per := 4, tail := 4, ctx := 5, cmd := some (engineOf .xchgP), inc := 1
    done := 0, linkLost := false }
def crossing (x : Exchange) : State :=
  let s := ({} : State).writeBytes 0x80_0002_0000 (valBytes 16 (1 + 2 ^ 12 + 64 * 2 ^ 16) ++ valBytes 16 (1 + 2 ^ 12 + 80 * 2 ^ 16))
  { s.setShunter 0 { run := some x } with
    ctxs := [(5, { record := BitVec.ofNat 1024 (layoutRecord 0) })], now := 9
    tags := [(0x80_0004_0000 / 32768, { owner := 5 }), (0x80_0005_0000 / 32768, { owner := 5 })] }

theorem witness_ExchangesRun : Exchanging (crossing exchange) 0 exchange ∧ inPackage exchange.f1 = true ∧
    (crossing exchange).mustRollBack exchange = false ∧
    (crossing exchange).linkWaits exchange = false ∧ (crossing exchange).inFlight exchange = false ∧
    (crossing exchange).refusesBlock 5 ((crossing exchange).tileEntry exchange.e1) = none ∧
    (crossing exchange).refusesBlock 5 ((crossing exchange).tileEntry exchange.e2) = none ∧
    (crossing exchange).exchangeDoomed exchange = false ∧ ((crossing exchange).deliver (engineOf .xchgP)).isSome = true := by
  refine ⟨⟨rfl, ?_⟩, ?_⟩ <;> decide +kernel

theorem witness_ExchangesRun_back : let x := { exchange with rollback := true, cursor := 5 }
    let s := { crossing x with lost := 1 }
    x.backDue s.now = true ∧ s.linkLost x = true ∧ { crossing exchange with lost := 1 }.mustRollBack exchange = true ∧
    (crossing x).farLink x.f1 = .ok ∧ (crossing x).farLink x.f2 = .ok := by decide +kernel

/-- An idle shunter with a service record of the kind. -/
def service (op : Nat) : Service := ⟨3, 0, BitVec.ofNat 64 (op + 16), 0x80_0002_0000, 0x80_0002_0010, 0x80_0003_0000⟩
def serving (op : Nat) (own : Nat) : State :=
  { (crossing exchange).setShunter 0 { service := [service op] } with
    tags := [(0x80_0004_0000 / 32768, { owner := own, scrub := 1 }), (0x80_0005_0000 / 32768, { owner := own })] }

theorem witness_ServiceRecords : ∀ op ∈ [0, 1], (serving op 5).nextWork 0 = some (.service (service op)) ∧ (service op).ok = true ∧
    (serving op 5).serviceRefused 0x80_0002_0000 0x80_0002_0010 = false ∧
    (serving op 6).serviceRefused 0x80_0002_0000 0x80_0002_0010 = true ∧ (serving op 5).scrubbed 0x80_0003_0000 = false ∧
    (serving op 5).scrubbed 0x80_0004_0000 = true := by decide +kernel

/-- Stream K of core 0 with a format word of FP64, a mask of label 0 and a coefficient entry; the map is given. -/
def stK (m : Matrix) : State :=
  let q : CoreQueue := { entries := [⟨some 0, 1, 0, 0⟩] }
  ({ stream := .k, now := 5 } : State).setCr 0
    { queues := (((Vector.replicate 14 {}).setIfInBounds 12 q).setIfInBounds 8 q).setIfInBounds 0 q, matrix := m, clk := 100 }

/-- Every slot is mapped. -/
def full : List (Nat × Nat) := (List.range 32).map fun i => (i + 8, i)

theorem witness_MatrixCommands : (∀ i ∈ [Instr.mflip 0, .mstream 0 1 5 2 63, .mstreamIdx 0 1 2 3 63, .mzero 0 5, .bind 0 0 0,
      .slotcfg 0 3 8, .slotcfgFault 0, .slotfree 0 5, .slotfreeAll 0, .slotmapRead 0 3 5, .slotmapMap 0 4 5, .mspill 0 5,
      .mhint 0 100], Can i 0 (stK {})) ∧ MatrixRoom (stK {}) ∧ formatOk 0 0 false = true ∧ formatOk 0xF 0 false = false ∧
    ((stK {}).ownPlanes 0).nextPlane = {} ∧ ((stK {}).me.q 12).poppable 5 = [0] ∧ ((stK {}).me.q 8).poppable 5 = [0] := by
  refine ⟨by decide, by decide, by decide, by decide, rfl, by decide +kernel, by decide +kernel⟩

theorem witness_MatrixCommands_resolve : resolved {} 0 = some (0, [.zeroSlot 0]) ∧ resolved { map := full } 0 = none ∧
    resolved { map := (0, 3) :: full } 0 = some (3, []) ∧
    resolved { map := full, polFault := false, area := some (8, 2) } 0 = some (0, [.spill 0 8 false, .zeroSlot 0]) := by decide +kernel

/-- A core whose matrix queue holds a command, with an entry of dq0: `lines` of its image, or of the image that it reads. -/
def headed (k : MKind) (lines : Nat) (start : Option Nat) : State :=
  stK { queue := [{ kind := k, seq := 3, issued := 0, pos := 0, lines := lines, start := start, cursor := 58, label := lines }] }

theorem witness_MatrixSteps : ∀ x ∈ [(MKind.stream 2 0 0 4 7 1 none, 0, none), (.zero (some 4), 0, none), (.flip, 0, none),
      (.spill 3 9 true, 128, none), (.spill 3 9 true, 5, none), (.bind 3 0 [(none, [])], 0, none),
      (.bind 3 0 [(none, [])], 1, some 10)],
    ((headed x.1 x.2.1 x.2.2).cr 0).matrix.queue.length = 1 ∧
      (x.1 ≠ .stream 2 0 0 4 7 1 none → ((headed x.1 x.2.1 x.2.2).cr 0).headState 5 = .go) := by decide +kernel

/-- FP64 rows need two lines of the data queue (R184). -/
def streaming : State :=
  let s := headed (.stream 2 0 0 4 7 1 none) 0 none
  s.setCr 0 { s.me with queues := (Vector.replicate 14 {}).setIfInBounds 0 { entries := List.replicate 2 ⟨some 0, 1, 0, 0⟩ } }

theorem witness_MatrixSteps_stream : (streaming.cr 0).headState 5 = .go ∧ Clocked streaming 0 ∧
    (streaming.cr 0).matrix.active.bad = [] ∧ place (nearFrame 0 9 + 256 * 5) = .near 0 9 ∧
    (((headed (.bind 3 0 [(none, [])]) 1 (some 10)).cr 0).matrix.queue.map fun h => h.bindRowAt 1 0) = [some 10] := by
  refine ⟨by decide +kernel, ⟨rfl, rfl, rfl, .inr rfl⟩, rfl, by decide +kernel, by decide +kernel⟩

/-- A row and a zeroing in the array, due; a ramp, a hint and a claim that are due. -/
def inArray (l : Landing) : State :=
  stK { rows := [⟨3, l, 90, 0⟩], rampEnd := some 99, hint := some 99, claims := [⟨32, .k, 0, 0, 0⟩] }

theorem witness_MatrixSteps_rows : ((inArray .zeros).cr 0).matrix.rows = [⟨3, .zeros, 90, 0⟩] ∧
    ((inArray .zeros).cr 0).matrix.rampEnd = some 99 ∧ ((inArray .zeros).cr 0).matrix.claims.length = 1 ∧
    ((stK { idle := 64 }).cr 0).matrix.warm = true ∧ ((inArray .zeros).cr 0).clk = 100 ∧ (inArray .zeros).claimFault 0 32 = none :=
  ⟨rfl, rfl, rfl, rfl, rfl, by decide +kernel⟩

/-- Format words: BF16 by BF16 in groups of 32; INT8 by INT8 with asymmetric scales; FP64; INT8 by INT8 into INT64. -/
theorem witness_MatrixSteps_sums :
    (fwA 0x133 ≠ 0 ∧ fwAsym 0x133 = false ∧ streamDepth 0x133 / groupSize 0x133 = 2 ∧ fwAcck 0x133 ≠ 1) ∧
    (fwA 0x9AA ≠ 0 ∧ fwAsym 0x9AA = true ∧ 10 ≤ fwB 0x9AA ∧ streamDepth 0x9AA / groupSize 0x9AA = 4) ∧
    (fwA 0 = 0 ∧ fwSpa 0 = false) ∧ (fwA 0x4000AA ≠ 0 ∧ fwAcck 0x4000AA = 1) ∧
    List.Forall₂ (fun a (z : Int) => HasValue a z) [.fin 3 1] [6] ∧ ∀ e, Machine.Num.fin 1 0 ≠ .fin 0 e := by
  refine ⟨by decide, by decide, by decide, by decide, .cons ?_ .nil, by simp⟩
  simp only [HasValue, factor, Sum.inr.injEq]; norm_num

/-- Stream K with every queue able to give and take an entry. -/
def stV : State := ({ stream := .k, now := 5 } : State).setCr 0 { queues := .replicate 14 { entries := [⟨some 3, 1, 0, 0⟩] }, clk := 7 }

theorem witness_VectorMoves : (∀ i ∈ [Instr.vpop 0 31 3, .vpop 0 1 4, .vpopK 0 7 8, .vpush 0 5 2, .vpushOq0 0 10 16, .vmov 0 3 4 0 7 5,
      .vbcast 0 3 4 1 1 0, .vbcastLane 0 3 4 5 0 0 1, .vli 0 3 0 2 4 0x7FFF, .vliK 0 7 9, .vmovK 0 3 4 5 4, .vsel 0 3 4 5 1 7,
      .vperm 0 3 4 5 1 0 5, .pnot 0 7 1, .pset 0 1 2 2], Can i 0 stV) ∧ (∀ x ∈ predOps, Can (x.1 0 1 2 3) 0 stV) ∧
    Free stV (.v 4) ∧ Free stV (.k 5) ∧ ((stV.me.q 3).poppable 5).length = 1 := by
  refine ⟨by decide, by decide, by decide, by decide, by decide +kernel⟩

theorem witness_VectorMoves_room : Room stV 5 1 ∧ FreeOld stV 3 0 7 := ⟨by unfold Room; decide +kernel, fun _ _ => rfl⟩

theorem witness_VectorFloat : (∀ o ∈ float1s, Can (o.1 0 3 4 0 1 2) 0 stV) ∧ (∀ o ∈ float2s, Can (o.1 0 3 4 5 1 0 0) 0 stV) ∧
    ∀ o ∈ float3s, Can (o.1 0 3 3 3 0 0 1) 0 stV := by decide

theorem witness_VectorInteger : (∀ o ∈ rawOps, Can (o.1 0 3 4 5 0 1 5) 0 stV) ∧ ∀ o ∈ intOps, Can (o.1 0 3 4 5 1 0 1 3) 0 stV := by
  decide

theorem witness_VectorConversions : ∀ i ∈ [Instr.vcvt 0 3 4 1 2 1 1 0, .vq 0 3 4 5 0 1 0 12, .vq 0 3 4 5 0 1 1 9, .vcmp 0 7 4 5 6 1,
    .vred 0 3 4 2 1 5, .vscan 0 3 4 1 0 0, .vthr 0 3 4 5 3 0 0, .vtopk 0 3 4 5 0 1 3], Can i 0 stV := by decide

/-- Stream D of core 0 in the task of `tensors`, with an entry in dq4 and in sq2. -/
def stores : State :=
  let s := tensors .d
  let one : CoreQueue := { entries := [⟨some 7, 0, 0, 0⟩] }
  s.setCr 0 { s.cr 0 with queues := ((Vector.replicate 14 {}).setIfInBounds 4 one).setIfInBounds 9 one }

/-- The binding of t0, the run of the first row at (0, 0), and what the statement asks of it. -/
def rowOk (s : State) : Bool :=
  match binding 2 false 0 s with
  | .ok (b, s1) => decide (s1 = s) && fmtWidth b.lay.fmt = 32 && b.lay.inside (moved 0 0 0) && b.lay.place (moved 0 0 0) = (0, 0, 0) &&
    decide ((s.me.lookups.tiles.getD 2 []).find? (·.1 = b.lay.entry 0) = some (b.lay.entry 0, BitVec.ofNat 128 tileEntry)) &&
    !s.poisoned (b.lay.entry 0) && b.lay.bcoll = 6 && (match inTensor 2 b 0 s with | .ok (_, s2) => decide (s2 = s) | .error _ => false) && s.outputOk b.idx &&
    b.lay.lineStart (coords 0) && b.lay.ok b.raw
  | .error _ => false

theorem witness_StoreCommands : rowOk { stores with now := 1 } = true ∧ rowOk (popped { stores with now := 1 } 4) = true ∧
    Can (.drain 0 0 0 16 1 0 3 0 0 0 0 1) 0 { stores with now := 1 } ∧ Can (.drainQ 0 0 0 6 0 0 0 3 0 0 0 1 1 0) 0 stores ∧
    Can (.tst 0 4 0 0 0) 0 stores ∧ ((({ stores with now := 1 } : State).me.q 4).poppable 1).length = 1 := by
  refine ⟨by decide +kernel, by decide +kernel, by decide, by decide, by decide, by decide +kernel⟩

/-- The drain unit of core 2: a drain of label 3 at its first row, a delivery that is due and complete, and lines to write. -/
def draining (remote : Option Nat) : State := ({} : State).setCr 2
  { clk := 4, matrix := { map := [(3, 5)] }
    drain := { cmds := [{ kind := .drain 16 true 3 0 1 0 false false, lay := 0, c := 0, seq := 9, pos := 0, issued := 0, u := 1,
                          runs := [⟨0, 0, 0, 0, 0, 2048⟩] }]
               deliveries := [⟨8, 0, 4, ⟨0, 1, 0, 0, 0, 8⟩, [5]⟩, ⟨8, 0, 4, ⟨0, 0, 0, 0, 0, 16⟩, [1, 2]⟩]
               buf := [⟨7, 0, 0, 0, 0, [(0, 5, 0xFF), (1, 3, 0x0F)], true, remote, true, false, 0⟩] } }

theorem witness_DrainPipeline : (((draining none).cr 2).clocked = true) ∧ ((draining none).cr 2).matrix.slotOf 3 = some 5 ∧
    (sortBy (·.run.kind) ((draining none).cr 2).drain.deliveries).map (·.data) = [[1, 2], [5]] ∧
    ((draining (some 0)).cr 2).drain.buf.length = 1 := by decide +kernel

/-- The block of a line: near frame 1 of core 2 or the second frame of yard memory. -/
def lineAt (e : Nat) : State :=
  { (({} : State).writeBytes 0x80_0000_0000 (valBytes 32 layoutEntry)).writeBytes 0x80_0001_0000 (valBytes 16 e) with
    ctxs := [(0, { record := BitVec.ofNat 1024 (layoutRecord 1) })]
    cores := [(2, { (draining none).cr 2 with lookups := { tiles := .replicate 4 [(0x80_0001_0000, BitVec.ofNat 128 e)] } })] }

/-- What stands against the write of the line. -/
def lineOutcome (e : Nat) : Option Dest := ((lineAt e).lineDest 2 ⟨7, 0, 0, 0, 0, [], true, none, false, false, 0⟩).map (·.1)

theorem witness_DrainPipeline_lines :
    (match lineOutcome tileEntry with | some (.at pa) => pa % 256 = 0 && !inNear 2 pa | _ => false) = true ∧
    (match lineOutcome (1 + 2 * 2 ^ 16) with | some (.at pa) => pa % 256 = 0 && inNear 2 pa | _ => false) = true ∧
    (match lineOutcome 0 with | some (.fail .tileFault _) => true | _ => false) = true ∧ lineOutcome (tileEntry + 4) = some .wait ∧
    (lineAt (tileEntry + 4)).ownFrame 2 ⟨7, 0, 0, 0, 0, [], true, none, false, false, 0⟩ = false ∧
    (match (lineAt tileEntry).dest 2 0 0 0 true with | .at pa => pa % 256 = 0 | _ => false) = true := by decide +kernel

/-- A core that its stall has frozen, and a stream of a forked core that waits, each at its limit. -/
def stalling : State := ({} : State).setCr 3
  { stalled := some (.a, .object 0 2), freezeDog := 2 ^ 20 - 1, k := { wait := some (.object 2 4), wdog := 2 ^ 24 - 1 } }

theorem witness_TrapsAndWatchdogs : (stalling.cr 3).stalled = some (.a, .object 0 2) ∧ limitOf stalling 3 66 20 = 2 ^ 20 ∧
    limitOf stalling 3 67 24 = 2 ^ 24 ∧ (stalling.cr 3).stops = [] := by decide +kernel

/-- Three records that wait, and words in the FIFO, the fourth of a record of a ROUTE_OVERFLOW of context 5 among them. -/
def reporting : State :=
  { ({} : State).setCr 3 { stops := [⟨none, false⟩] } with
    trapWait := [(7, ⟨9, [0, 0, 0, 0], none⟩), (6, ⟨3, [1, 0, 0, 0], some none⟩)], trapFifo := [9]
    fwRecord := [BitVec.ofNat 64 (0x10 + 5 * 2 ^ 40), 0, 0], yard0 := { inReset := false }
    ctxs := [(5, { record := 0, ring := 0x80_0000_0000, msia := 16 })] }

theorem witness_TrapsAndWatchdogs_fifo : reporting.yardUp 0 = true ∧ bits (reporting.fwRecord.getD 0 0).toNat 0 6 = 0x10 ∧
    (sortBy TrapRec.key reporting.trapWait).map (·.1) = [6, 7] ∧ inYard 0x80_0000_0000 = true ∧
    reporting.readNat 0x80_0000_0000 8 = 0 := by decide +kernel

/-- A primary yardmaster that has missed its heartbeat after a SWITCH from slot A, or with none pending. -/
def unheard (sw : Option (Bool × DWord)) : State :=
  { yard0 := { inReset := false, hb := 32000000 }, plovelm := { switch := sw, activeB := true } }

theorem witness_TrapsAndWatchdogs_heartbeat : (unheard (some (false, 1))).plovelm.verify false ≠ 0 ∧
    Quiet ((unheard none).cr 512) ∧ (unheard none).primary = 512 := by
  exact ⟨by decide +kernel, ⟨rfl, rfl, rfl, rfl⟩, rfl⟩

/-- A request of the root of trust. -/
def asking (op arg done : Nat) (d : Option (BitVec 512)) (st : Option Nat) : State :=
  { plovelm := { requests := [⟨BitVec.ofNat 512 (op + 2 ^ 8 * arg + 2 ^ 128 * done), d, st, 0⟩], verifiedB := true } }

theorem witness_RootOfTrust : (asking 1 0 0 none none).plovelm.imageOk false = false ∧
    (asking 3 1 0x80_0000_0000 none none).plovelm.verifiedB = true ∧ inYard 0x80_0000_0000 = true ∧
    ((asking 2 9 0 (some 1) none).plovelm.requests.map (·.ok)) = [true] := by decide +kernel

/-- Core 3 stopped by FREEZE, its context 5 the owner of slot 4 and of the planes. -/
def stopped : State := ({} : State).setCr 3
  { freezeHeld := true, ctxWord := 5, mapCtx := 5, matrix := { owner := [(4, 5), (32, 5)] } }

/-- A yardmaster that names core 3 in s1 and word 4 in s2, core 3 stopped by FREEZE; s3 is a request of STORE at 2^39. -/
def snapping (word : Nat) : State :=
  let s : Vector DWord 32 := (((Vector.replicate 32 0).setIfInBounds 1 3).setIfInBounds 2 (BitVec.ofNat 64 word)).setIfInBounds 3 0x80_0000_0001
  { stopped.setCr 512 { regs := { s := s } } with core := 512 }

theorem witness_Snapshots_words : Can (.snapr 0 4 1 2) 0 (snapping 0x120) ∧ Free (snapping 0x120) (.s 1) ∧ Free (snapping 0x120) (.s 2) ∧
    Can (.snapw 0 3 1 2) 0 (snapping 1) ∧ Free (snapping 1) (.s 3) ∧ ((snapping 1).cr 3).freezeHeld = true ∧
    ((snapping 1).me.getS 1).toNat = 3 ∧ ((snapping 1).me.getS 2).toNat = 1 ∧ ((snapping 1).me.getS 3).toNat % 4 = 1 ∧
    ((snapping 0x120).me.getS 2).toNat = 0x120 := by decide +kernel

theorem witness_Snapshots : (stopped.cr 3).freezeHeld = true ∧ RecordAt stopped 0x80_0000_0000 ∧ Quiet (stopped.cr 3) ∧
    inYard 0x80_0000_0000 = true ∧ inYard (0x80_0000_0000 + 65535) = true :=
  ⟨by decide +kernel, ⟨by decide, by decide, by decide, by decide +kernel, by decide +kernel⟩, ⟨rfl, rfl, rfl, rfl⟩, by decide +kernel,
    by decide +kernel⟩

/-- A context whose save area stands at the start of yard memory. -/
def saving : Context := { record := BitVec.ofNat 1024 (5 * 2 ^ 0 + 0x80_0000_0000 * 2 ^ 256 + 0x80_0020_0000 * 2 ^ 320) }

theorem witness_Snapshots_evict : SavesInYard saving ∧ Reached stopped saving.savea := by
  refine ⟨⟨?_, ?_, ?_, ?_, .inr ?_⟩, ?_, ?_, ?_⟩ <;> decide +kernel

theorem witness_Snapshots_load : Loadable (stopped.writeBytes 0x80_0000_0000 [1, 0]) 3 0x80_0000_0000 ∧
    Sparse.get 0 (stopped.cr 3).matrix.owner 32 = 5 :=
  ⟨⟨by decide +kernel, by decide +kernel, fun h => absurd h (by decide +kernel)⟩, by decide +kernel⟩

/-- A request record of `n` at the start of yard memory, whose status word is at 256. -/
def mailing (n : Nat) : State :=
  { ({} : State).writeBytes 0x80_0000_0000 (valBytes 64 (n + 0x80_0000_0100 * 2 ^ 128)) with
    mailbox := [0x80_0000_0000], yard0 := { inReset := false }
    ctxs := [(5, { record := BitVec.ofNat 1024 (layoutRecord 1), forwarded := [⟨3, 0, { launch := 1 }⟩] })] }

/-- The record is read, well-formed, and of an operation. -/
def askedOk (s : State) (op : Nat) : Bool :=
  match s.mailRecord 0x80_0000_0000 with
  | some r => mOp r = op && mailOk r
  | none => false

theorem witness_FirmwareRequests : (∀ op ∈ [2, 3, 4, 5, 6, 7, 8], askedOk (mailing (op + 5 * 2 ^ 192)) op = true) ∧
    askedOk (mailing (1 + 4 * 2 ^ 416)) 1 = true ∧ askedOk (mailing (2 + 2 ^ 16 + 5 * 2 ^ 192)) 2 = false ∧
    (mailing 2).firmwareRuns = true ∧ ((mailing 2).lq 0).st = .disabled := by decide +kernel

theorem witness_FirmwareRequests_destroyed :
    ({ ctxs := [(5, { record := 0, destroying := true })] } : State).ctx? 5 = some { record := 0, destroying := true } := rfl

/-- A TLBINV record of a kind at the start of yard memory, its completion word behind it, and an entry in a TLB. -/
def invalidating (kind : Nat) : State :=
  (({} : State).setCr 3 { lookups := { tlb := [placePage 5] } }).writeBytes 0x80_0000_0000
    (valBytes 32 (kind + 5 * 2 ^ 128 + 0x80_0000_0020 * 2 ^ 192))

theorem witness_TablesChange : ∀ kind ∈ [0, 1, 2], ((invalidating kind).invRecord 0x80_0000_0000).any (fun r =>
    r % 4 = kind && invOk r && r / 2 ^ 192 % 2 ^ 64 = 0x80_0000_0020 && inYard 0x80_0000_0020) = true := by decide +kernel

/-- Granule 5 of far memory in a state, mapped to CXL port 0, with its target on port 1. -/
def migrating (mst : Nat) : State :=
  let s := ({} : State).writeBytes (Config.farTable + 16 * 5) (valBytes 16 (1 + 2 * mst + 2 ^ 64 * (1 + 2 ^ 5 + 2 ^ 21)))
  { s with migration := { busy := decide (mst ≠ 0), gran := 5 }, cxl := .replicate 8 .up }

theorem witness_TablesChange_granules : (∀ m ∈ [0, 1, 2], (migrating m).granule (5 * 2 ^ 21) 0 / 2 % 4 = m) ∧
    place (5 * 2 ^ 21) = .far ∧ (migrating 1).targetLink (5 * 2 ^ 21) = .up ∧ (migrating 1).farLink (5 * 2 ^ 21) = .ok ∧
    (migrating 2).granuleBusy (5 * 2 ^ 21) = false ∧ Mem.wf (migrating 2).mem = true ∧
    ({ migrating 1 with cxl := .replicate 8 .down } : State).targetLink (5 * 2 ^ 21) = .down := by decide +kernel

/-- Link 3 in a state, with a request that waits for its answer. -/
def linked (st : LinkState) : State :=
  ({ peerReqs := [⟨3, 7, .load 0 0, none, none⟩] } : State).setLink 3 { st := st, bad := List.replicate 17 1 }

theorem witness_LinksWork : (∀ st ∈ [LinkState.down, .training, .up, .degraded, .retraining, .lost], ((linked st).link 3).st = st) ∧
    (linked .up).linkBusy 3 = true := by decide +kernel

/-- Two wrong bytes of an interleave are corrected, and what `rsParity` makes has no wrong byte (R402). -/
theorem test_two_bytes_corrected : rsCorrect ([0xA5, 0x3C] ++ List.replicate 126 0) = List.replicate 128 0 := by decide +kernel

theorem test_parity : (List.range 4).map (rsSyndrome (([1, 2, 3] ++ List.replicate 121 0) ++
    rsParity ([1, 2, 3] ++ List.replicate 121 0))) = [0, 0, 0, 0] := by decide +kernel

/-- Two requests of one round of launch 1 at a word of yard memory, of AMO.ADDD or of AMO.MAX; one leaf maps the context's
memory onto itself. -/
def rounding (kind : Bool) : State :=
  let r : RoundReq := ⟨1, 0, kind, 0x80_0000_1000, 0, 1, 0, 0, if kind then .max else .addd, 16, 3, 0⟩
  { ({} : State).writeBytes 0x80_0000_0000 (valBytes 8 0xD7) with
    launches := [{ launch false with sizes := [2] }], ctxs := [(5, { record := BitVec.ofNat 1024 (0x8000000 + layoutRecord 1) })]
    rounds := [r, { r with ordinal := 0, b := 5 }] }

theorem witness_PackageEvents : ∀ kind ∈ [false, true], (∀ q ∈ (rounding kind).rounds, (rounding kind).roundFull q = true ∧
    (rounding kind).roundPlace q = .at 0x80_0000_1000 0) ∧ (sortBy (·.ordinal) (rounding kind).rounds).map (·.b) = [5, 3] := by
  decide +kernel

/-- A frame of yard memory that peers may address, and a package with nothing lost. -/
def landing : State := { tags := [(0x80_0000_0000 / 32768, { landing := true })] }

theorem witness_PackageEvents_outside : (landing.tag 0x80_0000_0000).landing = true ∧ Plain landing 0x80_0000_0000 ∧
    (∀ a ∈ [Acc.load, .store, .amo], landing.reachPa a 0x80_0000_0000 0 0x80_0000_0000 = .at 0x80_0000_0000 0) ∧
    ctlReg (Config.controlBase + 0x300008) = some .pwrcap ∧ ctlReg (Config.controlBase + 0x500008 + 256 * 15) = some (.vlstat 15) ∧
    ctlReg (Config.controlBase + 0x600000 + 16 * 63) = some (.window 63 0) ∧ landing.lostGroups 3 = [] := by
  refine ⟨by decide +kernel, ⟨by decide +kernel, by decide +kernel⟩, by decide +kernel, by decide, by decide, by decide, by decide⟩

/-- One line: `add s3, s1, s2` in lane 1 for C, `li s7, -100000` in lane 2 for C. -/
def twoAdds : ILine := 0x161E7960_020C2200_00000011#96 |>.setWidth 256

/-- Core 0 at its turn with the line fetched. -/
def atTurn : State := ({ turn := .issue 0 .c } : State).setCr 0 { task := some {}, c := { buf := some twoAdds } }

/-- The same in forked mode. -/
def atForkedTurn : State :=
  ({ turn := .issue 0 .c } : State).setCr 0 { task := some {}, forked := true, forkMask := 7, c := { buf := some twoAdds } }

/-- A line whose first lane holds a reserved major. -/
def badLine : ILine := 0xC0000000_00000001#64 |>.setWidth 256

theorem witness_IqDecides : isEvent (.add 3 1 2 3) = false ∧ ({} : State).refusal (.add 3 1 2 3) = none ∧
    issuesIn (qualifier (.add 3 1 2 3)).toNat (governing {}) = false ∧ issuesIn (qualifier (.add 2 1 2 3)).toNat (governing {}) = true :=
  by decide

theorem witness_IqDecides_level :
    let s : State := ({} : State).setCr 0 { c := { loops := (Vector.replicate 6 {}).setIfInBounds 2 { active := true, count := 3, index := 2 } } }
    issuesIn (qualifier (.add 1 1 2 3)).toNat (governing s) = false ∧ issuesIn (qualifier (.add 2 1 2 3)).toNat (governing s) = true ∧
    issuesIn (qualifier (.add 3 1 2 3)).toNat (governing s) = false := by decide

theorem witness_IqDecides_refusal : ({ stream := .a } : State).refusal (.add 0 1 2 3) = some .illegalInstruction := by decide

theorem witness_JoinedAt : JoinedAt atTurn 0 twoAdds ∧ lineFault (isYard 0) false twoAdds = none := by
  refine ⟨⟨⟨0, .c, rfl, by decide +kernel⟩, by decide +kernel, by decide +kernel, by decide +kernel, by decide +kernel, by decide +kernel⟩, by decide +kernel⟩

theorem witness_JoinedAt_bad : (lineFault (isYard 0) false badLine).isSome = true := by decide +kernel

theorem witness_StepRunsDecoded_lanes : ∃ t, LanesRun twoAdds (lanes.filter ((atTurn.cr 0).c.lane ≤ ·)) (lineStart atTurn 0) t := by
  have h : lanes.filter ((atTurn.cr 0).c.lane ≤ ·) = [1, 2, 3, 4, 5, 6, 7] := by decide +kernel
  rw [h]
  exact ⟨_, by decide +kernel, .add 0 3 1 2, _, by decide +kernel, rfl, by decide +kernel, by decide +kernel,
    .li 0 7 0x13 0x1960, _, by decide +kernel, rfl, by decide +kernel, rfl⟩

theorem witness_ForkedAt : ForkedAt atForkedTurn 0 .c twoAdds ∧
    (ownLanes twoAdds .c).filter (((atForkedTurn.cr 0).st .c).lane ≤ ·) = [1, 2] ∧
    laneFault (isYard 0) true twoAdds .c 1 = none ∧ (laneFault (isYard 0) true badLine .c 1).isSome = true := by
  refine ⟨⟨⟨0, .c, rfl, by decide +kernel⟩, by decide +kernel, by decide +kernel, by decide +kernel, by decide +kernel⟩, by decide +kernel, by decide +kernel, by decide +kernel⟩

theorem witness_EncodingRoundTrip : (Instr.drain 0 2 0 3 0 0 0 0 31 0 0 0).wf .d = true ∧ (Instr.jmp 3 5).wf .a = true := by
  decide

theorem witness_MemoryStaysCanonical : MemOk atTurn ∧ GoesOn (step atTurn) := ⟨by unfold MemOk; decide, ⟨_, rfl⟩⟩

end Sys2Proof.Tests
end

section
/-! PROOFS. A write of bytes within one line (O9): what memory holds after it, with a scrub pending or none. -/

namespace Sys2Proof.Machine
open Claims

/-- A write to a line with no scrub pending writes its bytes and nothing else (R257). -/
theorem State.writeBytes_mem_of_clean {s : State} {pa : Nat} (h : s.scrubbed pa = false) (bs : List Byte) :
    (s.writeBytes pa bs).mem = Mem.write s.mem (s.key (pa / 256 * 256) + pa % 256) bs := by
  simp [State.writeBytes, h]

/-- A write to a line whose scrub is pending writes the line's zeros first (R393). -/
theorem State.writeBytes_mem_of_scrubbed {s : State} {pa : Nat} (h : s.scrubbed pa = true) (bs : List Byte) :
    (s.writeBytes pa bs).mem =
      Mem.write (Mem.write s.mem (s.key (pa / 256 * 256)) (List.replicate 256 0)) (s.key (pa / 256 * 256) + pa % 256) bs := by
  unfold State.writeBytes
  generalize List.replicate 256 (0 : Byte) = z
  simp [h]

/-- A byte after a run of zeros has been written. -/
theorem Mem.get_write_zeros (m : Sparse Byte) (k n y : Nat) :
    Sparse.get Config.blankByte (Mem.write m k (List.replicate n 0)) y =
      if k ≤ y ∧ y < k + n then 0 else Sparse.get Config.blankByte m y := by
  rw [Mem.get_write, List.length_replicate]
  split
  · exact List.getD_replicate _ (by omega)
  · rfl

/-- A write of a whole line ends its poison (R257). -/
theorem State.writeBytes_poison_of_full (s : State) (pa : Nat) {bs : List Byte} (h : bs.length = 256) :
    (s.writeBytes pa bs).poison.contains (s.key (pa / 256 * 256) / 256) = false := by
  unfold State.writeBytes
  generalize List.replicate 256 (0 : Byte) = z
  simp [h]

/-- Settles O9: a pending scrub writes the line's zeros, and then the bytes are written. -/
theorem memoryWrite : Obligations.MemoryWrite := by
  intro s pa bs _ _
  refine ⟨fun h a => ?_, fun h a => ?_, s.wf_writeBytes pa bs, s.writeBytes_cores pa bs, s.writeBytes_yard0 pa bs,
    s.writeBytes_yard1 pa bs, s.writeBytes_ctxs pa bs, s.writeBytes_launches pa bs, s.writeBytes_poison_of_full pa⟩
  · rw [byteAt, State.writeBytes_mem_of_clean h, Mem.get_write]; rfl
  · rw [byteAt, State.writeBytes_mem_of_scrubbed h, Mem.get_write, Mem.get_write_zeros]; rfl
end Sys2Proof.Machine
end

section
/-! PROOFS. Writes of control registers (O27): what CSRW, CSRS and CSRC read, what a write leaves of a yardmaster's registers,
the run of the operation for each kind of register, and the effects that an access of FLAGS puts off. -/

namespace Sys2Proof.Machine
open Claims

/-! ### The three instructions as one -/

/-- Each of the three is the one operation, in its own way of changing a register. -/
theorem exec_of_mem_csrOps {x : (BitVec 2 → BitVec 5 → BitVec 5 → BitVec 12 → Instr) × (DWord → DWord → DWord)}
    (h : x ∈ csrOps) : ∃ op : CsrOp, x.2 = op.apply ∧
      ∀ w d a n s, exec (x.1 w d a n) s = changeCsr (x.1 w d a n) w d a n op s := by
  simp only [csrOps, List.mem_cons, List.not_mem_nil, or_false] at h
  rcases h with rfl | rfl | rfl
  · exact ⟨.write, rfl, fun _ _ _ _ _ => rfl⟩
  · exact ⟨.set, rfl, fun _ _ _ _ _ => rfl⟩
  · exact ⟨.clear, rfl, fun _ _ _ _ _ => rfl⟩

/-! ### What is read -/

/-- A core's register reads the claim's value. -/
theorem Core.readCsr_of_coreCsr {s : State} {n : Nat} {old : DWord} (h : coreCsr s n = some old) :
    s.me.readCsr s.core s.now n = old := by
  rw [coreCsr] at h
  generalize s.me = c at h ⊢
  unfold Core.readCsr
  by_cases h5 : n ≤ 5
  · rw [if_pos h5] at h ⊢; exact Option.some.inj h
  rw [if_neg h5] at h ⊢
  by_cases h6 : n = 6
  · rw [if_pos h6] at h ⊢; exact Option.some.inj h
  rw [if_neg h6] at h ⊢
  by_cases hl : 8 ≤ n ∧ n ≤ 13
  · rw [if_pos hl] at h
    rw [if_pos hl.2, Core.loopIndex, Core.lead, ite_self]
    exact Option.some.inj h
  rw [if_neg hl] at h
  by_cases h7 : n = 7
  · subst h7; simp at h
  rw [if_neg (by omega : ¬ n ≤ 13)]
  by_cases ht : n = 0x10
  · rw [if_pos ht] at h ⊢; exact Option.some.inj h
  rw [if_neg ht] at h ⊢
  by_cases hf : n = 0x11
  · rw [if_pos hf] at h ⊢; exact Option.some.inj h
  rw [if_neg hf] at h ⊢
  by_cases hc : n = 0x12
  · rw [if_pos hc] at h ⊢; exact Option.some.inj h
  rw [if_neg hc] at h ⊢
  by_cases hp : n = 0x13
  · rw [if_pos hp] at h ⊢; exact Option.some.inj h
  rw [if_neg hp] at h ⊢
  by_cases hs : n = 0x14
  · rw [if_pos hs] at h ⊢; exact Option.some.inj h
  rw [if_neg hs] at h ⊢
  by_cases hn : 0x20 ≤ n ∧ n ≤ 0x2F
  · rw [if_pos hn] at h
    rw [if_pos (by omega)]
    exact Option.some.inj h
  rw [if_neg hn] at h
  by_cases hd : n = 0x30
  · subst hd; rw [if_pos rfl] at h; exact Option.some.inj h
  rw [if_neg hd] at h
  by_cases ha : n = 0x31
  · subst ha; rw [if_pos rfl] at h; exact Option.some.inj h
  rw [if_neg ha] at h
  by_cases hk : n = 0x32
  · subst hk; rw [if_pos rfl] at h; exact Option.some.inj h
  rw [if_neg hk] at h
  by_cases hd' : n = 0x33
  · subst hd'; rw [if_pos rfl] at h; exact Option.some.inj h
  rw [if_neg hd'] at h
  contradiction

/-- `YIP` as a number: the pending bits above the trap FIFO's (R109). -/
theorem State.yip_eq (s : State) (p : Nat) :
    s.yip p = BitVec.ofNat 64 (2 * (s.yard p).yip.toNat + if s.trapFifo = [] then 0 else 1) := by
  unfold State.yip
  generalize (s.yard p).yip = y
  cases s.trapFifo with
  | nil => revert y; decide
  | cons e es => simp only [List.isEmpty_cons, reduceCtorEq]; revert y; decide

/-- A yardmaster's register reads the claim's value. -/
theorem State.readYardCsr_of_yardCsr {s : State} {n : Nat} {old : DWord} (h : yardCsr s n = some old) :
    s.readYardCsr s.core n = old := by
  have hy := s.yip_eq s.core
  rw [yardCsr] at h
  split_ifs at h with _ _ _ _ _ _ _ ht <;> subst n <;> rw [← Option.some.inj h]
  · rfl
  · rfl
  · rfl
  · rfl
  · rfl
  · simp only [State.readYardCsr]
    cases (s.yard s.core).pie <;> cases (s.yard s.core).ie <;> rfl
  · rw [if_pos ht] at hy; exact hy
  · rw [if_neg ht] at hy; exact hy
  · rfl

/-- The head of the trap FIFO, or zero, and the FIFO without it. -/
theorem State.popTrapq_eq (s : State) : s.popTrapq = (s.trapFifo.headD 0, { s with trapFifo := s.trapFifo.drop 1 }) := by
  obtain ⟨q, hq⟩ : ∃ q, s.trapFifo = q := ⟨_, rfl⟩
  unfold State.popTrapq
  cases q with
  | nil =>
    simp only [hq, List.headD_nil, List.drop_nil, Prod.mk.injEq, true_and]
    rw [← hq]
  | cons v vs => simp only [hq, List.headD_cons, List.drop_succ_cons, List.drop_zero]

/-! ### What a write leaves -/

theorem getS_gave (s : State) (d r : BitVec 5) (v : DWord) :
    (gave s d v 0).me.getS r = if r = 0 then 0 else if r = d then v else s.me.getS r := by
  have hk : (s.me.kill (.s d)).getS r = s.me.getS r := by simp [Core.getS]
  rw [← hk, ← Core.getS_putS]
  simp [gave]

theorem State.setYard_yard (s : State) (p : Nat) : s.setYard p (s.yard p) = s := by
  unfold State.setYard State.yard
  split <;> rfl

/-- A restart of the limit leaves everything but the limit, and on the primary a pending SWITCH. -/
theorem State.beat_eq (s : State) (p : Nat) :
    ∃ x, s.beat p = { s.setYard p { s.yard p with hb := 0 } with plovelm := x } := by
  unfold State.beat
  dsimp only
  split
  · exact ⟨_, rfl⟩
  · exact ⟨(s.setYard p { s.yard p with hb := 0 }).plovelm, rfl⟩

/-- A write changes the yardmaster's registers as the claim says, and of the rest at most a pending SWITCH. -/
theorem State.writeYardCsr_eq (s : State) (p n : Nat) (v : DWord) :
    ∃ x, s.writeYardCsr p n v = { s.setYard p (yardAfter (s.yard p) n v) with plovelm := x } := by
  have hp := s.setYard_plovelm p
  unfold State.writeYardCsr
  split
  case h_8 => exact s.beat_eq p
  case h_9 h0 h1 h2 h3 h4 h5 h6 h8 =>
    refine ⟨s.plovelm, ?_⟩
    rw [yardAfter, if_neg h0, if_neg h1, if_neg h2, if_neg h3, if_neg h4, if_neg h5, if_neg h6, if_neg h8,
      s.setYard_yard]
  all_goals exact ⟨s.plovelm, (hp _).symm ▸ rfl⟩

/-- The other yardmaster's registers stay. -/
theorem State.yard_setYard_other (s : State) {p : Nat} (hp : p = 512 ∨ p = 513) (y : Yard) :
    (s.setYard p y).yard (1025 - p) = s.yard (1025 - p) := by
  rcases hp with rfl | rfl <;> rfl

/-! ### Running a meaning -/

theorem Act.bind_ok {α β : Type} {m : Act α} {f : α → Act β} {s t : State} {x : α} (h : m s = .ok (x, t)) :
    (m >>= f) s = f x t := by
  simp [bind, StateT.bind, Except.bind, h]

theorem Act.get_bind {β : Type} (f : State → Act β) (s : State) : (get >>= f) s = f s s := rfl

theorem Act.set_bind {β : Type} (f : PUnit → Act β) (s t : State) : (set t >>= f : Act β) s = f ⟨⟩ t := rfl

theorem readCsr_trapq {n : Nat} {s : State} (h : n = 0x811) :
    readCsr n s = .ok (s.trapFifo.headD 0, { s with trapFifo := s.trapFifo.drop 1 }) := by
  rw [readCsr, if_pos h, s.popTrapq_eq]

theorem readCsr_yard {n : Nat} {s : State} (h : n ≠ 0x811) (hy : isYard s.core = true) :
    readCsr n s = .ok (s.readYardCsr s.core n, s) := by
  rw [readCsr, if_neg h, if_pos hy]

theorem readCsr_core {n : Nat} {s : State} (h : n ≠ 0x811) (hy : isYard s.core = false) :
    readCsr n s = .ok (s.me.readCsr s.core s.now n, s) := by
  rw [readCsr, if_neg h, if_neg (by simp [hy])]

/-! ### The operation, by the register it changes -/

section
variable {i : Instr} {w : BitVec 2} {d a : BitVec 5} {n : BitVec 12} {op : CsrOp} {s : State}

/-- On a yardmaster, a register but TRAPQ: written, and the old value in s[d]. -/
theorem changeCsr_yard (hi : s.refusal i = none ∧ s.issues w = true) (ha : Free s (.s a)) (hy : isYard s.core = true)
    (hn : n.toNat ≠ 0x811) :
    let old := s.readYardCsr s.core n.toNat
    changeCsr i w d a n op s =
      .next { gave (s.writeYardCsr s.core n.toNat (op.apply old (s.me.getS a))) d old 0 with lane := .done } := by
  refine run_done hi.1 hi.2 ?_
  rw [Act.bind_ok (readS_ok ha)]
  dsimp only
  rw [Act.bind_ok (readCsr_yard hn hy), Act.get_bind, if_pos hy, Act.set_bind]
  rfl

/-- On a yardmaster, TRAPQ: its head word in s[d], and the FIFO without it. -/
theorem changeCsr_trapq (hi : s.refusal i = none ∧ s.issues w = true) (ha : Free s (.s a)) (hy : isYard s.core = true)
    (hn : n.toNat = 0x811) :
    changeCsr i w d a n op s =
      .next { gave { s with trapFifo := s.trapFifo.drop 1 } d (s.trapFifo.headD 0) 0 with lane := .done } := by
  refine run_done hi.1 hi.2 ?_
  rw [Act.bind_ok (readS_ok ha)]
  dsimp only
  rw [Act.bind_ok (readCsr_trapq hn), Act.get_bind, if_pos hy, Act.set_bind, hn]
  rfl

/-- On a compute core, a register but FLAGS and the counters: read, not written. -/
theorem changeCsr_readOnly (hi : s.refusal i = none ∧ s.issues w = true) (ha : Free s (.s a)) (hy : isYard s.core = false)
    (hq : n.toNat ≠ 0x811) (hf : n.toNat ≠ 0x11) (hc : n.toNat < 0x20 ∨ 0x30 ≤ n.toNat) :
    changeCsr i w d a n op s = .next { gave s d (s.me.readCsr s.core s.now n.toNat) 0 with lane := .done } := by
  refine run_done hi.1 hi.2 ?_
  rw [Act.bind_ok (readS_ok ha)]
  dsimp only
  rw [Act.bind_ok (readCsr_core hq hy), Act.get_bind, if_neg (by simp [hy]), if_neg hf, if_neg (by simp; omega)]
  rfl

/-- The state after an effect of the acting stream has been put off to the end of the cycle. -/
def State.deferring (s : State) (release : Bool) (e : SyncEff) : State :=
  s.setMe { s.me with
    deferred := s.me.deferred ++ [⟨s.stream, s.now, s.me.seq, release, e⟩]
    seq := s.me.seq + 1 }

theorem defer_eq (b : Bool) (e : SyncEff) (s : State) : defer b e s = .ok ((), s.deferring b e) := rfl

/-- On a compute core, a counter: its change put off, and the old value for s[d] to come. -/
theorem changeCsr_counter (hi : s.refusal i = none ∧ s.issues w = true) (ha : Free s (.s a)) (hy : isYard s.core = false)
    (hc : 0x20 ≤ n.toNat) (hc' : n.toNat < 0x30) :
    let old := s.me.readCsr s.core s.now n.toNat
    let t := s.deferring false (.cntSet (BitVec.ofNat 4 (n.toNat - 0x20)) ((op.apply old (s.me.getS a)).setWidth 32))
    changeCsr i w d a n op s = .next { gave t.delay.2 d old t.delay.1 with lane := .done } := by
  refine run_done hi.1 hi.2 ?_
  rw [Act.bind_ok (readS_ok ha)]
  dsimp only
  rw [Act.bind_ok (readCsr_core (by omega) hy), Act.get_bind, if_neg (by simp [hy]), if_neg (by omega),
    if_pos (by simp; omega), Act.bind_ok (defer_eq _ _ _), Act.get_bind, Act.set_bind]
  rw [gave, if_neg (by simp [State.delay]), writeSLate]
  split <;> rfl

/-- On a compute core, FLAGS: its changes put off, and the flags that the stream sees in s[d]. -/
theorem changeCsr_flags {t : State} (hi : s.refusal i = none ∧ s.issues w = true) (ha : Free s (.s a))
    (hy : isYard s.core = false) (hn : n.toNat = 0x11) (ht : csrFlags op (s.me.getS a) s = .ok ((), t)) :
    changeCsr i w d a n op s = .next { gave t d ((s.me.view .c s.now).flags.setWidth 64) 0 with lane := .done } := by
  refine run_done hi.1 hi.2 ?_
  rw [Act.bind_ok (readS_ok ha)]
  dsimp only
  rw [Act.bind_ok (readCsr_core (by omega) hy), Act.get_bind, if_neg (by simp [hy]), if_pos hn, Act.bind_ok ht, hn]
  rfl

end

/-! ### The change of FLAGS, effect by effect -/

/-- What putting effects off to the end of the cycle changes: `ds` stand after the effects put off before. -/
structure Defers (s t : State) (ds : List Deferred) : Prop where
  deferred : t.me.deferred = s.me.deferred ++ ds
  regs : t.me.regs = s.me.regs
  flags : t.me.flags = s.me.flags
  counters : t.me.counters = s.me.counters
  mem : t.mem = s.mem
  core : t.core = s.core
  stream : t.stream = s.stream
  others : OtherCores s t s.core

theorem Defers.refl (s : State) : Defers s s [] :=
  ⟨(List.append_nil _).symm, rfl, rfl, rfl, rfl, rfl, rfl, fun _ _ => rfl⟩

theorem Defers.trans {s t u : State} {ds es : List Deferred} (h : Defers s t ds) (k : Defers t u es) :
    Defers s u (ds ++ es) where
  deferred := by rw [k.deferred, h.deferred, List.append_assoc]
  regs := k.regs.trans h.regs
  flags := k.flags.trans h.flags
  counters := k.counters.trans h.counters
  mem := k.mem.trans h.mem
  core := k.core.trans h.core
  stream := k.stream.trans h.stream
  others q hq := (k.others q (h.core.symm ▸ hq)).trans (h.others q hq)

/-- Of another core than the acting one, a write of the acting one changes nothing. -/
theorem State.otherCores_setMe (s : State) (c : Core) : OtherCores s (s.setMe c) s.core := fun q hq => by
  simp [State.setMe, hq]

theorem State.defers_deferring (s : State) (b : Bool) (e : SyncEff) :
    Defers s (s.deferring b e) [⟨s.stream, s.now, s.me.seq, b, e⟩] where
  deferred := by simp [State.deferring]
  regs := by simp [State.deferring]
  flags := by simp [State.deferring]
  counters := by simp [State.deferring]
  mem := rfl
  core := rfl
  stream := rfl
  others := s.otherCores_setMe _

/-- The flag effects of a mask, one for each named flag. -/
def flagEffs (b : Bool) (p : Nat → Bool) (is : List Nat) : List SyncEff :=
  (is.filter p).map fun i => .flag (BitVec.ofNat 3 i) b

/-- Putting off one flag effect for each named flag. -/
theorem forM_defer_flags (b : Bool) (p : Nat → Bool) (is : List Nat) (s : State) :
    ∃ t ds, (is.forM fun i => if p i then defer true (.flag (BitVec.ofNat 3 i) b) else pure ()) s = .ok ((), t) ∧
      Defers s t ds ∧ ds.map (·.eff) = flagEffs b p is ∧ ∀ e ∈ ds, e.st = s.stream ∧ e.release = true := by
  induction is generalizing s with
  | nil => exact ⟨s, [], rfl, .refl s, rfl, by simp⟩
  | cons i is ih =>
    rw [List.forM]
    by_cases hp : p i = true
    · obtain ⟨t, ds, hrun, hds, heff, hall⟩ := ih (s.deferring true (.flag (BitVec.ofNat 3 i) b))
      refine ⟨t, _, ?_, (s.defers_deferring true _).trans hds, ?_, ?_⟩
      · rw [if_pos hp, Act.bind_ok (defer_eq _ _ _), hrun]
      · simp [flagEffs, hp, heff]
      · intro e he
        rcases List.mem_cons.mp he with rfl | he
        · exact ⟨rfl, rfl⟩
        · exact hall e he
    · obtain ⟨t, ds, hrun, hds, heff, hall⟩ := ih s
      refine ⟨t, ds, ?_, hds, ?_, hall⟩
      · rw [if_neg hp, Act.bind_ok (rfl : (pure () : Act Unit) s = _), hrun]
      · simp [flagEffs, hp, heff]

theorem setFlag_getLsbD (f : BitVec 8) (n : BitVec 3) (b : Bool) (k : BitVec 3) :
    (setFlag f n b).getLsbD k.toNat = if k = n then b else f.getLsbD k.toNat := by
  have hk : k.toNat < 8 := k.isLt
  by_cases h : k = n
  · subst h
    cases b <;> simp [setFlag, hk]
  · have hne : k.toNat ≠ n.toNat := fun e => h (BitVec.eq_of_toNat_eq e)
    have hlt : k.toNat < n.toNat ∨ k.toNat - n.toNat ≠ 0 := by omega
    cases b <;> simp [setFlag, h, hk] <;> omega

/-- The flags after the effects of a mask: the named ones set or cleared. -/
theorem flags_foldl_flagEffs (b : Bool) (p : Nat → Bool) (k : BitVec 3) (is : List Nat) (hi : ∀ i ∈ is, i < 8) (c : Core) :
    ((flagEffs b p is).foldl Core.apply c).flags.getLsbD k.toNat =
      if k.toNat ∈ is ∧ p k.toNat = true then b else c.flags.getLsbD k.toNat := by
  induction is generalizing c with
  | nil => simp [flagEffs]
  | cons i is ih =>
    have hi8 : i < 8 := hi i (List.mem_cons_self ..)
    have ih := ih fun j hj => hi j (List.mem_cons_of_mem _ hj)
    have hki : k = BitVec.ofNat 3 i ↔ k.toNat = i := by
      rw [← BitVec.toNat_inj, BitVec.toNat_ofNat, Nat.mod_eq_of_lt hi8]
    unfold flagEffs at ih ⊢
    by_cases hp : p i = true
    · rw [List.filter_cons_of_pos hp, List.map_cons, List.foldl_cons, ih]
      simp only [Core.apply, setFlag_getLsbD, hki, List.mem_cons]
      by_cases h : k.toNat = i
      · rw [if_pos h, h]
        simp [hp]
      · simp [h]
    · rw [List.filter_cons_of_neg hp, ih]
      simp only [List.mem_cons]
      by_cases h : k.toNat = i
      · rw [h]; simp [hp]
      · simp [h]

/-- An access of FLAGS puts its effects off; once they take place each flag is written, set or cleared as its way says. -/
theorem csrFlags_defers (op : CsrOp) (v : DWord) (s : State) :
    ∃ t ds, csrFlags op v s = .ok ((), t) ∧ Defers s t ds ∧ (∀ e ∈ ds, e.st = s.stream ∧ e.release = true) ∧
      ∀ (c : Core) (k : BitVec 3), ((ds.map (·.eff)).foldl Core.apply c).flags.getLsbD k.toNat =
        (op.apply (c.flags.setWidth 64) v).getLsbD k.toNat := by
  have hmask : ∀ b : Bool, ∃ t ds,
      ((List.range 8).forM fun i => if v.getLsbD i then defer true (.flag (BitVec.ofNat 3 i) b) else pure ()) s =
        .ok ((), t) ∧ Defers s t ds ∧ (∀ e ∈ ds, e.st = s.stream ∧ e.release = true) ∧
      ∀ (c : Core) (k : BitVec 3), ((ds.map (·.eff)).foldl Core.apply c).flags.getLsbD k.toNat =
        if v.getLsbD k.toNat = true then b else c.flags.getLsbD k.toNat := by
    intro b
    obtain ⟨t, ds, hrun, hds, heff, hall⟩ := forM_defer_flags b v.getLsbD (List.range 8) s
    refine ⟨t, ds, hrun, hds, hall, fun c k => ?_⟩
    rw [heff, flags_foldl_flagEffs b v.getLsbD k _ (fun i hi => List.mem_range.mp hi) c]
    simp [show k.toNat < 8 from k.isLt]
  have hwide : ∀ (f : BitVec 8) (k : BitVec 3), (f.setWidth 64).getLsbD k.toNat = f.getLsbD k.toNat := fun f k => by
    have hk : k.toNat < 8 := k.isLt
    simp only [BitVec.getLsbD_setWidth, show k.toNat < 64 by omega, decide_true, Bool.true_and]
  cases op with
  | write =>
    refine ⟨_, _, rfl, s.defers_deferring true _, by simp, fun c k => ?_⟩
    simp [Core.apply, CsrOp.apply, show k.toNat < 8 from k.isLt]
  | set =>
    obtain ⟨t, ds, hrun, hds, hall, hbit⟩ := hmask true
    refine ⟨t, ds, hrun, hds, hall, fun c k => ?_⟩
    rw [hbit, CsrOp.apply, BitVec.getLsbD_or, hwide]
    cases v.getLsbD k.toNat <;> simp
  | clear =>
    obtain ⟨t, ds, hrun, hds, hall, hbit⟩ := hmask false
    refine ⟨t, ds, hrun, hds, hall, fun c k => ?_⟩
    have hk : k.toNat < 64 := Nat.lt_trans k.isLt (by decide)
    rw [hbit, CsrOp.apply, BitVec.getLsbD_and, hwide, BitVec.getLsbD_not]
    cases v.getLsbD k.toNat <;> simp [hk]

/-! ### The claim -/

theorem otherCores_gave (s : State) (d : BitVec 5) (v : DWord) (lat : Nat) : OtherCores s (gave s d v lat) s.core := by
  unfold gave
  split
  · exact s.otherCores_setMe _
  · split
    · exact fun _ _ => rfl
    · exact s.otherCores_setMe _

theorem gave_mem (s : State) (d : BitVec 5) (v : DWord) (lat : Nat) : (gave s d v lat).mem = s.mem := by
  unfold gave
  split
  · rfl
  · split <;> rfl

theorem gave_yard (s : State) (d : BitVec 5) (v : DWord) (lat p : Nat) : (gave s d v lat).yard p = s.yard p := by
  unfold gave
  split
  · rfl
  · split <;> rfl

theorem gave_me_c (s : State) (d : BitVec 5) (v : DWord) (lat : Nat) : (gave s d v lat).me.c = s.me.c := by
  unfold gave
  split
  · simp
  · split <;> simp

theorem gave_me_flags (s : State) (d : BitVec 5) (v : DWord) (lat : Nat) : (gave s d v lat).me.flags = s.me.flags := by
  unfold gave
  split
  · simp
  · split <;> simp

theorem gave_me_counters (s : State) (d : BitVec 5) (v : DWord) (lat : Nat) :
    (gave s d v lat).me.counters = s.me.counters := by
  unfold gave
  split
  · simp
  · split <;> simp

theorem gave_me_deferred (s : State) (d : BitVec 5) (v : DWord) (lat : Nat) :
    (gave s d v lat).me.deferred = s.me.deferred := by
  unfold gave
  split
  · simp
  · split <;> simp

theorem Core.getS_congr {b c : Core} (h : b.regs = c.regs) (r : BitVec 5) : b.getS r = c.getS r := by
  rw [Core.getS, Core.getS, h]

theorem trapq_of_yardCsr {s : State} {n : Nat} {old : DWord} (h : yardCsr s n = some old) : n ≠ 0x811 := by
  rintro rfl
  exact absurd h (by simp [yardCsr])

section
variable {i : Instr} {w : BitVec 2} {d a : BitVec 5} {n : BitVec 12} {op : CsrOp} {s : State}

/-- The claim of a yardmaster's register. -/
theorem csrWrites_yard {old : DWord} (hs : s.core = 512 ∨ s.core = 513) (hi : s.refusal i = none ∧ s.issues w = true)
    (ha : Free s (.s a)) (ho : yardCsr s n.toNat = some old) :
    ∃ t, changeCsr i w d a n op s = .next { t with lane := .done } ∧
      t.yard s.core = yardAfter (s.yard s.core) n.toNat (op.apply old (s.me.getS a)) ∧
      (∀ r, t.me.getS r = if r = 0 then 0 else if r = d then old else s.me.getS r) ∧
      t.yard (1025 - s.core) = s.yard (1025 - s.core) ∧ t.me.c = s.me.c ∧ t.mem = s.mem ∧ OtherCores s t s.core := by
  have hy : isYard s.core = true := by rcases hs with h | h <;> rw [h] <;> rfl
  have hrun := changeCsr_yard (d := d) (op := op) hi ha hy (trapq_of_yardCsr ho)
  simp only [State.readYardCsr_of_yardCsr ho] at hrun
  obtain ⟨x, hx⟩ := s.writeYardCsr_eq s.core n.toNat (op.apply old (s.me.getS a))
  rw [hx] at hrun
  generalize hz : yardAfter (s.yard s.core) n.toNat (op.apply old (s.me.getS a)) = y at hrun ⊢
  obtain ⟨u, hu⟩ : ∃ u : State, u = { s.setYard s.core y with plovelm := x } := ⟨_, rfl⟩
  rw [← hu] at hrun
  have hcr : ∀ q, u.cr q = s.cr q := fun q => by rw [hu]; exact s.cr_setYard s.core q y
  have hcore : u.core = s.core := by rw [hu]; exact s.setYard_core s.core y
  have hme : u.me = s.me := by rw [State.me, hcore]; exact hcr s.core
  have hyard : ∀ p, u.yard p = (s.setYard s.core y).yard p := fun p => by rw [hu]; rfl
  refine ⟨_, hrun, ?_, fun r => ?_, ?_, ?_, ?_, fun q hq => ?_⟩
  · rw [gave_yard, hyard, s.yard_setYard]
  · rw [getS_gave, hme]
  · rw [gave_yard, hyard, s.yard_setYard_other hs]
  · rw [gave_me_c, hme]
  · rw [gave_mem, hu]; exact s.setYard_mem s.core y
  · rw [otherCores_gave u d old 0 q (hcore.symm ▸ hq), hcr]

/-- The claim of a counter. -/
theorem csrWrites_counter {old : DWord} (hs : s.core < 512) (hi : s.refusal i = none ∧ s.issues w = true)
    (ha : Free s (.s a)) (ho : coreCsr s n.toNat = some old) (hl : 0x20 ≤ n.toNat) (hu : n.toNat < 0x30) :
    ∃ t, changeCsr i w d a n op s = .next { t with lane := .done } ∧
      t.me.counters = s.me.counters ∧ t.mem = s.mem ∧ OtherCores s t s.core ∧
        t.me.deferred = s.me.deferred ++ [⟨s.stream, s.now, s.me.seq, false,
          .cntSet (BitVec.ofNat 4 (n.toNat - 0x20)) ((op.apply old (s.me.getS a)).setWidth 32)⟩] := by
  have hy : isYard s.core = false := by simp [isYard, hs]
  have hrun := changeCsr_counter (d := d) (op := op) hi ha hy hl hu
  simp only [Core.readCsr_of_coreCsr ho] at hrun
  have hd := s.defers_deferring false
    (.cntSet (BitVec.ofNat 4 (n.toNat - 0x20)) ((op.apply old (s.me.getS a)).setWidth 32))
  refine ⟨_, hrun, ?_, ?_, fun q hq => ?_, ?_⟩
  · rw [gave_me_counters]; exact hd.counters
  · rw [gave_mem]; exact hd.mem
  · exact (otherCores_gave (s.deferring false _).delay.2 d old _ q hq).trans (hd.others q hq)
  · rw [gave_me_deferred]; exact hd.deferred

/-- The claim of FLAGS. -/
theorem csrWrites_flags (hs : s.core < 512) (hi : s.refusal i = none ∧ s.issues w = true)
    (ha : Free s (.s a)) (hn : n = 0x11) :
    ∃ t, changeCsr i w d a n op s = .next { t with lane := .done } ∧
      t.me.flags = s.me.flags ∧ t.mem = s.mem ∧ OtherCores s t s.core ∧
      (∀ r, t.me.getS r = if r = 0 then 0 else if r = d then ((s.me.view .c s.now).flags.setWidth 64) else s.me.getS r) ∧
      ∃ ds, t.me.deferred = s.me.deferred ++ ds ∧ (∀ e ∈ ds, e.st = s.stream ∧ e.release = true) ∧
        ∀ f : BitVec 8, ∀ k : BitVec 3,
          (ds.foldl (fun (c : Core) (e : Deferred) => c.apply e.eff) { s.me with flags := f }).flags.getLsbD k.toNat =
            (op.apply (f.setWidth 64) (s.me.getS a)).getLsbD k.toNat := by
  have hy : isYard s.core = false := by simp [isYard, hs]
  obtain ⟨t, ds, ht, hds, hall, hbit⟩ := csrFlags_defers op (s.me.getS a) s
  have hrun := changeCsr_flags (d := d) hi ha hy (congrArg BitVec.toNat hn) ht
  refine ⟨_, hrun, ?_, ?_, fun q hq => ?_, fun r => ?_, ds, ?_, hall, fun f k => ?_⟩
  · rw [gave_me_flags, hds.flags]
  · rw [gave_mem, hds.mem]
  · exact (otherCores_gave t d _ 0 q (hds.core.symm ▸ hq)).trans (hds.others q hq)
  · rw [getS_gave, Core.getS_congr hds.regs]
  · rw [gave_me_deferred, hds.deferred]
  · have h := hbit { s.me with flags := f } k
    rw [List.foldl_map] at h
    exact h

end

/-- Settles O27: the three instructions are one operation, whose run is followed for each kind of register. -/
theorem csrWrites : Obligations.CsrWrites := by
  intro x hx w d a n s i
  obtain ⟨op, hop, hexec⟩ := exec_of_mem_csrOps hx
  rw [hop]
  unfold Does
  rw [show exec i s = _ from hexec w d a n s]
  refine ⟨fun old hs hi ha ho => csrWrites_yard hs hi ha ho, fun hs hi ha hn => ?_, fun old hs hi ha ho hf hc => ?_,
    fun old hs hi ha ho hl hu => csrWrites_counter hs hi ha ho hl hu, fun hs hi ha hn => csrWrites_flags hs hi ha hn⟩
  · exact changeCsr_trapq hi ha (by rcases hs with h | h <;> rw [h] <;> rfl) (congrArg BitVec.toNat hn)
  · have hy : isYard s.core = false := by simp [isYard, hs]
    have hf : n.toNat ≠ 0x11 := fun h => hf (BitVec.eq_of_toNat_eq h)
    rw [changeCsr_readOnly hi ha hy (fun h => ?_) hf hc, Core.readCsr_of_coreCsr ho]
    rw [h] at ho
    exact absurd ho (by simp [coreCsr])

end Sys2Proof.Machine
end

section
/-! PROOFS. Memory stays canonical (O59). What every shape of step asks of its parts, stated once: a state, an event that may not
take place, the result of a meaning, and the outcome of an instruction. The files after this one go through the model's functions
with these rules, in its order. -/

namespace Sys2Proof.Machine

/-! ### States -/

@[simp] theorem Sparse.wf_ite (c : Prop) [Decidable c] (m n : Sparse Byte) :
    Mem.wf (if c then m else n) = true ↔ (c → Mem.wf m = true) ∧ (¬c → Mem.wf n = true) := by
  split <;> simp [*]

/-- Writing bytes one after another keeps the canonical form. -/
theorem Mem.wf_foldl_write {α : Type} {k : α → Nat} {bs : α → List Byte} (xs : List α) {m : Sparse Byte}
    (hm : Mem.wf m = true) : Mem.wf (xs.foldl (fun m x => Mem.write m (k x) (bs x)) m) = true := by
  induction xs generalizing m with
  | nil => exact hm
  | cons x xs ih => exact ih (Mem.wf_write _ _ _ hm)

@[simp] theorem State.mem_ite (c : Prop) [Decidable c] (s t : State) :
    (if c then s else t).mem = if c then s.mem else t.mem :=
  apply_ite State.mem c s t

@[simp] theorem State.snd_mem_ite {α : Type} (c : Prop) [Decidable c] (x y : α × State) :
    (if c then x else y).2.mem = if c then x.2.mem else y.2.mem := by
  split <;> rfl

/-- Steps that leave memory, one after another, leave it. -/
theorem State.foldl_mem {α : Type} {f : State → α → State} (hf : ∀ s x, (f s x).mem = s.mem) (xs : List α) (s : State) :
    (xs.foldl f s).mem = s.mem := by
  induction xs generalizing s with
  | nil => rfl
  | cons x xs ih => exact (ih _).trans (hf s x)

/-- The same for steps that carry the state along with other data. -/
theorem State.foldl_mem_of {α β : Type} {f : β → α → β} {g : β → State} (hf : ∀ s x, (g (f s x)).mem = (g s).mem)
    (xs : List α) (s : β) : (g (xs.foldl f s)).mem = (g s).mem := by
  induction xs generalizing s with
  | nil => rfl
  | cons x xs ih => exact (ih _).trans (hf s x)

/-- Steps that keep memory canonical, one after another, keep it so. -/
theorem State.wf_foldl {α : Type} {f : State → α → State}
    (hf : ∀ s x, Mem.wf s.mem = true → Mem.wf (f s x).mem = true) (xs : List α) {s : State}
    (hs : Mem.wf s.mem = true) : Mem.wf (xs.foldl f s).mem = true := by
  induction xs generalizing s with
  | nil => exact hs
  | cons x xs ih => exact ih (hf s x hs)

/-! A state that a step returns among other data, once the data have names. -/

theorem State.wf_fst {β : Type} {x : State × β} {t : State} {b : β} (h : x = (t, b)) (hx : Mem.wf x.1.mem = true) :
    Mem.wf t.mem = true := by
  subst h; exact hx

theorem State.wf_snd {β : Type} {x : β × State} {t : State} {b : β} (h : x = (b, t)) (hx : Mem.wf x.2.mem = true) :
    Mem.wf t.mem = true := by
  subst h; exact hx

theorem State.wf_mid {α β : Type} {x : α × State × β} {a : α} {t : State} {b : β} (h : x = (a, t, b))
    (hx : Mem.wf x.2.1.mem = true) : Mem.wf t.mem = true := by
  subst h; exact hx

/-! ### Events -/

/-- Memory is canonical after an event, if it takes place. -/
def EventOk (o : Option State) : Prop := ∀ t, o = some t → Mem.wf t.mem = true

@[simp] theorem eventOk_none : EventOk none := by simp [EventOk]

@[simp] theorem eventOk_some (t : State) : EventOk (some t) ↔ Mem.wf t.mem = true := by simp [EventOk]

@[simp] theorem eventOk_ite (c : Prop) [Decidable c] (x y : Option State) :
    EventOk (if c then x else y) ↔ (c → EventOk x) ∧ (¬c → EventOk y) := by
  split <;> simp [*]

@[simp] theorem eventOk_orElse (x y : Option State) : EventOk (x <|> y) ↔ EventOk x ∧ (x = none → EventOk y) := by
  cases x <;> simp

@[simp] theorem eventOk_or (x y : Option State) : EventOk (x.or y) ↔ EventOk x ∧ (x = none → EventOk y) := by
  cases x <;> simp

@[simp] theorem eventOk_bind {α : Type} (x : Option α) (f : α → Option State) :
    EventOk (x.bind f) ↔ ∀ a, x = some a → EventOk (f a) := by
  cases x <;> simp

@[simp] theorem eventOk_map {α : Type} (x : Option α) (f : α → State) :
    EventOk (x.map f) ↔ ∀ a, x = some a → Mem.wf (f a).mem = true := by
  cases x <;> simp

theorem EventOk.map {o : Option State} {f : State → State} (ho : EventOk o)
    (hf : ∀ t, Mem.wf t.mem = true → Mem.wf (f t).mem = true) : EventOk (o.map f) :=
  (eventOk_map o f).mpr fun t ht => hf t (ho t ht)

@[simp] theorem eventOk_findSome {α : Type} (xs : List α) {f : α → Option State} (hf : ∀ a, EventOk (f a)) :
    EventOk (xs.findSome? f) := by
  induction xs with
  | nil => exact eventOk_none
  | cons x xs ih =>
    simp only [List.findSome?]
    split
    case h_1 h => exact h ▸ hf x
    case h_2 => exact ih

@[simp] theorem eventOk_firstOf {α : Type} (xs : List α) {f : α → Option State} (hf : ∀ a, EventOk (f a)) :
    EventOk (firstOf xs f) := eventOk_findSome xs hf

@[simp] theorem State.wf_getD {o : Option State} {s : State} (ho : EventOk o) (hs : Mem.wf s.mem = true) :
    Mem.wf (o.getD s).mem = true := by
  cases o with
  | none => exact hs
  | some t => exact ho t rfl

/-! ### Meanings -/

/-- Memory is canonical in the state that a meaning answers. -/
def ResultOk {α : Type} (r : Except Stop (α × State)) : Prop := ∀ a t, r = .ok (a, t) → Mem.wf t.mem = true

@[simp] theorem resultOk_error {α : Type} (e : Stop) : ResultOk (.error e : Except Stop (α × State)) := by simp [ResultOk]

@[simp] theorem resultOk_ok {α : Type} (x : α × State) : ResultOk (.ok x) ↔ Mem.wf x.2.mem = true := by
  obtain ⟨a, t⟩ := x
  simp [ResultOk]

@[simp] theorem resultOk_ite {α : Type} (c : Prop) [Decidable c] (x y : Except Stop (α × State)) :
    ResultOk (if c then x else y) ↔ (c → ResultOk x) ∧ (¬c → ResultOk y) := by
  split <;> simp [*]

@[simp] theorem resultOk_set (s t : State) : ResultOk ((set t : Act Unit) s) ↔ Mem.wf t.mem = true := by
  simp [set, MonadStateOf.set, StateT.set, pure, Except.pure]

/-- A meaning goes on: the rest need keep only what the part before it answers. -/
theorem ResultOk.bind {α β : Type} {m : Act α} {f : α → Act β} {s : State}
    (hm : ∀ a t, m s = .ok (a, t) → ResultOk (f a t)) : ResultOk ((m >>= f) s) := by
  intro b u hu
  simp only [Bind.bind, StateT.bind, Except.bind] at hu
  split at hu
  · cases hu
  · rename_i x hx
    exact hm _ _ hx _ _ hu

/-- A meaning keeps memory canonical. -/
def ActOk {α : Type} (m : Act α) : Prop := ∀ s, Mem.wf s.mem = true → ResultOk (m s)

theorem resultOk_bind {α β : Type} {m : Act α} {f : α → Act β} {s : State} (hm : ResultOk (m s)) (hf : ∀ a, ActOk (f a)) :
    ResultOk ((m >>= f) s) :=
  ResultOk.bind fun a t ht => hf a t (hm a t ht)

@[simp] theorem actOk_bind {α β : Type} {m : Act α} {f : α → Act β} (hm : ActOk m) (hf : ∀ a, ActOk (f a)) :
    ActOk (m >>= f) :=
  fun s hs => resultOk_bind (hm s hs) hf

@[simp] theorem actOk_pure {α : Type} (a : α) : ActOk (pure a) := fun s h => by
  simpa [pure, StateT.pure, Except.pure] using h

@[simp] theorem actOk_map {α β : Type} {m : Act α} (f : α → β) (hm : ActOk m) : ActOk (f <$> m) :=
  actOk_bind hm fun a => actOk_pure (f a)

@[simp] theorem actOk_ite {α : Type} (c : Prop) [Decidable c] (m n : Act α) :
    ActOk (if c then m else n) ↔ (c → ActOk m) ∧ (¬c → ActOk n) := by
  split <;> simp [*]

@[simp] theorem actOk_get : ActOk (get : Act State) := fun s h => by
  simpa [get, getThe, MonadStateOf.get, StateT.get, pure, Except.pure] using h

/-- What follows a reading of the state may use that it is the state. -/
theorem actOk_get_bind {α : Type} {f : State → Act α} (hf : ∀ s, Mem.wf s.mem = true → ResultOk (f s s)) :
    ActOk (get >>= f) := hf

@[simp] theorem actOk_core : ActOk core := fun s h => by simpa [core] using h

@[simp] theorem actOk_modCore (f : Core → Core) : ActOk (modCore f) := fun s h => by simpa [modCore] using h

theorem actOk_modify_wf {f : State → State} (hf : ∀ s, Mem.wf s.mem = true → Mem.wf (f s).mem = true) :
    ActOk (modify f) := fun s h => by
  simpa [modify, modifyGet, MonadStateOf.modifyGet, StateT.modifyGet, pure, Except.pure] using hf s h

@[simp] theorem actOk_modify {f : State → State} (hf : ∀ s, (f s).mem = s.mem) : ActOk (modify f) :=
  actOk_modify_wf fun s hs => (hf s).symm ▸ hs

@[simp] theorem actOk_raise {α : Type} (c : Cause) (v : DWord) (k : List (Nat × Option Nat)) : ActOk (raise c v k : Act α) :=
  fun _ _ => resultOk_error _

@[simp] theorem actOk_refuse {α : Type} (c : Cause) (v : DWord) (u r : Nat) (a : DWord) (b : Bool) :
    ActOk (refuse c v u r a b : Act α) :=
  fun _ _ => resultOk_error _

@[simp] theorem actOk_wait {α : Type} (w : Wait) (l : Option Lookup) : ActOk (wait w l : Act α) :=
  fun _ _ => resultOk_error _

/-! A meaning that has stopped does not go on. -/

@[simp] theorem refuse_bind {α β : Type} (c : Cause) (v : DWord) (u r : Nat) (a : DWord) (b : Bool) (f : α → Act β) :
    refuse c v u r a b >>= f = refuse c v u r a b := by rfl

@[simp] theorem raise_bind {α β : Type} (c : Cause) (v : DWord) (k : List (Nat × Option Nat)) (f : α → Act β) :
    raise c v k >>= f = raise c v k := by rfl

@[simp] theorem wait_bind {α β : Type} (w : Wait) (l : Option Lookup) (f : α → Act β) : wait w l >>= f = wait w l := by rfl

@[simp] theorem actOk_require (b : Bool) (c : Cause) (v : DWord) : ActOk (require b c v) := by
  simp [require]

@[simp] theorem actOk_ready (b : Bool) (w : Wait) : ActOk (ready b w) := by
  simp [ready]

@[simp] theorem actOk_mapM {α β : Type} (xs : List α) {f : α → Act β} (hf : ∀ a, ActOk (f a)) : ActOk (xs.mapM f) := by
  induction xs with
  | nil => simp
  | cons x xs ih =>
    rw [List.mapM_cons]
    exact actOk_bind (hf x) fun _ => actOk_bind ih fun _ => actOk_pure _

@[simp] theorem actOk_forM {α : Type} (xs : List α) {f : α → Act Unit} (hf : ∀ a, ActOk (f a)) : ActOk (xs.forM f) := by
  induction xs with
  | nil => simp
  | cons x xs ih => exact actOk_bind (hf x) fun _ => ih

/-! ### Outcomes -/

/-- Memory is canonical in the next state of an outcome. -/
def OutcomeOk (o : Host.Outcome State Fault Refusal) : Prop := ∀ t, o = .next t → Mem.wf t.mem = true

@[simp] theorem outcomeOk_next (t : State) : OutcomeOk (.next t) ↔ Mem.wf t.mem = true := by simp [OutcomeOk]

@[simp] theorem outcomeOk_fault (r : Fault) : OutcomeOk (.fault r) := by simp [OutcomeOk]

@[simp] theorem outcomeOk_refused (r : Refusal) : OutcomeOk (.refused r) := by simp [OutcomeOk]

/-! ### The writes of memory

The laws of `Laws/State` and `Laws/Ops`, in the form that `simp` applies. -/

@[simp] theorem State.wf_mem_writeBytes {s : State} (pa : Nat) (bs : List Byte) (hs : Mem.wf s.mem = true) :
    Mem.wf (s.writeBytes pa bs).mem = true := State.wf_writeBytes s pa bs hs

@[simp] theorem State.wf_mem_setGranule {s : State} (pa v : Nat) (hs : Mem.wf s.mem = true) :
    Mem.wf (s.setGranule pa v).mem = true := State.wf_setGranule pa v hs

@[simp] theorem State.wf_mem_moveGranule {s : State} (a b : Nat) (hs : Mem.wf s.mem = true) :
    Mem.wf (s.moveGranule a b).mem = true := State.wf_moveGranule a b hs

@[simp] theorem State.wf_mem_clearPlane {s : State} (l : Launch) (p : Nat) (hs : Mem.wf s.mem = true) :
    Mem.wf (s.clearPlane l p).mem = true := State.wf_clearPlane l p hs

@[simp] theorem State.wf_mem_loadSlot {s : State} (b : Bool) (hs : Mem.wf s.mem = true) :
    Mem.wf (s.loadSlot b).mem = true := State.wf_loadSlot b hs

end Sys2Proof.Machine
end

section
/-! PROOFS. What the functions of the model do to memory (O59), in the model's order: they leave it (`_mem`), or keep it canonical (`wf_`,
`eventOk_`, `actOk_`, `outcomeOk_`). -/

namespace Sys2Proof.Machine

/-! ### The shared operations (Machine/Ops) -/

@[simp] theorem State.setYip_mem (s : State) (v : BitVec 3) : (s.setYip v).mem = s.mem := by
  simp [State.setYip]

@[simp] theorem State.raiseYip_mem (s : State) (i : Nat) : (s.raiseYip i).mem = s.mem := by
  simp [State.raiseYip]

@[simp] theorem State.applyYip_mem (s : State) : s.applyYip.mem = s.mem := by
  simp [State.applyYip]

@[simp] theorem State.delay_mem (s : State) : s.delay.2.mem = s.mem := by rfl

@[simp] theorem State.replyDue_mem (s : State) (scalar : Bool) (p pa : Nat) : (s.replyDue scalar p pa).2.mem = s.mem := by
  unfold State.replyDue
  split <;> rfl

@[simp] theorem State.wf_writeDw {s : State} (pa : Nat) (v : DWord) (hs : Mem.wf s.mem = true) :
    Mem.wf (s.writeDw pa v).mem = true := by
  simp [State.writeDw, hs]

@[simp] theorem State.wf_portWrite {s : State} (port pa : Nat) (bs : List Byte) (bad : Bool) (hs : Mem.wf s.mem = true) :
    Mem.wf (s.portWrite port pa bs bad).mem = true := by
  unfold State.portWrite
  split <;> simp [hs]

@[simp] theorem State.wf_applyWrites {s : State} (hs : Mem.wf s.mem = true) : Mem.wf s.applyWrites.mem = true := by
  unfold State.applyWrites
  exact State.wf_foldl (fun s x hs => by simp [hs]) _ (by simp [hs])

@[simp] theorem State.wf_setTileEntry {s : State} (ea : Nat) (e : BitVec 128) (h : Mem.wf s.mem = true) :
    Mem.wf (s.setTileEntry ea e).mem = true :=
  State.wf_writeBytes _ _ _ h

@[simp] theorem State.logError_mem (s : State) (u : Nat) (cause rsn ctx rqk rqi : Nat) (addr : DWord) :
    (s.logError u cause rsn ctx rqk rqi addr).mem = s.mem := by
  simp [State.logError]

@[simp] theorem State.asyncTrap_mem (s : State) (p strm : Nat) (t : TaskId) (pos : DWord) (c : Cause) (info : DWord) :
    (s.asyncTrap p strm t pos c info).mem = s.mem := by rfl

@[simp] theorem State.takeTrapAt_mem (s : State) (p : Nat) (st : Stream) (pos : DWord) (cause : Cause) (info : DWord) (kind obj swc : Nat) :
    (s.takeTrapAt p st pos cause info kind obj swc).mem = s.mem := by
  unfold State.takeTrapAt
  split
  · exact State.yardTrap_mem ..
  · rfl

@[simp] theorem State.takeTrap_mem (s : State) (p : Nat) (st : Stream) (lane : Nat) (cause : Cause) (info : DWord)
    (kind obj swc : Nat) : (s.takeTrap p st lane cause info kind obj swc).mem = s.mem := by
  simp [State.takeTrap]

@[simp] theorem State.yardReturn_mem (s : State) (p : Nat) : (s.yardReturn p).mem = s.mem := by
  simp [State.yardReturn]

@[simp] theorem State.dropFaulting_mem (s : State) (c : Cause) (info : DWord) : (s.dropFaulting c info).mem = s.mem := by
  simp [State.dropFaulting]

@[simp] theorem State.tableError_mem (s : State) (ctx : Nat) : (s.tableError ctx).mem = s.mem := by
  unfold State.tableError
  split <;> rfl

@[simp] theorem State.logCore_mem (s : State) (p : Nat) (c : Cause) (l : LogRec) : (s.logCore p c l).mem = s.mem := by
  simp [State.logCore]

@[simp] theorem State.logFail_mem (s : State) (p : Nat) (c : Cause) (pa : Nat) (addr : DWord) :
    (s.logFail p c pa addr).mem = s.mem := by
  simp [State.logFail]

@[simp] theorem State.laneTrap_mem (s : State) (c : Cause) (info : DWord) (keep : List (Nat × Option Nat))
    (log : Option LogRec) (past : Nat → Nat) : (s.laneTrap c info keep log past).mem = s.mem := by
  unfold State.laneTrap
  split <;> simp

@[simp] theorem State.askPort3_mem (s : State) (q cls : Nat) (o : PortOwner) (since lines lat : Nat) :
    (s.askPort3 q cls o since lines lat).mem = s.mem := by rfl

@[simp] theorem State.dropPort3_mem (s : State) (f : PortOwner → Bool) : (s.dropPort3 f).mem = s.mem := by rfl

@[simp] theorem State.loadDue_mem (s : State) (scalar : Bool) (p pa : Nat) (o : PortOwner) (enter turns : Nat) :
    (s.loadDue scalar p pa o enter turns).2.mem = s.mem := by
  unfold State.loadDue
  split <;> simp

@[simp] theorem State.startClaim_mem (s : State) (p what : Nat) (st : Stream) : (s.startClaim p what st).mem = s.mem := by
  unfold State.startClaim
  simp only []
  repeat' split
  all_goals simp

@[simp] theorem State.begin_mem (s : State) (x0 : Option Lookup) : (s.begin x0).mem = s.mem := by
  unfold State.begin
  split <;> simp

@[simp] theorem outcomeOk_run (i : Instr) (w : BitVec 2) {m : Act Unit} {s : State} (hm : ActOk m)
    (h : Mem.wf s.mem = true) : OutcomeOk (run i w m s) := by
  unfold run
  split
  · simpa using h
  · split
    · simpa using h
    · split
      · rename_i hr; simpa using hm s h _ _ hr
      · simpa using h
      · simpa using h

/-! ### Operands (Machine/Operands) -/

@[simp] theorem actOk_await (r : Reg) : ActOk (await r) := by
  intro s h
  unfold await
  split <;> simp [h]

@[simp] theorem actOk_readS (n : BitVec 5) : ActOk (readS n) := by
  simp [readS]

@[simp] theorem actOk_writeS (n : BitVec 5) (v : DWord) : ActOk (writeS n v) := by
  simp [writeS]

@[simp] theorem actOk_writeSLate (n : BitVec 5) (v : DWord) (lat : Nat) : ActOk (writeSLate n v lat) := by
  simp [writeSLate]

@[simp] theorem actOk_readK (r : BitVec 5) : ActOk (readK r) := by
  simp [readK]

@[simp] theorem actOk_readV (n : BitVec 5) : ActOk (readV n) := by
  simp [readV]

@[simp] theorem actOk_nextSeq : ActOk nextSeq :=
  fun s h => by simp [nextSeq, h]

@[simp] theorem actOk_here : ActOk here :=
  fun s h => by simp [here, h]

@[simp] theorem actOk_popQ (q : Nat) : ActOk (popQ q) := by
  intro s h
  unfold popQ
  split <;> simp [h]

@[simp] theorem actOk_pushQ (q : Nat) (v : Line) : ActOk (pushQ q v) :=
  fun s h => by simp [pushQ, h]

@[simp] theorem actOk_reserveQ (q n id : Nat) : ActOk (reserveQ q n id) :=
  fun s h => by simp [reserveQ, h]

/-! ### Synchronisation objects (Machine/Flags) -/

@[simp] theorem actOk_defer (release : Bool) (e : SyncEff) : ActOk (defer release e) :=
  fun s h => by simp [defer, h]

/-! ### Addresses (Machine/Translate) -/

@[simp] theorem actOk_tlbLookup (acc : Acc) (va : DWord) : ActOk (tlbLookup acc va) := by
  intro s hs
  unfold tlbLookup
  simp only []
  split
  · split
    · simpa using hs
    · exact resultOk_error _
  · split <;> exact resultOk_error _

@[simp] theorem actOk_tileLookup (port ea : Nat) : ActOk (tileLookup port ea) := by
  intro s h
  unfold tileLookup
  simp only []
  repeat' split
  all_goals simp [h]

theorem State.tileFor_mem {s t : State} {p port ea : Nat} {e : BitVec 128} (h : s.tileFor p port ea = some (e, t)) :
    t.mem = s.mem := by
  unfold State.tileFor at h
  simp only [] at h
  split at h
  · cases h; rfl
  · split at h <;> cases h; rfl

@[simp] theorem State.eventOk_tileAsk {s : State} (p port ea : Nat) (hs : Mem.wf s.mem = true) :
    EventOk (s.tileAsk p port ea) := by
  simp [State.tileAsk, hs]

@[simp] theorem actOk_validTile (port ea : Nat) (info : DWord) : ActOk (validTile port ea info) := by
  unfold validTile
  repeat' refine actOk_bind ?_ fun _ => ?_
  all_goals simp

@[simp] theorem actOk_entrySpot (ea : Nat) (e : BitVec 128) (off : Nat) (info : DWord) :
    ActOk (entrySpot ea e off info) := by
  unfold entrySpot
  repeat' refine actOk_bind ?_ fun _ => ?_
  all_goals repeat' split
  all_goals simp

@[simp] theorem actOk_blockSpot (port ea off : Nat) (info : DWord) : ActOk (blockSpot port ea off info) := by
  simp [blockSpot]

@[simp] theorem actOk_controller (acc : Acc) (va : DWord) (pa : Nat) : ActOk (controller acc va pa) := by
  unfold controller
  repeat' refine actOk_bind ?_ fun _ => ?_
  all_goals repeat' split
  all_goals simp

@[simp] theorem actOk_lockedLine (pa : Nat) : ActOk (lockedLine pa) := by
  simp [lockedLine]

@[simp] theorem actOk_resolve (acc : Acc) (va : DWord) (size : Nat) : ActOk (resolve acc va size) := by
  unfold resolve
  refine actOk_bind (by simp) fun _ => actOk_bind actOk_get fun s => ?_
  split
  · exact actOk_bind (by simp) fun _ => by simp
  · refine actOk_bind (by simp) fun _ => actOk_bind (by simp) fun e => ?_
    simp only [actOk_ite]
    refine ⟨by simp, fun _ => ⟨fun _ => ?_, by simp⟩⟩
    split <;> simp

/-! ### Tensor operands (Machine/Tensor) -/

@[simp] theorem State.sendUnit_mem (s : State) (k : Nat) (u : List DWord) : (s.sendUnit k u).mem = s.mem := by
  unfold State.sendUnit
  split <;> rfl

@[simp] theorem State.peerDrop_mem (s : State) (o : PeerOwner) : (s.peerDrop o).mem = s.mem := by rfl

@[simp] theorem State.peerSend_mem (s : State) (o : PeerOwner) (e : DWord × DWord) (op pa len : Nat) (extra : List DWord)
    (data : List Byte) : (s.peerSend o e op pa len extra data).mem = s.mem := by
  unfold State.peerSend
  repeat' split
  all_goals simp

@[simp] theorem actOk_binding (port : Nat) (region : Bool) (t : BitVec 6) : ActOk (binding port region t) := by
  unfold binding
  repeat' refine actOk_bind ?_ fun _ => ?_
  all_goals repeat' split
  all_goals simp

@[simp] theorem actOk_inTensor (port : Nat) (b : Bound) (c : DWord) : ActOk (inTensor port b c) := by
  simp [inTensor]

/-! ### The scalar instructions (Machine/Control) -/

@[simp] theorem outcomeOk_alu (i : Instr) (w : BitVec 2) (d a b : BitVec 5) (lat : Nat) (f : DWord → DWord → DWord)
    {s : State} (hs : Mem.wf s.mem = true) : OutcomeOk (alu i w d a b lat f s) := by
  unfold alu
  refine outcomeOk_run _ _ ?_ hs
  repeat' refine actOk_bind ?_ fun _ => ?_
  all_goals simp

@[simp] theorem outcomeOk_aluImm (i : Instr) (w : BitVec 2) (d a : BitVec 5) (f : DWord → DWord) {s : State}
    (hs : Mem.wf s.mem = true) : OutcomeOk (aluImm i w d a f s) := by
  simp [aluImm, hs]

@[simp] theorem actOk_take (target : DWord) : ActOk (take target) :=
  fun s h => by simp [take, h]

@[simp] theorem actOk_ownLine : ActOk ownLine :=
  fun s h => by simp [ownLine, h]

@[simp] theorem outcomeOk_branch (i : Instr) (w : BitVec 2) (a b : BitVec 5) (off : BitVec 13)
    (cond : DWord → DWord → Bool) {s : State} (hs : Mem.wf s.mem = true) : OutcomeOk (branch i w a b off cond s) := by
  unfold branch
  refine outcomeOk_run _ _ ?_ hs
  repeat' refine actOk_bind ?_ fun _ => ?_
  all_goals simp

@[simp] theorem actOk_queueEmpty (q : BitVec 5) : ActOk (queueEmpty q) := by
  simp [queueEmpty]

@[simp] theorem actOk_readOwn (r : BitVec 5) : ActOk (readOwn r) := by
  unfold readOwn
  repeat' refine actOk_bind ?_ fun _ => ?_
  all_goals repeat' split
  all_goals simp

/-! ### Linear memory (Machine/LinearMem) -/

@[simp] theorem State.uoWrite_mem (s : State) (who pa n : Nat) : (s.uoWrite who pa n).mem = s.mem := by rfl

@[simp] theorem State.uoFinal_mem (s : State) (mine : UoOld → Bool) : (s.uoFinal mine).mem = s.mem := by rfl

@[simp] theorem State.keepOld_mem (s : State) (p : Nat) (x : LinStore) : (s.keepOld p x).mem = s.mem := by
  simp [State.keepOld]

@[simp] theorem State.wf_performNow {s : State} (p : Nat) (x : Pending) (hs : Mem.wf s.mem = true) :
    Mem.wf (s.performNow p x).mem = true := by
  unfold State.performNow
  simp only []
  repeat' split
  all_goals simp [hs]

@[simp] theorem outcomeOk_linearLoad (i : Instr) (w : BitVec 2) (d a : BitVec 5) (imm : BitVec 13) (size : Nat) (signed : Bool)
    {s : State} (hs : Mem.wf s.mem = true) : OutcomeOk (linearLoad i w d a imm size signed s) :=
  outcomeOk_run _ _ (actOk_bind (by simp) fun _ => actOk_bind (by simp) fun _ => by simp) hs

@[simp] theorem outcomeOk_linearStore (i : Instr) (w : BitVec 2) (d a : BitVec 5) (imm : BitVec 13) (size : Nat)
    {s : State} (hs : Mem.wf s.mem = true) : OutcomeOk (linearStore i w d a imm size s) :=
  outcomeOk_run _ _ (actOk_bind (by simp) fun _ => actOk_bind (by simp) fun _ => actOk_bind (by simp) fun _ => by simp) hs

@[simp] theorem State.icacheRead_mem (s : State) (p pa : Nat) : (s.icacheRead p pa).2.mem = s.mem := by
  unfold State.icacheRead
  simp only []
  split <;> simp

/-! ### Synchronisation instructions (Machine/Sync) -/

@[simp] theorem actOk_viewed : ActOk viewed :=
  fun s h => by simp [viewed, h]

@[simp] theorem actOk_judge (b : Bool) (w : Wait) : ActOk (judge b w) :=
  fun s h => by simp [judge, h]

/-! ### Stream A (Machine/Access) -/

@[simp] theorem actOk_putA (d : BitVec 5) (v : DWord) : ActOk (putA d v) := by
  simp [putA]

@[simp] theorem actOk_readA (r : BitVec 5) : ActOk (readA r) := by
  simp [readA]

@[simp] theorem actOk_sourceA (q : BitVec 1) (a : BitVec 5) : ActOk (sourceA q a) := by
  simp [sourceA]

@[simp] theorem State.request_mem (s : State) (p id port : Nat) (late : Bool) (parts : List (Nat × Nat)) :
    (s.request p id port late parts).2.2.mem = s.mem :=
  State.foldl_mem_of (g := fun r : Nat × State => r.2) (fun r x => by simp) _ _

@[simp] theorem State.portReads_mem (s : State) (p : Nat) : (s.portReads p).mem = s.mem := by rfl

@[simp] theorem State.requests_mem (s : State) (p id port : Nat) (late : Bool) (l : Lay)
    (found : List (List ((Nat × Nat) × Nat))) : (s.requests p id port late l found).2.2.mem = s.mem :=
  State.foldl_mem_of (g := fun r : List Nat × Nat × State => r.2.2) (fun r x => by simp) _ _

@[simp] theorem actOk_putLoad (l : ALoad) : ActOk (putLoad l) := actOk_modify fun _ => rfl

@[simp] theorem actOk_lookPlaces (b : Bound) (port : Nat) (places : List (Nat × Nat)) :
    ActOk (lookPlaces b port places) := by
  unfold lookPlaces
  repeat' refine actOk_bind ?_ fun _ => ?_
  all_goals simp

@[simp] theorem actOk_startLoad (b : Bound) (kind : ALoadKind) : ActOk (startLoad b kind) := by
  unfold startLoad
  refine actOk_bind (by simp) fun _ => actOk_bind actOk_get fun _ => ?_
  simp only [actOk_ite]
  refine ⟨fun _ => actOk_bind (by simp) fun _ => by simp, fun _ => ?_⟩
  refine actOk_bind (by simp) fun _ => actOk_bind (by simp) fun _ => actOk_get_bind fun s hs => ?_
  exact resultOk_bind (by simpa using hs) (by simp)

@[simp] theorem actOk_loadOperand (t : BitVec 6) (c : BitVec 4) (fmtOk : Nat → Bool) : ActOk (loadOperand t c fmtOk) := by
  unfold loadOperand
  repeat' refine actOk_bind ?_ fun _ => ?_
  all_goals repeat' split
  all_goals simp

@[simp] theorem actOk_nextId : ActOk nextId := by
  simp [nextId]

@[simp] theorem actOk_loadColumn (b : Bound) (v : DWord) (n : Nat) (kind : ALoadKind) : ActOk (loadColumn b v n kind) := by
  simp [loadColumn]

@[simp] theorem actOk_patternOf (x : BitVec 2) : ActOk (patternOf x) := by
  simp [patternOf]

@[simp] theorem actOk_linearRequest (pa : Nat) : ActOk (linearRequest pa) :=
  fun s h => by simp [linearRequest, h]

@[simp] theorem actOk_patternReads (kind : ALoadKind) : ActOk (patternReads kind) := by
  unfold patternReads
  repeat' refine actOk_bind ?_ fun _ => ?_
  all_goals repeat' split
  all_goals simp

@[simp] theorem actOk_startRecord (kind : ALoadKind) (due : Nat) : ActOk (startRecord kind due) := by
  unfold startRecord
  repeat' refine actOk_bind ?_ fun _ => ?_
  all_goals simp

@[simp] theorem actOk_claimPlanes : ActOk claimPlanes := by
  simp [claimPlanes]

/-! ### The issue of engine commands (Machine/Commands) -/

@[simp] theorem actOk_keeping {α : Type} (keep : List (Nat × Option Nat)) {m : Act α} (hm : ActOk m) :
    ActOk (keeping keep m) := by
  intro s hs
  unfold keeping
  split
  · exact resultOk_error _
  · exact hm s hs

@[simp] theorem actOk_popCoord (qc : BitVec 1) (c : BitVec 4) : ActOk (popCoord qc c) := by
  simp [popCoord]

@[simp] theorem actOk_pushCommand (x : CmdSpec) (waitt sigt : BitVec 3) (cnt : BitVec 4) (inc : BitVec 8) :
    ActOk (pushCommand x waitt sigt cnt inc) := by
  unfold pushCommand
  repeat' refine actOk_bind ?_ fun _ => ?_
  all_goals simp

@[simp] theorem actOk_commandCoord (c : BitVec 4) : ActOk (commandCoord c) := by
  simp [commandCoord]

@[simp] theorem actOk_mustBeOutput (b : Bound) : ActOk (mustBeOutput b) := by
  simp [mustBeOutput]

@[simp] theorem actOk_tileValid (port : Nat) (b : Bound) (blk : Nat) : ActOk (tileValid port b blk) := by
  simp [tileValid]

@[simp] theorem Operand.actOk_extents (o : Operand) : ActOk o.extents := by
  unfold Operand.extents
  refine actOk_bind actOk_get fun s => actOk_mapM _ fun p => ?_
  split <;> simp

@[simp] theorem actOk_operandChecks (a b : Operand) (aligned : Operand → DWord → Nat → Bool) :
    ActOk (operandChecks a b aligned) := by
  unfold operandChecks
  refine actOk_bind (by simp) fun xs => actOk_bind (by simp) fun ys => actOk_bind (by simp) fun _ => ?_
  exact actOk_bind (actOk_forM _ fun k => by simp) fun _ => actOk_forM _ fun k => by simp

@[simp] theorem actOk_popIndices (n : Nat) : ActOk (popIndices n) :=
  fun s h => by simp [popIndices, h]

@[simp] theorem actOk_exchangeCommand (kind : EngKind) (t : BitVec 6) (c : BitVec 4) (t2 : BitVec 6) (c2 : BitVec 4)
    (waitt sigt : BitVec 3) (cnt : BitVec 4) (inc : BitVec 8) : ActOk (exchangeCommand kind t c t2 c2 waitt sigt cnt inc) := by
  unfold exchangeCommand
  refine actOk_bind (by simp) fun _ => actOk_bind (by simp) fun a => actOk_bind (by simp) fun b => ?_
  exact actOk_bind (by simp) fun v => by simp

@[simp] theorem actOk_stashCommand (kind : EngKind) (mode : BitVec 2) (t : BitVec 6) (c : BitVec 4) (t2 : BitVec 6)
    (c2 : BitVec 4) (waitt sigt : BitVec 3) (cnt : BitVec 4) (inc : BitVec 8) :
    ActOk (stashCommand kind mode t c t2 c2 waitt sigt cnt inc) := by
  unfold stashCommand
  refine actOk_bind (by simp) fun _ => actOk_bind (by simp) fun s => actOk_bind (by simp) fun a => ?_
  refine actOk_bind (by simp) fun b => ?_
  simp only [actOk_ite, refuse_bind, actOk_refuse]
  refine ⟨fun _ => trivial, fun _ => actOk_bind (by simp) fun _ => actOk_bind (by simp) fun v => ?_⟩
  refine actOk_bind (by simp) fun v2 => actOk_bind (by simp) fun _ => ?_
  simp

@[simp] theorem actOk_reducingWrite (kind : EngKind) (bits : Nat) (q : BitVec 4) (m : BitVec 7) (t : BitVec 6) (c : BitVec 4)
    (waitt sigt : BitVec 3) (cnt : BitVec 4) (inc : BitVec 8) (qc : BitVec 1) :
    ActOk (reducingWrite kind bits q m t c waitt sigt cnt inc qc) := by
  unfold reducingWrite
  refine actOk_bind (by simp) fun _ => actOk_keeping _ ?_
  iterate 9 refine actOk_bind (by simp) fun _ => ?_
  simp

/-! ### The matrix engine: its instructions (Machine/Matrix) -/

@[simp] theorem State.wf_writeSlotLine {s : State} (m : Matrix) (slot base k : Nat) (hs : Mem.wf s.mem = true) :
    Mem.wf (s.writeSlotLine m slot base k).mem = true := by
  simp [State.writeSlotLine, hs]

@[simp] theorem State.wf_writeSlot {s : State} (m : Matrix) (slot base : Nat) (hs : Mem.wf s.mem = true) :
    Mem.wf (s.writeSlot m slot base).mem = true := by
  unfold State.writeSlot
  exact State.wf_foldl (fun s x hs => by simp [hs]) _ (by simp [hs])

@[simp] theorem actOk_matrixCmd (kind : MKind) : ActOk (matrixCmd kind) := by
  simp [matrixCmd]

@[simp] theorem actOk_modMatrix (f : Matrix → Matrix) : ActOk (modMatrix f) := by
  simp [modMatrix]

@[simp] theorem actOk_spillLabel (l : BitVec 6) (slot image : Nat) (own : Bool) : ActOk (spillLabel l slot image own) := by
  simp [spillLabel]

@[simp] theorem actOk_mapLabel (l : BitVec 6) (slot : Nat) : ActOk (mapLabel l slot) := by
  simp [mapLabel]

@[simp] theorem actOk_resolveLabel (l : BitVec 6) : ActOk (resolveLabel l) := by
  unfold resolveLabel
  refine actOk_bind actOk_core fun c => ?_
  simp only []
  split
  · simp
  · split
    · simp
    · refine actOk_bind (by simp) fun _ => ?_
      split
      · simp
      · refine actOk_bind (by simp) fun _ => ?_
        simp

@[simp] theorem actOk_matrixRoom : ActOk matrixRoom := by
  simp [matrixRoom]

@[simp] theorem actOk_streamCommand (q sq row0 nr : Nat) (iq : Option Nat) : ActOk (streamCommand q sq row0 nr iq) := by
  unfold streamCommand
  refine actOk_bind (by simp) fun _ => actOk_bind (by simp) fun _ => actOk_bind (by simp) fun s => ?_
  split
  · simp only [actOk_ite, raise_bind, actOk_raise]
    refine ⟨fun _ => trivial, fun _ => actOk_bind (by simp) fun _ => actOk_bind (by simp) fun _ => ?_⟩
    exact actOk_bind (by simp) fun _ => by simp
  · simp

@[simp] theorem State.pinArea_mem (s : State) (p : Nat) (area : Option (Nat × Nat)) (v : Bool) :
    (s.pinArea p area v).mem = s.mem := by
  unfold State.pinArea
  split
  · rfl
  · refine State.foldl_mem (fun s i => ?_) _ _
    rfl

/-! ### The matrix engine: its steps (Machine/Array) -/

@[simp] theorem outcomeOk_event {e : Option State} {s : State} (he : EventOk e) (h : Mem.wf s.mem = true) :
    OutcomeOk (event e s) := by
  simp [event, he, h]

@[simp] theorem State.setMatrix_mem (s : State) (p : Nat) (m : Matrix) : (s.setMatrix p m).mem = s.mem := by rfl

@[simp] theorem eventOk_rampEff {s : State} (p : Nat) (hs : Mem.wf s.mem = true) : EventOk (rampEff s p) := by
  unfold rampEff
  simp only []
  split <;> simp [hs]

@[simp] theorem eventOk_hintEff {s : State} (p : Nat) (hs : Mem.wf s.mem = true) : EventOk (hintEff s p) := by
  unfold hintEff
  simp only []
  split <;> simp [hs]

@[simp] theorem eventOk_coldEff {s : State} (p : Nat) (hs : Mem.wf s.mem = true) : EventOk (coldEff s p) := by
  simp [coldEff, hs]

@[simp] theorem State.wf_savePlanes {s : State} (m : Matrix) (base : Nat) (hs : Mem.wf s.mem = true) :
    Mem.wf (s.savePlanes m base).mem = true := by
  have hput : ∀ (p : Plane) (a : Nat) (s : State), Mem.wf s.mem = true → Mem.wf ((List.range 156).foldl (fun s k =>
      s.portWrite 3 (a + 256 * k) ((List.range 256).map fun i => Sparse.get 0 p.bytes (256 * k + i)) (p.bad.contains k))
        s).mem = true :=
    fun p a s hs => State.wf_foldl (fun s k hs => by simp [hs]) _ hs
  exact State.wf_writeBytes _ _ _ (hput _ _ _ (hput _ _ _ hs))

@[simp] theorem State.wf_setSaved {s : State} (x : Context) (what : Nat) (v : Bool) (hs : Mem.wf s.mem = true) :
    Mem.wf (s.setSaved x what v).mem = true := by
  simp [State.setSaved, hs]

@[simp] theorem State.wf_saveOut {s : State} (p what : Nat) (hs : Mem.wf s.mem = true) :
    Mem.wf (s.saveOut p what).mem = true := by
  unfold State.saveOut
  simp only []
  split <;> simp [hs]

@[simp] theorem State.wf_loadIn {s : State} (p what ctx : Nat) (hs : Mem.wf s.mem = true) :
    Mem.wf (s.loadIn p what ctx).mem = true := by
  unfold State.loadIn
  split <;> simp [hs]

@[simp] theorem State.claimLine_mem (s : State) (p : Nat) (x : Claim) : (s.claimLine p x).mem = s.mem := by
  unfold State.claimLine
  split <;> simp

@[simp] theorem eventOk_claimEff {s : State} (p : Nat) (hs : Mem.wf s.mem = true) : EventOk (claimEff s p) := by
  unfold claimEff
  simp only [eventOk_map]
  intro x _
  split <;> simp [hs]

@[simp] theorem State.eventOk_claimFor {s : State} (p what : Nat) (st : Stream) (hs : Mem.wf s.mem = true) :
    EventOk (s.claimFor p what st) := by
  simp [State.claimFor, hs]

@[simp] theorem eventOk_rowEntryEff {s : State} (p : Nat) (hs : Mem.wf s.mem = true) : EventOk (rowEntryEff s p) := by
  unfold rowEntryEff
  simp only []
  repeat' split
  all_goals simp [hs]

@[simp] theorem eventOk_flipEff {s : State} (p : Nat) (hs : Mem.wf s.mem = true) : EventOk (flipEff s p) := by
  unfold flipEff
  simp only []
  split <;> simp [hs]

@[simp] theorem eventOk_rowAddEff {s : State} (p : Nat) (hs : Mem.wf s.mem = true) : EventOk (rowAddEff s p) := by
  unfold rowAddEff
  simp only []
  repeat' split
  all_goals simp [hs]

@[simp] theorem eventOk_zeroEff {s : State} (p : Nat) (hs : Mem.wf s.mem = true) : EventOk (zeroEff s p) := by
  unfold zeroEff
  simp only []
  repeat' split
  all_goals simp [hs]

@[simp] theorem eventOk_spillEff {s : State} (p : Nat) (hs : Mem.wf s.mem = true) : EventOk (spillEff s p) := by
  unfold spillEff
  simp only []
  repeat' split
  all_goals simp [hs]

@[simp] theorem eventOk_bindStartEff {s : State} (p : Nat) (hs : Mem.wf s.mem = true) : EventOk (bindStartEff s p) := by
  unfold bindStartEff
  simp only []
  repeat' split
  all_goals simp [hs]

@[simp] theorem eventOk_bindRowEff {s : State} (p : Nat) (hs : Mem.wf s.mem = true) : EventOk (bindRowEff s p) := by
  unfold bindRowEff
  simp only []
  repeat' split
  all_goals simp [hs]

@[simp] theorem State.wf_matrixServe {s : State} (p : Nat) (t : MatrixTurn) (hs : Mem.wf s.mem = true) :
    Mem.wf (s.matrixServe p t).mem = true := by
  unfold State.matrixServe
  split <;> simp [hs]

/-! ### The vector unit (Machine/Vector) -/

@[simp] theorem actOk_vstart : ActOk vstart :=
  fun s h => by simp [vstart, h]

@[simp] theorem actOk_finishV (d : BitVec 5) (v : Line) (lat : Nat) : ActOk (finishV d v lat) := by
  simp [finishV]

@[simp] theorem actOk_finishK (d : BitVec 5) (v : Word) (lat : Nat) : ActOk (finishK d v lat) := by
  simp [finishK]

@[simp] theorem actOk_finishP (d : BitVec 5) (v : BitVec 256) : ActOk (finishP d v) := by
  simp [finishP]

@[simp] theorem actOk_readP (n : BitVec 5) : ActOk (readP n) := by
  simp [readP]

@[simp] theorem actOk_readK32 (r : BitVec 5) : ActOk (readK32 r) := by
  simp [readK32]

@[simp] theorem actOk_activeLanes (p : BitVec 3) : ActOk (activeLanes p) := by
  simp [activeLanes]

@[simp] theorem actOk_oldV (d : BitVec 5) (needed : Bool) : ActOk (oldV d needed) := by
  simp [oldV]

@[simp] theorem outcomeOk_laneWise (i : Instr) (w : BitVec 2) (d : BitVec 5) (xs : List (BitVec 5)) (z : BitVec 1)
    (p ty : BitVec 3) (lat : Nat) (useD : Bool) (f : List Line → Line → Nat → Nat) {s : State} (hs : Mem.wf s.mem = true) :
    OutcomeOk (laneWise i w d xs z p ty lat useD f s) := by
  unfold laneWise
  refine outcomeOk_run _ _ ?_ hs
  repeat' refine actOk_bind ?_ fun _ => ?_
  all_goals simp

@[simp] theorem outcomeOk_float1 (i : Instr) (w : BitVec 2) (d a : BitVec 5) (z : BitVec 1) (p ty : BitVec 3) (lat : Nat)
    (f : Num → Num) {s : State} (hs : Mem.wf s.mem = true) : OutcomeOk (float1 i w d a z p ty lat f s) := by
  simp [float1, hs]

@[simp] theorem outcomeOk_float2 (i : Instr) (w : BitVec 2) (d a b : BitVec 5) (z : BitVec 1) (p ty : BitVec 3)
    (f : Num → Num → Num) {s : State} (hs : Mem.wf s.mem = true) : OutcomeOk (float2 i w d a b z p ty f s) := by
  simp [float2, hs]

@[simp] theorem outcomeOk_float3 (i : Instr) (w : BitVec 2) (d a b : BitVec 5) (z : BitVec 1) (p ty : BitVec 3)
    (f : Num → Num → Num → Num) {s : State} (hs : Mem.wf s.mem = true) : OutcomeOk (float3 i w d a b z p ty f s) := by
  simp [float3, hs]

@[simp] theorem outcomeOk_int2 (i : Instr) (w : BitVec 2) (d a b : BitVec 5) (z : BitVec 1) (p ty : BitVec 3) (lat : Nat)
    (f : Nat → Nat → Nat) {s : State} (hs : Mem.wf s.mem = true) : OutcomeOk (int2 i w d a b z p ty lat f s) := by
  simp [int2, hs]

@[simp] theorem outcomeOk_predicate2 (i : Instr) (w : BitVec 2) (d a b : BitVec 5)
    (f : BitVec 256 → BitVec 256 → BitVec 256) {s : State} (hs : Mem.wf s.mem = true) :
    OutcomeOk (predicate2 i w d a b f s) := by
  unfold predicate2
  refine outcomeOk_run _ _ ?_ hs
  repeat' refine actOk_bind ?_ fun _ => ?_
  all_goals simp

/-! ### The drain stream (Machine/Drain) -/

@[simp] theorem StoreOperand.actOk_rowAt (o : StoreOperand) (j : Nat) : ActOk (StoreOperand.rowAt o j) := by
  simp [StoreOperand.rowAt]

@[simp] theorem actOk_storeRuns (ops : List StoreOperand) : ActOk (storeRuns ops) := by
  unfold storeRuns
  refine actOk_bind (actOk_mapM _ fun o => actOk_bind (by simp) fun _ => by simp) fun found => ?_
  refine actOk_bind (by simp) fun _ => actOk_bind (actOk_forM _ fun x => actOk_forM _ fun k => by simp) fun _ => ?_
  exact actOk_bind (actOk_forM _ fun o => by simp) fun _ => by simp

@[simp] theorem actOk_storeCommand (kind : SKind) (b : Bound) (v : DWord) (u : Nat) (runs : List Run) :
    ActOk (storeCommand kind b v u runs) := by
  unfold storeCommand
  repeat' refine actOk_bind ?_ fun _ => ?_
  all_goals simp

@[simp] theorem State.setDrain_mem (s : State) (p : Nat) (d : Drain) : (s.setDrain p d).mem = s.mem := by rfl

@[simp] theorem State.failStore_mem (s : State) (p : Nat) (l : WLine) (cause : Cause) (info : DWord) :
    (s.failStore p l cause info).mem = s.mem := by rfl

@[simp] theorem eventOk_drainReadEff {s : State} (p : Nat) (hs : Mem.wf s.mem = true) : EventOk (drainReadEff s p) := by
  unfold drainReadEff
  simp only []
  repeat' split
  all_goals simp [hs]

@[simp] theorem eventOk_drainDeliveryEff {s : State} (p : Nat) (hs : Mem.wf s.mem = true) :
    EventOk (drainDeliveryEff s p) := by
  unfold drainDeliveryEff
  simp only []
  split <;> simp [hs]

theorem State.lineDest_mem {s t : State} {p : Nat} {l : WLine} {d : Dest} (h : s.lineDest p l = some (d, t)) :
    t.mem = s.mem := by
  unfold State.lineDest at h
  simp only [] at h
  split at h
  · cases h; rfl
  · obtain ⟨⟨e, u⟩, hu, hx⟩ := Option.map_eq_some_iff.mp h
    cases hx
    exact State.tileFor_mem hu

@[simp] theorem State.wf_writeLine {s : State} (port pa : Nat) (l : WLine) (hs : Mem.wf s.mem = true) :
    Mem.wf (s.writeLine port pa l).mem = true := by
  unfold State.writeLine
  split
  · exact State.wf_portWrite _ _ _ _ hs
  · exact State.wf_foldl (fun s x hs => by simp [hs]) _ hs

@[simp] theorem State.failLine_mem (s : State) (p : Nat) (l : WLine) (c : Cause) (log : Option LogRec) :
    (s.failLine p l c log).mem = s.mem := by
  unfold State.failLine
  split <;> simp

@[simp] theorem State.setLine_mem (s : State) (p : Nat) (l l' : WLine) : (s.setLine p l l').mem = s.mem := by rfl

@[simp] theorem State.dropLine_mem (s : State) (p : Nat) (l : WLine) : (s.dropLine p l).mem = s.mem := by rfl

@[simp] theorem eventOk_lineWriteEff {s : State} (p : Nat) (hs : Mem.wf s.mem = true) : EventOk (lineWriteEff s p) := by
  unfold lineWriteEff
  simp only []
  split
  · simp
  · simp only [eventOk_ite, eventOk_none, imp_true_iff, true_and]
    intro _
    split
    · simp [hs]
    all_goals
      rename_i h
      have ht := State.lineDest_mem h
    · simp [hs, ht]
    · simp [hs, ht]
    · simp [hs, ht]

theorem State.eventOk_lineStep {s : State} (p : Nat) (l : WLine) (d : Dest) {set_ : State → WLine → State}
    {drop : State → State} {fails : State → Cause → Option LogRec → State}
    (hset : ∀ s l, (set_ s l).mem = s.mem) (hdrop : ∀ s, (drop s).mem = s.mem) (hfails : ∀ s c r, (fails s c r).mem = s.mem)
    (hs : Mem.wf s.mem = true) : EventOk (s.lineStep p l d set_ drop fails) := by
  unfold State.lineStep
  split
  · simp [hfails, hs]
  · simp
  · simp only [eventOk_ite, eventOk_some, hset, hs, imp_true_iff, true_and]
    intro _
    split
    · split
      · simp [hdrop, hs]
      · simp [hdrop, hs]
    · split
      · simp [hfails, hs]
      · simp [hs, -List.reduceReplicate]
      · simp [hset, hdrop, hs]

@[simp] theorem State.setAway_mem (s : State) (p : Nat) (x : TaskId × WLine) (y : List (TaskId × WLine)) :
    (s.setAway p x y).mem = s.mem := by rfl

@[simp] theorem State.eventOk_awayStep {s : State} (p : Nat) (x : TaskId × WLine) (hs : Mem.wf s.mem = true) :
    EventOk (s.awayStep p x) := by
  unfold State.awayStep
  refine State.eventOk_lineStep p _ _ (by simp) (by simp) (fun s c r => ?_) hs
  simp only []
  split <;> simp

@[simp] theorem eventOk_remoteLineEff {s : State} (p : Nat) (hs : Mem.wf s.mem = true) : EventOk (remoteLineEff s p) := by
  unfold remoteLineEff
  simp only [eventOk_orElse]
  refine ⟨eventOk_findSome _ fun l => ?_, fun _ => by simp [hs]⟩
  exact State.eventOk_lineStep p l _ (by simp) (by simp) (by simp) hs

/-! ### Arrivals (Machine/Arrivals) -/

@[simp] theorem eventOk_resultEff {s : State} (p : Nat) (scalar : Bool) (hs : Mem.wf s.mem = true) :
    EventOk (resultEff s p scalar) := by
  unfold resultEff
  simp only []
  split <;> simp [hs]

@[simp] theorem State.trapAt_mem (s : State) (p : Nat) (st : Stream) (pos : DWord) (cause : Cause) (info : DWord) :
    (s.trapAt p st pos cause info).mem = s.mem := by rfl

@[simp] theorem State.eventOk_askPeer {s : State} (own : PeerOwner) (e : DWord × DWord) (op pa len : Nat)
    (extra : List DWord) (data : List Byte) (hs : Mem.wf s.mem = true) :
    EventOk (s.askPeer own e op pa len extra data) := by
  unfold State.askPeer
  split <;> simp [hs]

@[simp] theorem State.eventOk_loadArrives {s : State} (p : Nat) (l : ALoad) (hs : Mem.wf s.mem = true) :
    EventOk (s.loadArrives p l) := by
  unfold State.loadArrives
  simp only []
  repeat' split
  all_goals simp [hs]

@[simp] theorem State.eventOk_firstLoad {s : State} (p : Nat) (f : ALoadKind → Bool) (hs : Mem.wf s.mem = true) :
    EventOk (s.firstLoad p f) := by
  simp [State.firstLoad, hs]

@[simp] theorem eventOk_tldEff {s : State} (p q : Nat) (hs : Mem.wf s.mem = true) : EventOk (tldEff s p q) := by
  simp [tldEff, hs]

@[simp] theorem eventOk_planeEff {s : State} (p : Nat) (hs : Mem.wf s.mem = true) : EventOk (planeEff s p) := by
  simp [planeEff, hs]

@[simp] theorem eventOk_bfxEff {s : State} (p : Nat) (hs : Mem.wf s.mem = true) : EventOk (bfxEff s p) := by
  simp [bfxEff, hs]

@[simp] theorem State.wf_fillTile {s : State} (p port ea : Nat) (hs : Mem.wf s.mem = true) :
    Mem.wf (s.fillTile p port ea).mem = true := by
  simp [State.fillTile, hs]

@[simp] theorem State.eventOk_lookDone {s : State} (p port : Nat) (l : ALoad) (hs : Mem.wf s.mem = true) :
    EventOk (s.lookDone p port l) := by
  unfold State.lookDone
  simp only []
  rw [eventOk_ite, eventOk_ite]
  refine ⟨by simp, fun _ => ⟨by simp [hs], fun _ => ?_⟩⟩
  split
  · split <;> simp [hs]
  · rw [eventOk_ite, eventOk_some, State.setCr_mem, State.requests_mem]
    exact ⟨by simp, fun _ => State.wf_foldl (fun s x hs => by simp [hs]) _ hs⟩

@[simp] theorem eventOk_lookEff {s : State} (p port : Nat) (hs : Mem.wf s.mem = true) : EventOk (lookEff s p port) := by
  simp [lookEff, hs]

@[simp] theorem eventOk_tableEff {s : State} (p port : Nat) (hs : Mem.wf s.mem = true) : EventOk (tableEff s p port) := by
  unfold tableEff
  simp only []
  split <;> simp [hs]

@[simp] theorem eventOk_tileEff {s : State} (p port : Nat) (hs : Mem.wf s.mem = true) : EventOk (tileEff s p port) := by
  unfold tileEff
  rw [eventOk_orElse]
  exact ⟨eventOk_tableEff _ _ hs, fun _ => eventOk_lookEff _ _ hs⟩

@[simp] theorem eventOk_walkEff {s : State} (p : Nat) (hs : Mem.wf s.mem = true) : EventOk (walkEff s p) := by
  unfold walkEff
  simp only []
  repeat' split
  all_goals simp [hs]

@[simp] theorem eventOk_deferredEff {s : State} (p : Nat) (st : Stream) (hs : Mem.wf s.mem = true) :
    EventOk (deferredEff s p st) := by
  unfold deferredEff
  simp only []
  split <;> simp [hs]

@[simp] theorem eventOk_markerEff {s : State} (p : Nat) (e : Engine) (hs : Mem.wf s.mem = true) :
    EventOk (markerEff s p e) := by
  unfold markerEff
  simp only []
  split <;> simp [hs]

@[simp] theorem eventOk_rendezvousEff {s : State} (p z : Nat) (hs : Mem.wf s.mem = true) :
    EventOk (rendezvousEff s p z) := by
  unfold rendezvousEff
  simp only []
  split <;> simp [hs]

/-! ### The engines of A and D (Machine/Engines) -/

@[simp] theorem State.setCmd_mem (s : State) (x : EngCmd) : (s.setCmd x).mem = s.mem := by rfl

@[simp] theorem State.dropCmdPeers_mem (s : State) (id : Nat) : (s.dropCmdPeers id).mem = s.mem := by rfl

@[simp] theorem State.failCmd_mem (s : State) (x : EngCmd) (c : Cause) (info : DWord) (log : Option LogRec) :
    (s.failCmd x c info log).mem = s.mem := by
  unfold State.failCmd
  split <;> simp

@[simp] theorem State.failDest_mem (s : State) (x : EngCmd) (ea : Nat) (c : Cause) (log : Option LogRec) :
    (s.failDest x ea c log).mem = s.mem := by
  simp [State.failDest]

@[simp] theorem State.failPlace_mem (s : State) (x : EngCmd) (c : Cause) (pa : Nat) : (s.failPlace x c pa).mem = s.mem := by
  simp [State.failPlace]

@[simp] theorem eventOk_dispatchEff {s : State} (p : Nat) (st : Stream) (hs : Mem.wf s.mem = true) :
    EventOk (dispatchEff s p st) := by
  unfold dispatchEff
  simp only []
  split <;> simp [hs]

@[simp] theorem State.eventOk_deliver {s : State} (x : EngCmd) (hs : Mem.wf s.mem = true) : EventOk (s.deliver x) := by
  simp [State.deliver, hs]

@[simp] theorem eventOk_completionEff {s : State} (id : Nat) (hs : Mem.wf s.mem = true) : EventOk (completionEff s id) := by
  unfold completionEff
  split
  · rename_i x _
    exact (State.eventOk_deliver x hs).map fun t ht => ht
  · simp

theorem State.enginePort_go {s t : State} {x : EngCmd} {pa : Nat} {read : Bool} (h : s.enginePort x pa read = .go t) :
    t.mem = s.mem := by
  unfold State.enginePort at h
  split at h
  · split at h
    · cases h; rfl
    · split at h
      · simp only [] at h
        split at h <;> cases h; rfl
      · split at h <;> cases h
  · cases h; rfl

theorem State.enginePort_ask {s t : State} {x : EngCmd} {pa : Nat} {read : Bool} (h : s.enginePort x pa read = .ask t) :
    t.mem = s.mem := by
  unfold State.enginePort at h
  split at h
  · split at h
    · cases h
    · split at h
      · simp only [] at h
        split at h <;> cases h
      · split at h <;> cases h; rfl
  · cases h

theorem State.eventOk_engineWrite {s : State} (x : EngCmd) (l : Lay) (blk off : Nat) (bs : List Byte) {go : State → State}
    (hgo : ∀ s, (go s).mem = s.mem) (hs : Mem.wf s.mem = true) : EventOk (s.engineWrite x l blk off bs go) := by
  unfold State.engineWrite
  simp only []
  split
  · simp [hs]
  · simp
  · split
    · split
      case h_1 h => simp [hgo, State.wf_portWrite, State.enginePort_go h, hs]
      case h_2 h => simp [State.enginePort_ask h, hs]
      case h_3 => simp
    · split
      · simp [hs]
      · simp [hgo, hs]
      · simp [hs]

theorem State.eventOk_engineRead {s : State} (x : EngCmd) (l : Lay) (blk off n : Nat) {go : State → List Byte → Option State}
    (hgo : ∀ s bs, Mem.wf s.mem = true → EventOk (go s bs)) (hs : Mem.wf s.mem = true) :
    EventOk (s.engineRead x l blk off n go) := by
  unfold State.engineRead
  simp only []
  split
  · simp
  · simp [hs]
  · simp [hs]
  · split
    case h_1 h =>
      have ht := State.enginePort_go h ▸ hs
      split
      · simp [ht]
      · exact hgo _ _ ht
    case h_2 h => simp [State.enginePort_ask h, hs]
    case h_3 => simp

theorem State.wf_startTiles_inr {s t : State} {p : Nat} {xs : List (Nat × Nat)} (h : s.startTiles p xs = .inr t)
    (hs : Mem.wf s.mem = true) : Mem.wf t.mem = true := by
  unfold State.startTiles at h
  split at h
  · cases h
    refine State.wf_foldl (fun s r hs => ?_) _ hs
    split
    case h_1 y h => exact State.tileFor_mem h ▸ hs
    case h_2 => exact hs
  · split at h <;> cases h

theorem State.eventOk_startTiles_inl {s : State} {o : Option State} {p : Nat} {xs : List (Nat × Nat)}
    (h : s.startTiles p xs = .inl o) (hs : Mem.wf s.mem = true) : EventOk o := by
  unfold State.startTiles at h
  split at h
  · cases h
  · split at h <;> cases h
    · simp
    · rw [eventOk_some]
      exact State.wf_foldl (fun s r hs => by simp [hs]) _ hs

@[simp] theorem State.retile_mem (s : State) (p : Nat) (ea : Nat) : (s.retile p ea).mem = s.mem := by rfl

@[simp] theorem State.eventOk_notStarted {s : State} (x : EngCmd) (unit : Nat) (k : StartCheck) (hs : Mem.wf s.mem = true) :
    EventOk (s.notStarted x unit k) := by
  unfold State.notStarted
  split <;> simp [hs]

@[simp] theorem eventOk_copyEff {s : State} (x : EngCmd) (hs : Mem.wf s.mem = true) : EventOk (copyEff s x) := by
  unfold copyEff
  simp only []
  split
  · split
    · simp
    · split
      · split
        case h_1 h => exact State.eventOk_startTiles_inl h hs
        case h_2 h =>
          have ht := State.wf_startTiles_inr h hs
          split <;> simp [ht, hs]
      · simp [hs]
  · split
    · exact State.eventOk_engineRead _ _ _ _ _ (fun t bs ht => by simp [ht]) hs
    · exact State.eventOk_engineWrite _ _ _ _ _ (by simp) hs

@[simp] theorem eventOk_gatherEff {s : State} (id : Nat) (hs : Mem.wf s.mem = true) : EventOk (gatherEff s id) := by
  simp [gatherEff, hs]

@[simp] theorem eventOk_scatterEff {s : State} (id : Nat) (hs : Mem.wf s.mem = true) : EventOk (scatterEff s id) := by
  simp [scatterEff, hs]

@[simp] theorem eventOk_xferEff {s : State} (id : Nat) (hs : Mem.wf s.mem = true) : EventOk (xferEff s id) := by
  simp [xferEff, hs]

@[simp] theorem eventOk_codecStart {s : State} (x : EngCmd) (hs : Mem.wf s.mem = true) : EventOk (codecStart s x) := by
  unfold codecStart
  simp only []
  split
  · simp
  · split
    · split
      case h_1 h => exact State.eventOk_startTiles_inl h hs
      case h_2 h =>
        have ht := State.wf_startTiles_inr h hs
        split <;> simp [ht, hs]
    · simp [hs]

@[simp] theorem eventOk_stashLine {s : State} (x : EngCmd) (hs : Mem.wf s.mem = true) : EventOk (stashLine s x) := by
  unfold stashLine
  simp only []
  split
  · simp [hs]
  · simp
  · refine State.eventOk_engineRead _ _ _ _ _ (fun t bs ht => ?_) hs
    rw [eventOk_some, State.setCmd_mem, State.dropCmdPeers_mem]
    exact State.wf_foldl (fun s i hs => State.wf_foldl (fun s q hs => State.wf_writeBytes _ _ _ hs) _ hs) _ ht

@[simp] theorem State.wf_countNans {s : State} (x : EngCmd) (hs : Mem.wf s.mem = true) :
    Mem.wf (s.countNans x).mem = true := by
  simp [State.countNans, hs]

@[simp] theorem eventOk_stashAct {s : State} (x : EngCmd) (hs : Mem.wf s.mem = true) : EventOk (stashAct s x) := by
  refine (eventOk_stashLine x hs).map fun t ht => ?_
  split
  · simp [ht]
  · exact ht

@[simp] theorem eventOk_restoreLine {s : State} (x : EngCmd) (hs : Mem.wf s.mem = true) : EventOk (restoreLine s x) := by
  unfold restoreLine
  simp only []
  split
  · simp [hs]
  · simp
  · simp [hs]
  · exact State.eventOk_engineWrite _ _ _ _ _ (fun s => rfl) hs

@[simp] theorem eventOk_stashEff {s : State} (id : Nat) (hs : Mem.wf s.mem = true) : EventOk (stashEff s id) := by
  simp [stashEff, hs]

@[simp] theorem eventOk_restoreEff {s : State} (id : Nat) (hs : Mem.wf s.mem = true) : EventOk (restoreEff s id) := by
  simp [restoreEff, hs]

theorem State.eventOk_applyReduce {s : State} (unit : Nat) (source : DWord) (launch n : Nat) {go : State → State}
    (hgo : ∀ s, Mem.wf s.mem = true → Mem.wf (go s).mem = true) (hs : Mem.wf s.mem = true) :
    EventOk (s.applyReduce unit source launch n go) := by
  unfold State.applyReduce
  split
  · split
    · simpa using hs
    · exact (eventOk_some _).mpr (hgo _ hs)
  · split
    · exact eventOk_none
    · exact (eventOk_some _).mpr (hgo _ hs)

@[simp] theorem eventOk_reduceEff {s : State} (id : Nat) (hs : Mem.wf s.mem = true) : EventOk (reduceEff s id) := by
  unfold reduceEff
  rw [eventOk_bind]
  intro x _
  simp only []
  split
  · simp
  · split
    · split
      · split
        case h_1 h => exact State.eventOk_startTiles_inl h hs
        case h_2 h =>
          have ht := State.wf_startTiles_inr h hs
          split <;> simp [ht, hs]
      · simp [hs]
    · split
      · simp [hs]
      · simp
      · split
        · split
          · simp [hs]
          · simp [hs]
          · simp [hs]
        · split
          case h_1 => simp
          case h_2 h => simp [State.enginePort_ask h, hs]
          case h_3 h =>
            have ht := State.enginePort_go h ▸ hs
            split
            · simp [ht]
            · exact (State.eventOk_applyReduce _ _ _ _ (fun s hs => State.wf_portWrite _ _ _ _ hs) ht).map
                fun t ht => by simp [ht]

/-! ### The shunters (Machine/Exchange) -/

@[simp] theorem State.invalidate_mem (s : State) (ea : Nat) : (s.invalidate ea).mem = s.mem := by rfl

@[simp] theorem State.exchangeCycles_mem (s : State) (e1 e2 : BitVec 128) : (s.exchangeCycles e1 e2).2.mem = s.mem := by
  unfold State.exchangeCycles
  simp only []
  split <;> simp

@[simp] theorem State.startExchange_mem (s : State) (n : Nat) (placement : Bool) (a b ctx : Nat) (cmd : Option EngCmd)
    (inc done : Nat) : (s.startExchange n placement a b ctx cmd inc done).mem = s.mem := by
  simp [State.startExchange]

@[simp] theorem State.takeExchange_mem (s : State) (n : Nat) (x : EngCmd) (a b : Nat) :
    (s.takeExchange n x a b).mem = s.mem := by
  unfold State.takeExchange
  simp only []
  repeat' split
  all_goals simp

@[simp] theorem eventOk_xchgStartEff {s : State} (n : Nat) (k : EngKind) (hs : Mem.wf s.mem = true) :
    EventOk (xchgStartEff s n k) := by
  unfold xchgStartEff
  split <;> simp [hs]

@[simp] theorem State.wf_serviceDone {s : State} (inc done : Nat) (fail : Bool) (hs : Mem.wf s.mem = true) :
    Mem.wf (s.serviceDone inc done fail).mem = true := by
  simp [State.serviceDone, hs]

@[simp] theorem State.dropService_mem (s : State) (n : Nat) (r : Service) : (s.dropService n r).mem = s.mem := by rfl

@[simp] theorem State.eventOk_servicePoison {s : State} (n : Nat) (r : Service) (hs : Mem.wf s.mem = true) :
    EventOk (s.servicePoison n r) := by
  unfold State.servicePoison
  split
  · exact eventOk_none
  · refine (eventOk_some _).mpr (State.wf_foldl (fun s ea hs => ?_) _ hs)
    simp only []
    split <;> simp [hs]

@[simp] theorem eventOk_serviceXchgEff {s : State} (n op : Nat) (hs : Mem.wf s.mem = true) :
    EventOk (serviceXchgEff s n op) := by
  unfold serviceXchgEff
  split
  · simp only []
    rw [eventOk_ite, eventOk_ite]
    refine ⟨by simp, fun _ => ⟨by simp [hs], fun _ => ?_⟩⟩
    split
    case h_1 h => simp [State.eventOk_servicePoison _ _ (by simpa using hs) _ h]
    case h_2 => simp [hs]
  · simp

@[simp] theorem State.passFrame_mem (s : State) (pa ctx : Nat) : (s.passFrame pa ctx).mem = s.mem := by rfl

@[simp] theorem State.eventOk_grantFrames {s : State} (a b : Nat) (hs : Mem.wf s.mem = true) :
    EventOk (s.grantFrames a b) := by
  unfold State.grantFrames
  split <;> simp [hs]

@[simp] theorem eventOk_grantEff {s : State} (n : Nat) (hs : Mem.wf s.mem = true) : EventOk (grantEff s n) := by
  unfold grantEff
  split
  case h_2 => simp
  case h_1 r _ =>
    have hd : Mem.wf (s.dropService n r).mem = true := by simpa using hs
    have hp : EventOk (if r.ok then (s.dropService n r).servicePoison n r else none) := by simp [hs]
    have hg : EventOk (if r.ok then (s.dropService n r).grantFrames r.e1.toNat r.e2.toNat else none) := by simp [hs]
    simp only []
    rw [eventOk_ite]
    refine ⟨by simp, fun _ => ?_⟩
    split
    case h_1 h => simp [hp _ h]
    case h_2 =>
      split
      case h_1 h => simp [hg _ h]
      case h_2 => simp [hs]

@[simp] theorem State.wf_setCursor {s : State} (x : Exchange) (cursor : Nat) (rb : Bool) (hs : Mem.wf s.mem = true) :
    Mem.wf (s.setCursor x cursor rb).mem = true := by
  simp [State.setCursor, hs]

@[simp] theorem State.wf_swapLine {s : State} (x : Exchange) (l : Nat) (hs : Mem.wf s.mem = true) :
    Mem.wf (s.swapLine x l).mem = true := by
  simp [State.swapLine, hs]

@[simp] theorem State.setRun_mem (s : State) (n : Nat) (x : Option Exchange) : (s.setRun n x).mem = s.mem := by rfl

@[simp] theorem State.wf_markEntries {s : State} (x : Exchange) (hs : Mem.wf s.mem = true) :
    Mem.wf (s.markEntries x).mem = true := by
  simp [State.markEntries, hs]

@[simp] theorem eventOk_lineSwapEff {s : State} (n : Nat) (hs : Mem.wf s.mem = true) : EventOk (lineSwapEff s n) := by
  unfold lineSwapEff
  split <;> simp [hs]

@[simp] theorem State.wf_settleEntries {s : State} (x : Exchange) (crossed : Bool) (hs : Mem.wf s.mem = true) :
    Mem.wf (s.settleEntries x crossed).mem = true := by
  simp [State.settleEntries, hs]

@[simp] theorem State.eventOk_endExchange {s : State} (n : Nat) (x : Exchange) (crossed err : Bool) (hs : Mem.wf s.mem = true) :
    EventOk (s.endExchange n x crossed err) := by
  unfold State.endExchange
  split
  · exact (State.eventOk_deliver _ hs).map fun t ht => by simp [ht]
  · simp [hs]

@[simp] theorem eventOk_commitEff {s : State} (n : Nat) (hs : Mem.wf s.mem = true) : EventOk (commitEff s n) := by
  unfold commitEff
  split <;> simp [hs]

@[simp] theorem State.logShunter_mem (s : State) (n : Nat) (x : Exchange) (c : Cause) (pas : List Nat) :
    (s.logShunter n x c pas).mem = s.mem := by
  simp [State.logShunter, State.foldl_mem]

@[simp] theorem eventOk_rollbackEff {s : State} (n : Nat) (hs : Mem.wf s.mem = true) : EventOk (rollbackEff s n) := by
  unfold rollbackEff
  split <;> simp [hs]

@[simp] theorem eventOk_backSwapEff {s : State} (n : Nat) (hs : Mem.wf s.mem = true) : EventOk (backSwapEff s n) := by
  unfold backSwapEff
  split <;> simp [hs]

@[simp] theorem eventOk_backLostEff {s : State} (n : Nat) (hs : Mem.wf s.mem = true) : EventOk (backLostEff s n) := by
  unfold backLostEff
  split <;> simp [hs]

@[simp] theorem eventOk_backDoneEff {s : State} (n : Nat) (hs : Mem.wf s.mem = true) : EventOk (backDoneEff s n) := by
  unfold backDoneEff
  split
  · simp only []
    split
    · simp
    · split
      · split <;> simp [hs]
      · refine (State.eventOk_endExchange n _ false true hs).map fun t ht => State.wf_foldl (fun t pa ht => ?_) _ ?_
        · split <;> simp [ht]
        · split <;> simp [ht]
  · simp

@[simp] theorem eventOk_scrubEff {s : State} (frame line : Nat) (hs : Mem.wf s.mem = true) :
    EventOk (scrubEff s frame line) := by
  unfold scrubEff
  simp only [eventOk_ite, eventOk_none, eventOk_some, imp_true_iff, and_true]
  exact fun _ => State.wf_writeBytes _ _ _ hs

/-! ### Walks (Machine/Walk) -/

@[simp] theorem State.setGroup_mem (s : State) (ctx g : Nat) (x : Group) : (s.setGroup ctx g x).mem = s.mem := by
  unfold State.setGroup
  split <;> rfl

@[simp] theorem State.wf_setCommitBit {s : State} (l : Launch) (p n : Nat) (v : Bool) (hs : Mem.wf s.mem = true) :
    Mem.wf (s.setCommitBit l p n v).mem = true := by
  simp [State.setCommitBit, hs]

@[simp] theorem State.logRefused_mem (s : State) (c : Cause) (l : Option LogRec) (ctx rqk rqi : Nat) :
    (s.logRefused c l ctx rqk rqi).mem = s.mem := by
  unfold State.logRefused
  split <;> simp

@[simp] theorem State.fillShed_mem (s : State) (shed asid : Nat) (va : DWord) (w : Walked) :
    (s.fillShed shed asid va w).mem = s.mem := by
  unfold State.fillShed
  split <;> simp

@[simp] theorem State.readVa_mem (s : State) (shed id : Nat) (c : Context) (va : DWord) (n : Nat) :
    (s.readVa shed id c va n).2.mem = s.mem := by
  unfold State.readVa
  simp only []
  split <;> simp

/-! ### Atomics and rounds (Machine/Atomics) -/

@[simp] theorem outcomeOk_atomic (i : Instr) (w : BitVec 2) (op : AmoOp) (d a b : BitVec 5) (stm : BitVec 3) (scope size : BitVec 2)
    {s : State} (hs : Mem.wf s.mem = true) : OutcomeOk (atomic i w op d a b stm scope size s) := by
  refine outcomeOk_run _ _ (actOk_bind (by simp) fun va => ?_) hs
  extract_lets n request
  have hrequest : ∀ x, ActOk (request x) := fun x => by
    unfold request
    extract_lets issue
    have hissue : ∀ c, ActOk (issue c) := fun c => by
      refine actOk_bind (by simp) fun t => actOk_bind (by simp) fun _ => ?_
      simp only [actOk_ite, refuse_bind, actOk_refuse, imp_true_iff, true_and]
      exact fun _ _ => actOk_bind (by simp) fun _ => actOk_modify fun _ => rfl
    split <;> exact actOk_bind (by simp) hissue
  split <;> exact actOk_bind (by simp) hrequest

@[simp] theorem State.replyTrap_mem (s : State) (p : Nat) (c : Cause) (va : DWord) : (s.replyTrap p c va).mem = s.mem := by
  unfold State.replyTrap
  split
  · exact State.yardTrap_mem ..
  · simp

@[simp] theorem State.keepLate_mem (s : State) (r : AmoReq) (v : DWord) (c : Option Cause) :
    (s.keepLate r v c).mem = s.mem := by
  unfold State.keepLate
  split <;> simp

@[simp] theorem State.failAmo_mem (s : State) (p : Nat) (r : AmoReq) (k : Cause) : (s.failAmo p r k).mem = s.mem := by
  simp [State.failAmo]

theorem State.eventOk_nearTurn {s : State} {o : Option State} {p pa seq : Nat} {served : Bool}
    (h : s.nearTurn p pa seq served = some o) (hs : Mem.wf s.mem = true) : EventOk o := by
  unfold State.nearTurn at h
  split at h
  · split at h
    · cases h
    · split at h <;> cases h
      · exact eventOk_none
      · simpa using hs
  · cases h

@[simp] theorem State.eventOk_amoStep {s : State} (p : Nat) (r : AmoReq) (hs : Mem.wf s.mem = true) :
    EventOk (s.amoStep p r) := by
  unfold State.amoStep
  simp only []
  split
  · rw [eventOk_map]
    intro x _
    split <;> simp [hs]
  · split
    · split
      · split <;> simp [hs]
      · simp [hs]
    · rw [eventOk_ite, eventOk_ite]
      refine ⟨by simp, fun _ => ⟨by simp [hs], fun _ => ?_⟩⟩
      split
      · simp
      · simp [hs]
      · split
        case h_1 h => exact State.eventOk_nearTurn h hs
        case h_2 => simp [hs]

@[simp] theorem eventOk_amoEff {s : State} (p : Nat) (hs : Mem.wf s.mem = true) : EventOk (amoEff s p) := by
  simp [amoEff, hs]

@[simp] theorem eventOk_roundEff {s : State} (i : Nat) (hs : Mem.wf s.mem = true) : EventOk (roundEff s i) := by
  unfold roundEff
  repeat' split
  all_goals simp [hs]

@[simp] theorem actOk_barrierWord (acc : Acc) (va : DWord) : ActOk (barrierWord acc va) := by
  unfold barrierWord
  refine actOk_bind (by simp) fun t => actOk_bind (by simp) fun s => ?_
  split <;> simp

@[simp] theorem eventOk_barrierEff {s : State} (p : Nat) (hs : Mem.wf s.mem = true) : EventOk (barrierEff s p) := by
  unfold barrierEff
  simp only []
  repeat' split
  all_goals simp [hs]

@[simp] theorem eventOk_pollEff {s : State} (p : Nat) (hs : Mem.wf s.mem = true) : EventOk (pollEff s p) := by
  unfold pollEff
  simp only []
  split <;> simp [hs]

/-! ### Snapshots (Machine/Snapshot) -/

@[simp] theorem State.regroup_mem (s : State) (p : Nat) : (s.regroup p).mem = s.mem := by rfl

@[simp] theorem State.freezeCore_mem (s : State) (p : Nat) : (s.freezeCore p).mem = s.mem := by rfl

@[simp] theorem State.eventOk_giveHeld {s : State} (p : Nat) (hs : Mem.wf s.mem = true) : EventOk (s.giveHeld p) := by
  simp [State.giveHeld, hs]

@[simp] theorem State.wf_applyHeld {s : State} (p : Nat) (hs : Mem.wf s.mem = true) :
    Mem.wf (s.applyHeld p).mem = true := by
  unfold State.applyHeld
  exact State.wf_foldl (fun s x hs => by simp [hs]) _ (by simp [hs])

@[simp] theorem State.eventOk_reissue {s : State} (p : Nat) (hs : Mem.wf s.mem = true) : EventOk (s.reissue p) := by
  simp [State.reissue, hs]

@[simp] theorem State.eventOk_bfxAgain {s : State} (p : Nat) (ctx : Context) (l : ALoad) (hs : Mem.wf s.mem = true) :
    EventOk (s.bfxAgain p ctx l) := by
  unfold State.bfxAgain
  simp only []
  split
  · split
    · simp [hs]
    · rw [eventOk_ite]
      refine ⟨by simp, fun _ => ?_⟩
      rw [eventOk_some, State.setCr_mem, foldl_mem_of (g := fun r : Nat × State => r.2) (fun r pa => by split <;> simp)]
      exact hs
  · simp

@[simp] theorem State.eventOk_linAgain {s : State} (p : Nat) (ctx : Context) (l : LinLoad) (hs : Mem.wf s.mem = true) :
    EventOk (s.linAgain p ctx l) := by
  unfold State.linAgain
  split <;> simp [hs]

@[simp] theorem State.eventOk_performAgain {s : State} (p : Nat) (hs : Mem.wf s.mem = true) :
    EventOk (s.performAgain p) := by
  unfold State.performAgain
  simp only []
  rw [eventOk_orElse, eventOk_ite]
  refine ⟨by simp [hs], fun _ => ⟨by simp, fun _ => ?_⟩⟩
  split
  · simp
  · simp [hs]

@[simp] theorem State.wf_thawCore {s : State} (p : Nat) (hs : Mem.wf s.mem = true) : Mem.wf (s.thawCore p).mem = true := by
  simp [State.thawCore, hs]

@[simp] theorem State.readSnap_mem (s : State) (p w : Nat) : (s.readSnap p w).2.mem = s.mem := by
  unfold State.readSnap
  repeat' split
  all_goals simp

@[simp] theorem State.writeSnap_mem (s : State) (p w : Nat) (v : DWord) : (s.writeSnap p w v).mem = s.mem := by
  unfold State.writeSnap
  simp only []
  split <;> simp

@[simp] theorem State.wf_flushC {s : State} (p : Nat) (hs : Mem.wf s.mem = true) : Mem.wf (s.flushC p).mem = true := by
  refine State.wf_foldl (fun s x hs => ?_) _ hs
  simp only []
  split
  · exact State.wf_getD (by simp [hs]) hs
  · simp [hs]

@[simp] theorem State.wf_flushD {s : State} (p : Nat) (hs : Mem.wf s.mem = true) : Mem.wf (s.flushD p).mem = true := by
  refine State.wf_foldl (fun s l hs => ?_) _ hs
  split
  · split
    · simp [hs]
    · simp [hs, -List.reduceReplicate]
  · exact hs

@[simp] theorem State.wf_flushCore {s : State} (p : Nat) (hs : Mem.wf s.mem = true) :
    Mem.wf (s.flushCore p).mem = true := by
  simp [State.flushCore, hs]

@[simp] theorem State.keepSent_mem (s : State) (p : Nat) : (s.keepSent p).mem = s.mem := by rfl

@[simp] theorem State.wf_dropTask {s : State} (p : Nat) (hs : Mem.wf s.mem = true) : Mem.wf (s.dropTask p).mem = true := by
  simp [State.dropTask, hs]

@[simp] theorem State.wf_storeRecord {s : State} (p addr : Nat) (hs : Mem.wf s.mem = true) :
    Mem.wf (s.storeRecord p addr).mem = true := by
  unfold State.storeRecord
  generalize List.range 256 = is
  simp only [State.keepSent_mem, State.setCr_mem]
  exact State.wf_foldl (fun s i hs => State.wf_writeBytes _ _ _ hs) _ (State.wf_flushCore p hs)

/-- The state in which core `p` is `k`, the spill area that `k` names is pinned, and the engines' commands of its task answer to `p`. -/
def State.withRestored (s : State) (p : Nat) (k : Core) : State :=
  let here := fun (x : EngCmd) => { x with core := p }
  let t := { (s.setCr p k).pinArea p k.matrix.area true with choices := s.choices + 1 }
  let mine := fun (x : EngCmd) => k.task = some x.task
  { t with
    engines := t.engines.map fun x => if mine x then here x else x
    shunters := t.shunters.map fun x => (x.1, { x.2 with run := x.2.run.map fun r =>
      { r with cmd := r.cmd.map fun y => if mine y then here y else y } }) }

@[simp] theorem State.withRestored_mem (s : State) (p : Nat) (k : Core) : (s.withRestored p k).mem = s.mem := by
  unfold State.withRestored
  simp only [State.pinArea_mem, State.setCr_mem]

/-- Loading a record restores one core: which one matters to no frame. -/
theorem State.loadRecord_eq (s : State) (p addr : Nat) : ∃ k, s.loadRecord p addr = s.withRestored p k :=
  ⟨_, rfl⟩

@[simp] theorem State.loadRecord_mem (s : State) (p addr : Nat) : (s.loadRecord p addr).mem = s.mem := by
  obtain ⟨k, hk⟩ := s.loadRecord_eq p addr
  rw [hk, State.withRestored_mem]

@[simp] theorem State.wf_evict {s : State} (p ctx : Nat) (hs : Mem.wf s.mem = true) :
    Mem.wf (s.evict p ctx).mem = true := by
  unfold State.evict
  simp only []
  refine State.wf_foldl (fun s f hs => by simp [hs]) _ ?_
  split
  · exact hs
  · exact State.wf_foldl (fun s w hs => by simp [hs]) _ hs

@[simp] theorem State.clearCtx_mem (s : State) (p ctx : Nat) : (s.clearCtx p ctx).mem = s.mem := by
  unfold State.clearCtx
  split <;> rfl

@[simp] theorem eventOk_snapStoreEff {s : State} (p addr : Nat) (hs : Mem.wf s.mem = true) :
    EventOk (snapStoreEff s p addr) := by
  simp [snapStoreEff, hs]

@[simp] theorem eventOk_snapLoadEff {s : State} (p addr : Nat) (hs : Mem.wf s.mem = true) :
    EventOk (snapLoadEff s p addr) := by
  simp [snapLoadEff, hs]

@[simp] theorem eventOk_snapEvictEff {s : State} (p : Nat) (hs : Mem.wf s.mem = true) : EventOk (snapEvictEff s p) := by
  simp [snapEvictEff, hs]

@[simp] theorem eventOk_snapClearEff {s : State} (p : Nat) (hs : Mem.wf s.mem = true) : EventOk (snapClearEff s p) := by
  simp [snapClearEff, hs]

@[simp] theorem actOk_readCore (a : BitVec 5) : ActOk (readCore a) := by
  simp [readCore]

@[simp] theorem actOk_snapTarget (a b : BitVec 5) : ActOk (snapTarget a b) := by
  unfold snapTarget
  repeat' refine actOk_bind ?_ fun _ => ?_
  all_goals simp

@[simp] theorem actOk_snapOperation (p : Nat) (v : DWord) : ActOk (snapOperation p v) := by
  unfold snapOperation
  refine actOk_get_bind fun s hs => ?_
  simp only []
  generalize v.toNat % 4 = k
  match k with
  | 0 => exact actOk_pure () s hs
  | 1 => exact ResultOk.bind fun _ u _ => by simp [hs]
  | 2 =>
    refine ResultOk.bind fun _ u hu => ?_
    split
    · exact resultOk_error _
    · exact ResultOk.bind fun _ u _ => by simp [hs]
  | k + 3 =>
    show ResultOk ((ite _ _ _ : Act Unit) s)
    split
    · simp [hs]
    · exact ResultOk.bind fun _ u _ => by simp [hs]

/-! ### The walker (Machine/Tasks) -/

@[simp] theorem State.msi_mem (s : State) (addr : DWord) (data : Word) : (s.msi addr data).mem = s.mem := by
  unfold State.msi
  split <;> rfl

@[simp] theorem State.wf_dropTasks {s : State} (id : Nat) (hs : Mem.wf s.mem = true) :
    Mem.wf (s.dropTasks id).mem = true := by
  unfold State.dropTasks
  exact State.wf_foldl (fun s x hs => by simp [hs]) _ (by simp [hs])

@[simp] theorem State.closeQueue_mem (s : State) (q : Nat) : (s.closeQueue q).mem = s.mem := by
  simp [State.closeQueue]

@[simp] theorem State.forget_mem (s : State) (id : Nat) (contain : Bool) : (s.forget id contain).mem = s.mem := by rfl

@[simp] theorem State.wf_endLaunch {s : State} (l : Launch) (code : Nat) (st : LaunchState) (contain : Bool)
    (hs : Mem.wf s.mem = true) : Mem.wf (s.endLaunch l code st contain).1.mem = true := by
  unfold State.endLaunch
  extract_lets u v w l' x y z g mine busy frozen
  have hu : Mem.wf u.mem = true := by unfold u; split <;> simp [hs]
  have hv : Mem.wf v.mem = true := by unfold v; split <;> simp [hu]
  have hx : Mem.wf x.mem = true := by simpa [x, w] using hv
  have hy : Mem.wf y.mem = true := by unfold y; split <;> simp [hx]
  have hz : Mem.wf z.mem = true := by simpa [z] using hy
  clear_value z
  split
  · split <;> simp [hz]
  · split
    · exact hz
    · split
      · simp [hz]
      · simp [hz]

@[simp] theorem State.walkerTrap_mem (s : State) (l : Launch) (p : Nat) (wid : DWord) (c : Cause) (info : DWord) :
    (s.walkerTrap l p wid c info).mem = s.mem := by rfl

@[simp] theorem State.wf_startPhase {s : State} (l : Launch) (p base : Nat) (hs : Mem.wf s.mem = true) :
    Mem.wf (s.startPhase l p base).mem = true := by
  simp [State.startPhase, hs]

@[simp] theorem State.closePhase_mem (s : State) (l : Launch) (p wcore : Nat) (wid : DWord) :
    (s.closePhase l p wcore wid).1.mem = s.mem := by
  unfold State.closePhase
  simp only []
  repeat' split
  all_goals simp

@[simp] theorem State.wf_walkOn (n t id : Nat) {s : State} (hs : Mem.wf s.mem = true) :
    Mem.wf (State.walkOn n t id s).mem = true := by
  induction n generalizing t id s with
  | zero => exact hs
  | succ n ih =>
    have hend : ∀ (s : State) (l : Launch) (code : Nat) (st : LaunchState), Mem.wf s.mem = true →
        Mem.wf (match s.endLaunch l code st false with
          | (s, some k) => State.walkOn n s.now k s
          | (s, none) => s).mem = true := fun s l code st hs => by
      have he := State.wf_endLaunch l code st false hs
      split
      case h_1 h => exact ih _ _ (State.wf_fst h he)
      case h_2 h => exact State.wf_fst h he
    unfold State.walkOn
    split
    · exact hs
    · extract_lets p last passed base u
      have hu : Mem.wf u.mem = true := State.wf_startPhase _ _ _ hs
      split
      · exact hs
      · split
        · split
          · exact hend _ _ _ _ hs
          · exact hs
        · split
          · split
            · split
              · have hc := fun k => (State.closePhase_mem u k (p + 1) 0 0).symm ▸ hu
                split
                case h_1 h => exact ih _ _ (State.wf_fst h (hc _))
                case h_2 h => exact hend _ _ _ _ (State.wf_fst h (hc _))
              · exact hu
            · exact hu
          · exact hs

@[simp] theorem State.wf_goOn {s : State} (t id : Nat) (hs : Mem.wf s.mem = true) : Mem.wf (s.goOn t id).mem = true := by
  simp [State.goOn, hs]

@[simp] theorem State.wf_finish {s : State} (l : Launch) (code : Nat) (st : LaunchState) (contain : Bool)
    (hs : Mem.wf s.mem = true) : Mem.wf (s.finish l code st contain).mem = true := by
  have he := State.wf_endLaunch l code st contain hs
  unfold State.finish
  split
  all_goals rename_i h; rw [h] at he
  · simp [he]
  · exact he

@[simp] theorem State.wf_beginPhase {s : State} (l : Launch) (p base : Nat) (hs : Mem.wf s.mem = true) :
    Mem.wf (s.beginPhase l p base).mem = true := by
  have hp := State.wf_startPhase l p base hs
  unfold State.beginPhase
  extract_lets u
  have hu : Mem.wf u.mem = true := hp
  clear_value u
  split
  · exact hu
  · split
    · exact hu
    · have hc := fun k => (State.closePhase_mem u k p 0 0).symm ▸ hu
      split
      case h_1 h => simp [State.wf_fst h (hc _)]
      case h_2 h => simp [State.wf_fst h (hc _)]

@[simp] theorem State.predFails_mem (s : State) (l : Launch) (n pa : Nat) : (s.predFails l n pa).mem = s.mem := by
  simp [State.predFails]

@[simp] theorem State.wf_moveBlock {s : State} (ctx a b : Nat) (hs : Mem.wf s.mem = true) :
    Mem.wf (s.moveBlock ctx a b).mem = true := by
  unfold State.moveBlock
  exact State.wf_settleEntries _ _ (State.wf_foldl (fun s l hs => by simp [hs]) _ (by simpa using hs))

@[simp] theorem State.eventOk_moveImages {s : State} (id p q addr : Nat) (hs : Mem.wf s.mem = true) :
    EventOk (s.moveImages id p q addr) := by
  unfold State.moveImages
  split
  · simpa using hs
  · simp
  · simp only []
    split
    · simp
    · refine (eventOk_some _).mpr (State.wf_writeBytes _ _ _ (State.wf_foldl (fun s i hs => ?_) _ hs))
      split <;> simp [hs]

@[simp] theorem State.eventOk_restoreTask {s : State} (l : Launch) (p q : Nat) (hs : Mem.wf s.mem = true) :
    EventOk (s.restoreTask l p q) := by
  unfold State.restoreTask
  extract_lets addr load u v
  have hload : ∀ t, Mem.wf t.mem = true → EventOk (load t) := fun t ht => by simp [load, ht]
  have hu : Mem.wf u.mem = true := hs
  have hv : Mem.wf v.mem = true := by unfold v; split <;> simp [hu]
  clear_value v load u
  split
  · simp
  · split
    · exact hload _ hu
    · split
      · simp
      · rw [eventOk_bind]
        intro t ht
        exact hload _ (State.eventOk_moveImages _ _ _ _ hv _ ht)

@[simp] theorem State.eventOk_unpark {s : State} (l : Launch) (hs : Mem.wf s.mem = true) : EventOk (s.unpark l) := by
  refine eventOk_findSome _ fun p => ?_
  simp only []
  split <;> simp [hs]

@[simp] theorem State.wf_startTask {s : State} (l : Launch) (n k : Nat) (hs : Mem.wf s.mem = true) :
    Mem.wf (s.startTask l n k).mem = true := by
  simp [State.startTask, hs]

@[simp] theorem eventOk_startEff {s : State} (id : Nat) (hs : Mem.wf s.mem = true) : EventOk (startEff s id) := by
  unfold startEff
  split
  · simp
  · split
    · simp
    · split
      case h_1 h => exact (eventOk_some _).mpr (State.eventOk_unpark _ hs _ h)
      case h_2 =>
        extract_lets n time
        clear_value time
        split
        · simp
        · split
          · simp
          · split
            · simp [hs]
            · simp [hs]

@[simp] theorem eventOk_slipEff {s : State} (id : Nat) (hs : Mem.wf s.mem = true) : EventOk (slipEff s id) := by
  unfold slipEff
  split <;> simp [hs]

@[simp] theorem eventOk_resumeEff {s : State} (id : Nat) (hs : Mem.wf s.mem = true) : EventOk (resumeEff s id) := by
  unfold resumeEff
  split <;> simp [hs]

@[simp] theorem State.wf_claimNow {s : State} (p : Nat) (what : Option Nat) (hs : Mem.wf s.mem = true) :
    Mem.wf (s.claimNow p what).mem = true := by
  unfold State.claimNow
  split
  · split
    · simp [hs]
    · exact State.wf_applyWrites (by simp [hs])
  · exact hs

@[simp] theorem State.wf_landNow {s : State} (p : Nat) (r : ArrayRow) (hs : Mem.wf s.mem = true) :
    Mem.wf (s.landNow p r).mem = true := by
  simp [State.landNow, hs]

@[simp] theorem State.bindNow_mem (s : State) (p slot : Nat) (srcs : List (Option Nat × List Nat)) (n : Nat) (h : MCmd) :
    (s.bindNow p slot srcs n h).mem = s.mem := by
  induction n generalizing h with
  | zero => rfl
  | succ n ih =>
    unfold State.bindNow
    split
    · exact ih _
    · rfl

theorem State.wf_writeSlotLines {s : State} (m : Matrix) (slot base : Nat) (ks : List Nat) (hs : Mem.wf s.mem = true) :
    Mem.wf (ks.foldl (fun s k => s.writeSlotLine m slot base k) s).mem = true :=
  State.wf_foldl (fun _ _ hs => State.wf_writeSlotLine _ _ _ _ hs) ks hs

@[simp] theorem State.eventOk_commandNow {s : State} (p : Nat) (h : MCmd) (hs : Mem.wf s.mem = true) :
    EventOk (s.commandNow p h) := by
  unfold State.commandNow
  generalize 16500 = fuel, List.range 128 = lines
  extract_lets u m
  have hu : Mem.wf u.mem = true := State.wf_foldl (fun s w hs => by simp [hs]) _ hs
  clear_value u m
  split
  · simp
  · simpa using hu
  · split
    · simpa using hu
    · split
      · simp [hu]
      · simp [hu]
      · simp [hu]
      · exact (eventOk_some _).mpr (State.wf_applyWrites (State.wf_writeSlotLines _ _ _ _ hu))
      · simp [hu]
      · simpa using hu

@[simp] theorem State.wf_commandsNow {s : State} (p : Nat) (hs : List MCmd) (h : Mem.wf s.mem = true) :
    Mem.wf (s.commandsNow p hs).mem = true := by
  induction hs generalizing s with
  | nil => exact h
  | cons x xs ih =>
    unfold State.commandsNow
    split
    case h_1 t ht => exact ih (State.eventOk_commandNow p x h t ht)
    case h_2 => exact h

@[simp] theorem State.wf_finishMatrix {s : State} (p : Nat) (hs : Mem.wf s.mem = true) :
    Mem.wf (s.finishMatrix p).mem = true :=
  State.wf_commandsNow p _ (State.wf_foldl (fun _ _ hs => State.wf_landNow _ _ hs) _ hs)

@[simp] theorem State.wf_finishPlanes {s : State} (p : Nat) (hs : Mem.wf s.mem = true) :
    Mem.wf (s.finishPlanes p).mem = true := by
  refine State.wf_foldl (fun s l hs => ?_) _ hs
  split
  case h_1 h =>
    have ht := State.eventOk_loadArrives p l hs _ h
    split
    · exact ht
    · exact hs
  case h_2 => exact hs

@[simp] theorem State.appendConts_mem (s : State) (l : Launch) (phase n : Nat) (rs : List ContRec) :
    (s.appendConts l phase n rs).2.mem = s.mem := by
  simp [State.appendConts, State.foldl_mem]

@[simp] theorem State.wf_commitTask {s : State} (p : Nat) (t : TaskId) (l : Launch) (hs : Mem.wf s.mem = true) :
    Mem.wf (s.commitTask p t l).mem = true := by
  unfold State.commitTask
  extract_lets c l'
  split
  rename_i l2 u h
  have hu : Mem.wf u.mem = true := State.wf_snd h (by simpa using hs)
  extract_lets v w x
  have hw : Mem.wf w.mem = true := by
    have hv : Mem.wf v.mem = true := State.wf_setCommitBit _ _ _ _ (by simpa using hu)
    simp [w, State.wf_finishMatrix p (State.wf_finishPlanes p hv)]
  have hx : Mem.wf x.mem = true := by unfold x; split <;> simp [hw]
  clear_value x
  split
  · have hc := (State.closePhase_mem x l2 t.phase p t.wid).symm ▸ hx
    split
    case h_1 h => simp [State.wf_fst h hc]
    case h_2 h =>
      split
      · simp [State.wf_fst h hc]
      · exact State.wf_fst h hc
  · simp [hx]

@[simp] theorem eventOk_taskCommitEff {s : State} (p : Nat) (hs : Mem.wf s.mem = true) : EventOk (taskCommitEff s p) := by
  unfold taskCommitEff
  simp only []
  repeat' split
  all_goals simp [hs]

@[simp] theorem Reader.check_mem (x : Reader) (w : ReadFor) (va : DWord) (n phase : Nat) :
    (x.check w va n phase).2.1.mem = x.1.mem := by
  have hr := State.readVa_mem x.1 w.1 w.2.1 w.2.2 va n
  unfold Reader.check
  split
  · rfl
  · split
    all_goals rename_i h; rw [h] at hr; exact hr

theorem Check.andThen_mem {α β : Type} (x : Check α × Reader) {f : Reader → Check β × Reader}
    (hf : ∀ r, (f r).2.1.mem = r.1.mem) : (Check.andThen x f).2.1.mem = x.2.1.mem := by
  unfold Check.andThen
  split
  · rfl
  · exact hf _
  · exact hf _

@[simp] theorem Check.rule_mem {α : Type} (x : Check α × Reader) (f : α → Bool) (code phase : Nat) :
    (Check.rule x f code phase).2.1.mem = x.2.1.mem :=
  rfl

@[simp] theorem Reader.table_mem (w : ReadFor) (k phase n : Nat) (va : DWord) (x : Reader) :
    (Reader.table w k phase n va x).2.1.mem = x.1.mem := by
  induction n generalizing va x with
  | zero => rfl
  | succ n ih => exact (Check.andThen_mem _ fun r => ih _ r).trans (Reader.check_mem ..)

@[simp] theorem Reader.phase_mem (w : ReadFor) (h : BitVec 512) (p : Nat) (x : Reader) :
    (Reader.phase w h p x).2.1.mem = x.1.mem := by
  unfold Reader.phase
  simp only []
  split <;> simp

@[simp] theorem Reader.phases_mem (w : ReadFor) (h : BitVec 512) (n p : Nat) (x : Reader) :
    (Reader.phases w h n p x).2.1.mem = x.1.mem := by
  induction n generalizing p x with
  | zero => rfl
  | succ n ih => exact (Check.andThen_mem _ fun r => ih _ r).trans (Reader.phase_mem ..)

@[simp] theorem Reader.kernel_mem (w : ReadFor) (khdr : DWord) (x : Reader) :
    (Reader.kernel w khdr x).2.1.mem = x.1.mem := by
  unfold Reader.kernel
  simp only []
  split
  · rw [Check.andThen_mem _ fun r => (Check.andThen_mem _ fun r => Reader.table_mem ..).trans (Reader.phases_mem ..)]
    simp
  · simp
  · simp

@[simp] theorem State.readText_mem (s : State) (ctx g : Nat) (khdr : DWord) (got : Reads) :
    (s.readText ctx g khdr got).2.1.mem = s.mem := by
  unfold State.readText
  split <;> simp

@[simp] theorem State.kernelPushed_mem (s : State) (r : BitVec 512) (got : Reads) :
    (s.kernelPushed r got).2.1.mem = s.mem :=
  State.readText_mem ..

/-! ### Launches (Machine/Launches) -/

@[simp] theorem State.push_mem (s : State) (q : Nat) (r : Option (BitVec 512)) (hold : Option (Nat × Nat)) :
    (s.push q r hold).2.mem = s.mem := by
  unfold State.push
  simp only []
  split
  · simp
  · split
    · simp
    · split
      · simp
      · split
        · simp
        · split <;> simp

@[simp] theorem State.queuePush_mem (s : State) (q : Nat) (v : DWord) : (s.queuePush q v).mem = s.mem := by
  simp [State.queuePush]

theorem State.rereadOne_mem {s t : State} {r x : LqRecord} (h : s.rereadOne r = some (x, t)) : t.mem = s.mem := by
  unfold State.rereadOne at h
  split at h
  · cases h
  · simp only [Option.ite_none_left_eq_some, Option.some.injEq, Prod.mk.injEq] at h
    rw [← h.2.2, State.kernelPushed_mem]

theorem State.reread_mem {s t : State} {rs xs : List LqRecord} (h : s.reread rs = some (xs, t)) : t.mem = s.mem := by
  induction rs generalizing xs with
  | nil => cases h
  | cons r rs ih =>
    unfold State.reread at h
    split at h
    case h_1 h1 => cases h; exact State.rereadOne_mem h1
    case h_2 =>
      obtain ⟨⟨ys, u⟩, hu, hx⟩ := Option.map_eq_some_iff.mp h
      cases hx
      exact ih hu

@[simp] theorem eventOk_rereadEff {s : State} (q : Nat) (hs : Mem.wf s.mem = true) : EventOk (rereadEff s q) := by
  unfold rereadEff
  rw [eventOk_map]
  exact fun r hr => (State.reread_mem hr).symm ▸ hs

@[simp] theorem State.openQueue_mem (s : State) (q : Nat) : (s.openQueue q).mem = s.mem := by
  simp [State.openQueue]

@[simp] theorem State.quiesceQueue_mem (s : State) (q : Nat) : (s.quiesceQueue q).mem = s.mem := by
  simp [State.quiesceQueue]

@[simp] theorem State.disableQueue_mem (s : State) (q : Nat) : (s.disableQueue q).mem = s.mem := by
  simp [State.disableQueue]

@[simp] theorem eventOk_agingEff {s : State} (q : Nat) (hs : Mem.wf s.mem = true) : EventOk (agingEff s q) := by
  simp [agingEff, hs]

@[simp] theorem State.wf_parkTasks {s : State} (l : Launch) (hs : Mem.wf s.mem = true) :
    Mem.wf (s.parkTasks l).mem = true := by
  unfold State.parkTasks
  exact State.wf_foldl (fun s x hs => by simp [hs]) _ (by simp [hs])

@[simp] theorem State.wf_preempt {s : State} (ctx g level : Nat) (hs : Mem.wf s.mem = true) :
    Mem.wf (s.preempt ctx g level).mem = true := by
  unfold State.preempt
  split <;> simp [hs]

@[simp] theorem State.eventOk_accept {s : State} (l : Launch) (hs : Mem.wf s.mem = true) : EventOk (s.accept l) := by
  unfold State.accept
  extract_lets g dead
  clear_value g dead
  split
  · simp [hs]
  · split
    rename_i v u got h
    have hu : Mem.wf u.mem = true := by
      split at h <;> exact State.wf_mid h (by simp [hs])
    split
    · split
      · simp
      · simp [hu]
    · simp [hu]
    · simp [hu]

@[simp] theorem eventOk_takeEff {s : State} (q : Nat) (hs : Mem.wf s.mem = true) : EventOk (takeEff s q) := by
  unfold takeEff
  split
  · simp [hs]
  · simp only []
    split
    · simp
    · split
      · simp
      · split
        · simp [hs]
        · rw [eventOk_some]
          exact State.wf_getD (State.eventOk_accept _ (by simp [hs])) (by simp [hs])

@[simp] theorem eventOk_abortEff {s : State} (id code : Nat) (hs : Mem.wf s.mem = true) : EventOk (abortEff s id code) := by
  unfold abortEff
  split <;> simp [hs]

@[simp] theorem State.wf_restartPhase {s : State} (l : Launch) (p : Nat) (hs : Mem.wf s.mem = true) :
    Mem.wf (s.restartPhase l p).mem = true := by
  unfold State.restartPhase
  refine State.wf_beginPhase _ _ _ ?_
  exact State.wf_foldl (fun s k hs => by simp [hs]) _ (by simp [hs])

@[simp] theorem State.wf_writeRing {s : State} (c : Context) (es : List (List Byte)) (hs : Mem.wf s.mem = true) :
    Mem.wf (s.writeRing c es).mem = true := by
  unfold State.writeRing
  simp only [State.msi_mem]
  exact State.wf_writeBytes _ _ _ (State.wf_foldl (fun s x hs => State.wf_writeBytes _ _ _ hs) _ hs)

@[simp] theorem eventOk_rollBackEff {s : State} (id : Nat) (hs : Mem.wf s.mem = true) : EventOk (rollBackEff s id) := by
  unfold rollBackEff
  simp only []
  repeat' split
  all_goals simp [hs]

@[simp] theorem eventOk_reRunEff {s : State} (id : Nat) (hs : Mem.wf s.mem = true) : EventOk (reRunEff s id) := by
  unfold reRunEff
  split <;> simp [hs]

/-! ### The yardmasters (Machine/Yardmaster) -/

@[simp] theorem eventOk_placeEff {s : State} (hs : Mem.wf s.mem = true) : EventOk (placeEff s) := by
  unfold placeEff
  simp only []
  repeat' split
  all_goals simp [hs]

@[simp] theorem State.popTrapq_mem (s : State) : s.popTrapq.2.mem = s.mem := by
  unfold State.popTrapq
  split <;> rfl

@[simp] theorem State.eventOk_forward {s : State} (r : List DWord) (hs : Mem.wf s.mem = true) : EventOk (s.forward r) := by
  unfold State.forward
  simp only []
  repeat' split
  all_goals simp [hs]

@[simp] theorem eventOk_trapqEff {s : State} (y : Nat) (hs : Mem.wf s.mem = true) : EventOk (trapqEff s y) := by
  simp [trapqEff, hs]

theorem State.wf_voidBlock {s t : State} {ctx level a : Nat} {c : Context} (h : s.voidBlock ctx level c = some (a, t))
    (hs : Mem.wf s.mem = true) : Mem.wf t.mem = true := by
  unfold State.voidBlock at h
  split at h
  · cases h; exact hs
  · simp only [] at h
    split at h
    · obtain ⟨u, hu, hx⟩ := Option.map_eq_some_iff.mp h
      cases hx
      exact State.eventOk_grantFrames _ _ hs _ hu
    · cases h

@[simp] theorem State.eventOk_resolveTile {s : State} (x : TaskId × List DWord) (hs : Mem.wf s.mem = true) :
    EventOk (s.resolveTile x) := by
  unfold State.resolveTile
  extract_lets w0 ctx p t again
  have hagain : ∀ u : State, Mem.wf u.mem = true → Mem.wf (again u).mem = true := fun u hu => by
    unfold again
    split
    · simp [hu]
    · exact hu
  have ht : Mem.wf t.mem = true := hs
  clear_value again t
  split
  · simpa using ht
  · split
    · simp [hagain, ht]
    · split
      · simp [hagain, ht]
      · split
        · simp
        case h_2 h => exact (State.eventOk_grantFrames _ _ (State.wf_voidBlock h ht)).map hagain

@[simp] theorem eventOk_tileFaultEff {s : State} (hs : Mem.wf s.mem = true) : EventOk (tileFaultEff s) := by
  simp [tileFaultEff, hs]

@[simp] theorem State.beat_mem (s : State) (p : Nat) : (s.beat p).mem = s.mem := by
  simp [State.beat]

@[simp] theorem State.writeYardCsr_mem (s : State) (p n : Nat) (v : DWord) : (s.writeYardCsr p n v).mem = s.mem := by
  unfold State.writeYardCsr
  split <;> simp

@[simp] theorem actOk_csrFlags (op : CsrOp) (v : DWord) : ActOk (csrFlags op v) := by
  unfold csrFlags
  split
  · simp
  · exact actOk_forM _ fun i => by simp
  · exact actOk_forM _ fun i => by simp

@[simp] theorem actOk_readCsr (n : Nat) : ActOk (readCsr n) :=
  fun s h => by simp [readCsr, h]

@[simp] theorem outcomeOk_changeCsr (i : Instr) (w : BitVec 2) (d a : BitVec 5) (csr : BitVec 12) (op : CsrOp) {s : State}
    (hs : Mem.wf s.mem = true) : OutcomeOk (changeCsr i w d a csr op s) := by
  refine outcomeOk_run _ _ (actOk_bind (by simp) fun v => ?_) hs
  refine actOk_bind (by simp) fun old => actOk_get_bind fun s hs => ?_
  split
  · exact resultOk_bind (by simp [hs]) (by simp)
  · split
    · exact resultOk_bind (actOk_csrFlags _ _ s hs) (by simp)
    · split
      · refine resultOk_bind (actOk_defer _ _ s hs) fun _ => actOk_get_bind fun s hs => ?_
        exact resultOk_bind (by simp [hs]) (by simp)
      · exact actOk_writeS _ _ s hs

@[simp] theorem eventOk_interruptEff {s : State} (y : Nat) (hs : Mem.wf s.mem = true) : EventOk (interruptEff s y) := by
  unfold interruptEff
  simp only []
  split
  · simp
  · split
    · simp [State.yardTrap_mem, hs]
    · split
      · simp
      · simp [State.yardTrap_mem, hs]

/-! ### The root of trust (Machine/Plovelm) -/

@[simp] theorem State.wf_resetYard {s : State} (p : Nat) (hs : Mem.wf s.mem = true) :
    Mem.wf (s.resetYard p).mem = true := by
  simp [State.resetYard, hs]

@[simp] theorem State.wf_startYard {s : State} (p : Nat) (b : Bool) (s1 : DWord) (missed : Option Bool)
    (hs : Mem.wf s.mem = true) : Mem.wf (s.startYard p b s1 missed).mem = true := by
  simp [State.startYard, hs]

@[simp] theorem eventOk_verifyEff {s : State} (hs : Mem.wf s.mem = true) : EventOk (verifyEff s) := by
  simp [verifyEff, hs]

@[simp] theorem eventOk_extendEff {s : State} (hs : Mem.wf s.mem = true) : EventOk (extendEff s) := by
  unfold extendEff
  rw [eventOk_map]
  intro r _
  simp only []
  split <;> exact hs

@[simp] theorem State.wf_rtsDone {s : State} (r : RtsReq) (n : Nat) (hs : Mem.wf s.mem = true) :
    Mem.wf (s.rtsDone r n).mem = true := by
  simp [State.rtsDone, hs]

@[simp] theorem eventOk_switchEff {s : State} (hs : Mem.wf s.mem = true) : EventOk (switchEff s) := by
  unfold switchEff
  rw [eventOk_map]
  intro r _
  extract_lets v b refuse p x v' u
  have hrefuse : ∀ n, (refuse n).mem = s.mem := fun n => rfl
  have hu : Mem.wf u.mem = true := by simp [u, hs]
  clear_value refuse u
  split
  · simp [hrefuse, hs]
  · split
    · simp [hrefuse, hs]
    · split
      · simp [hrefuse, hs]
      · exact State.wf_startYard _ _ _ _ hu

@[simp] theorem eventOk_rtsCompleteEff {s : State} (hs : Mem.wf s.mem = true) : EventOk (rtsCompleteEff s) := by
  unfold rtsCompleteEff
  repeat' split
  all_goals simp [hs]

@[simp] theorem eventOk_heartbeatLimitEff {s : State} (y : Nat) (hs : Mem.wf s.mem = true) :
    EventOk (heartbeatLimitEff s y) := by
  unfold heartbeatLimitEff
  simp only []
  repeat' split
  all_goals simp [hs]

@[simp] theorem State.wf_powerUp {s : State} (hs : Mem.wf s.mem = true) : Mem.wf s.powerUp.mem = true := by
  simp [State.powerUp, hs]

@[simp] theorem State.wf_bootPackage {s : State} (hs : Mem.wf s.mem = true) : Mem.wf s.bootPackage.mem = true := by
  unfold State.bootPackage
  simp only []
  repeat' split
  all_goals simp [hs]

@[simp] theorem eventOk_spdmEff {s : State} (index : Nat) (nonce : BitVec 256) (hs : Mem.wf s.mem = true) :
    EventOk (spdmEff s index nonce) := by
  simp [spdmEff, hs]

/-! ### Invalidation and migration (Machine/Pages) -/

@[simp] theorem State.logPush_mem (s : State) (v : DWord) (rqk rqi : Nat) : (s.logPush v rqk rqi).mem = s.mem := by
  simp [State.logPush]

@[simp] theorem State.tlbPush_mem (s : State) (v : DWord) (rqk rqi : Nat) : (s.tlbPush v rqk rqi).mem = s.mem := by
  unfold State.tlbPush
  split <;> simp

@[simp] theorem eventOk_invEff {s : State} (v : DWord) (kind : Nat) (hs : Mem.wf s.mem = true) :
    EventOk (invEff s v kind) := by
  simp [invEff, hs]

@[simp] theorem eventOk_invDoneEff {s : State} (hs : Mem.wf s.mem = true) : EventOk (invDoneEff s) := by
  unfold invDoneEff
  split <;> simp [hs]

@[simp] theorem State.wf_setMst {s : State} (pa v : Nat) (hs : Mem.wf s.mem = true) :
    Mem.wf (s.setMst pa v).mem = true := by
  simp [State.setMst, hs]

@[simp] theorem State.wf_migrate {s : State} (v : DWord) (hs : Mem.wf s.mem = true) : Mem.wf (s.migrate v).mem = true := by
  simp [State.migrate, hs]

@[simp] theorem eventOk_copyDoneEff {s : State} (hs : Mem.wf s.mem = true) : EventOk (copyDoneEff s) := by
  simp [copyDoneEff, hs]

@[simp] theorem eventOk_flipGranuleEff {s : State} (hs : Mem.wf s.mem = true) : EventOk (flipGranuleEff s) := by
  simp [flipGranuleEff, hs]

@[simp] theorem eventOk_abandonEff {s : State} (hs : Mem.wf s.mem = true) : EventOk (abandonEff s) := by
  simp [abandonEff, hs]

/-! ### Links and peers (Machine/Links) -/

@[simp] theorem State.portState_mem (s : State) (p : PortId) (x : LinkState) : (s.portState p x).mem = s.mem := by
  unfold State.portState
  split <;> rfl

@[simp] theorem State.failRequests_mem (s : State) (k : Nat) : (s.failRequests k).mem = s.mem := by rfl

@[simp] theorem State.linkTrap_mem (s : State) : s.linkTrap.mem = s.mem := by rfl

@[simp] theorem State.enableLink_mem (s : State) (k : Nat) : (s.enableLink k).mem = s.mem := by
  simp [State.enableLink]

@[simp] theorem State.retrainLink_mem (s : State) (k : Nat) : (s.retrainLink k).mem = s.mem := by
  simp [State.retrainLink]

@[simp] theorem State.disableLink_mem (s : State) (k : Nat) : (s.disableLink k).mem = s.mem := by
  simp [State.disableLink]

@[simp] theorem eventOk_trainedEff {s : State} (k : Nat) (lanes : BitVec 8) (gen : BitVec 2) (peer : BitVec 16)
    (plink : BitVec 8) (hs : Mem.wf s.mem = true) : EventOk (trainedEff s k lanes gen peer plink) := by
  simp [trainedEff, hs]

@[simp] theorem eventOk_trainTimeoutEff {s : State} (k : Nat) (hs : Mem.wf s.mem = true) :
    EventOk (trainTimeoutEff s k) := by
  simp [trainTimeoutEff, hs]

@[simp] theorem eventOk_retrainTimeoutEff {s : State} (k : Nat) (hs : Mem.wf s.mem = true) :
    EventOk (retrainTimeoutEff s k) := by
  simp [retrainTimeoutEff, hs]

@[simp] theorem eventOk_burstEff {s : State} (k : Nat) (hs : Mem.wf s.mem = true) : EventOk (burstEff s k) := by
  simp [burstEff, hs]

@[simp] theorem eventOk_lockLossEff {s : State} (k : Nat) (hs : Mem.wf s.mem = true) : EventOk (lockLossEff s k) := by
  simp [lockLossEff, hs]

@[simp] theorem State.takeUnit_mem (s : State) (k : Nat) (u : List DWord) : (s.takeUnit k u).mem = s.mem := by
  unfold State.takeUnit
  simp only []
  split <;> simp

@[simp] theorem eventOk_flitEff {s : State} (k : Nat) (wire : Line) (hs : Mem.wf s.mem = true) :
    EventOk (flitEff s k wire) := by
  unfold flitEff
  extract_lets l f l1 l2 old
  clear_value f l1 l2 old
  split
  · simp
  · split
    · simp [hs]
    · split
      · simp [hs]
      · split
        · simp [hs]
        · split
          extract_lets l3
          rw [eventOk_some]
          exact State.wf_foldl (fun s u hs => by simp [hs]) _ (by simp [hs])

@[simp] theorem eventOk_nakEff {s : State} (k : Nat) (ack : BitVec 12) (hs : Mem.wf s.mem = true) :
    EventOk (nakEff s k ack) := by
  simp [nakEff, hs]

@[simp] theorem State.reply_mem (s : State) (k op : Nat) (tag : BitVec 14) (ws : List DWord) :
    (s.reply k op tag ws).mem = s.mem := by
  simp [State.reply]

@[simp] theorem State.refusePeer_mem (s : State) (k : Nat) (rq : PeerRequest) (cause : Cause) (rsn : Nat) :
    (s.refusePeer k rq cause rsn).mem = s.mem := by
  simp [State.refusePeer]

@[simp] theorem State.wf_writeEach {s : State} (pa : Nat) (bs : List Byte) (hs : Mem.wf s.mem = true) :
    Mem.wf (s.writeEach pa bs).mem = true := by
  unfold State.writeEach
  exact State.wf_foldl (fun s x hs => by simp [hs]) _ (by simp [hs])

@[simp] theorem State.unserve_mem (s : State) (o : PortOwner) : (s.unserve o).mem = s.mem := by rfl

/-- What a peer's or an outside access answers while it waits for a near store's port is canonical. -/
theorem State.eventOk_guestTurn {s : State} {pa lines : Nat} {o : PortOwner} {x : Option State}
    (h : s.guestTurn o pa lines = some x) (hs : Mem.wf s.mem = true) : EventOk x := by
  unfold State.guestTurn at h
  split at h
  · split at h
    · cases h
    · split at h <;> cases h
      · exact eventOk_none
      · simpa using hs
  · cases h

@[simp] theorem eventOk_peerEff {s : State} (k : Nat) (rq : PeerRequest) (hs : Mem.wf s.mem = true) :
    EventOk (peerEff s k rq) := by
  unfold peerEff
  extract_lets pa n store places l s0 u poison v kind w data go
  have hu : Mem.wf u.mem = true := by simpa [u] using hs
  have hgo : ∀ t : State, Mem.wf t.mem = true → Mem.wf (go t).mem = true := fun t ht =>
    State.wf_foldl (fun s j hs => by simp [hs]) _ ht
  have h0 : Mem.wf s0.mem = true := hs
  clear_value go w data kind v poison u s0 places
  split
  · simp
  · split
    · simp [hu]
    · split
      · simp
      · simp [hu]
      · split
        case h_1 h => exact State.eventOk_guestTurn h h0
        · split
          · split <;> simp [hu]
          · simp [hu]
          · split
            · simp [hu]
            · exact (State.eventOk_applyReduce _ _ _ _ hgo hu).map fun t ht => by simp [ht]

@[simp] theorem eventOk_receiveEff {s : State} (k : Nat) (rq : PeerRequest) (hs : Mem.wf s.mem = true) :
    EventOk (receiveEff s k rq) := by
  simp [receiveEff, hs]

/-! ### The mailbox (Machine/Mailbox) -/

@[simp] theorem State.mailPush_mem (s : State) (v : DWord) (rqk rqi : Nat) : (s.mailPush v rqk rqi).mem = s.mem := by
  simp [State.mailPush]

theorem eventOk_mailEff {s : State} (op : Nat) {act : State → BitVec 512 → Option State}
    (hact : ∀ t r, Mem.wf t.mem = true → EventOk (act t r)) (hs : Mem.wf s.mem = true) : EventOk (mailEff s op act) := by
  unfold mailEff
  extract_lets pa t
  have ht : Mem.wf t.mem = true := hs
  clear_value t
  split
  · simp
  · split
    · simp [ht]
    · extract_lets put
      have hput : ∀ u n, Mem.wf u.mem = true → Mem.wf (put u n).mem = true := fun u n hu => by simp [put, hu]
      clear_value put
      split
      · simp [hput, ht]
      · split
        case h_1 h => simpa using hput _ _ (hact _ _ ht _ h)
        case h_2 => simp [hput, ht]

@[simp] theorem State.markTable_mem (s : State) (pa n : Nat) : (s.markTable pa n).mem = s.mem := by
  unfold State.markTable
  exact State.foldl_mem (fun s x => by simp) _ _

@[simp] theorem State.markTables_mem (s : State) (c : Context) : (s.markTables c).mem = s.mem := by
  simp [State.markTables, State.foldl_mem]

@[simp] theorem eventOk_createCtx {s : State} (r : BitVec 512) (hs : Mem.wf s.mem = true) : EventOk (createCtx s r) := by
  simp [createCtx, hs]

@[simp] theorem State.wf_dropCtx {s : State} (id : Nat) (hs : Mem.wf s.mem = true) : Mem.wf (s.dropCtx id).mem = true := by
  unfold State.dropCtx
  exact State.wf_foldl (fun s x hs => by simp [hs]) _ (by simp [hs])

@[simp] theorem State.wf_destroy {s : State} (id : Nat) (c : Context) (hs : Mem.wf s.mem = true) :
    Mem.wf (s.destroy id c).mem = true := by
  unfold State.destroy
  extract_lets a close b d e f
  have hd : Mem.wf d.mem = true := by
    refine State.wf_foldl (fun s l hs => ?_) _ (by simpa [a, b] using hs)
    split
    · split <;> simp [hs]
    · exact hs
  have he : Mem.wf e.mem = true := by simp [e, hd]
  have hf : Mem.wf f.mem = true := by unfold f; split <;> simp [he]
  exact hf

@[simp] theorem eventOk_tableErrorEff {s : State} (hs : Mem.wf s.mem = true) : EventOk (tableErrorEff s) := by
  unfold tableErrorEff
  simp only []
  repeat' split
  all_goals simp [hs]

@[simp] theorem eventOk_destroyCtx {s : State} (r : BitVec 512) (hs : Mem.wf s.mem = true) : EventOk (destroyCtx s r) := by
  simp [destroyCtx, hs]

@[simp] theorem State.wf_clearEntries {s : State} (c : Context) (hs : Mem.wf s.mem = true) :
    Mem.wf (s.clearEntries c).mem = true := by
  unfold State.clearEntries
  extract_lets ls mine
  clear_value mine
  exact Mem.wf_foldl_write _ hs

@[simp] theorem State.freeFrames_mem (s : State) (id : Nat) : (s.freeFrames id).mem = s.mem := by rfl

@[simp] theorem eventOk_destroyedEff {s : State} (id : Nat) (hs : Mem.wf s.mem = true) : EventOk (destroyedEff s id) := by
  unfold destroyedEff
  split
  · simp
  · extract_lets busy a b d
    have ha : Mem.wf a.mem = true := State.wf_foldl (fun s x hs => by simp [hs]) _ hs
    have hd : Mem.wf d.mem = true := by
      simp [d, State.wf_clearEntries (s := b) _ ha]
    clear_value d
    split
    · simp
    · simpa using hd

@[simp] theorem eventOk_bindGroup {s : State} (r : BitVec 512) (hs : Mem.wf s.mem = true) : EventOk (bindGroup s r) := by
  unfold bindGroup
  repeat' split
  all_goals simp [hs]

@[simp] theorem eventOk_rebindGroup {s : State} (r : BitVec 512) (hs : Mem.wf s.mem = true) :
    EventOk (rebindGroup s r) := by
  unfold rebindGroup
  repeat' split
  all_goals simp [hs]

@[simp] theorem eventOk_resumeGroup {s : State} (r : BitVec 512) (hs : Mem.wf s.mem = true) :
    EventOk (resumeGroup s r) := by
  unfold resumeGroup
  repeat' split
  all_goals simp [hs]

@[simp] theorem eventOk_releaseGroup {s : State} (r : BitVec 512) (hs : Mem.wf s.mem = true) :
    EventOk (releaseGroup s r) := by
  unfold releaseGroup
  split <;> simp [hs]

@[simp] theorem eventOk_assignQueue {s : State} (r : BitVec 512) (hs : Mem.wf s.mem = true) :
    EventOk (assignQueue s r) := by
  simp [assignQueue, hs]

@[simp] theorem eventOk_replyTo {s : State} (r : BitVec 512) (hs : Mem.wf s.mem = true) : EventOk (replyTo s r) := by
  unfold replyTo
  simp only []
  repeat' split
  all_goals simp [hs]

/-! ### The control region and what comes from outside (Machine/Platform) -/

@[simp] theorem State.writeLq_mem (s : State) (q : Nat) (v : DWord) : (s.writeLq q v).mem = s.mem := by
  unfold State.writeLq
  split <;> simp

@[simp] theorem State.writeVl_mem (s : State) (k : Nat) (v : DWord) : (s.writeVl k v).mem = s.mem := by
  unfold State.writeVl
  split <;> simp

@[simp] theorem State.writeWindow_mem (s : State) (j w : Nat) (v : DWord) : (s.writeWindow j w v).mem = s.mem := by rfl

@[simp] theorem State.writeElog_mem (s : State) (u w : Nat) (v : DWord) : (s.writeElog u w v).mem = s.mem := by
  unfold State.writeElog
  split <;> rfl

@[simp] theorem State.writePower_mem (s : State) (v : DWord) : (s.writePower v).mem = s.mem := by rfl

@[simp] theorem State.servicePush_mem (s : State) (n : Nat) (v : DWord) (rqk rqi : Nat) :
    (s.servicePush n v rqk rqi).mem = s.mem := by
  unfold State.servicePush
  split <;> simp

@[simp] theorem State.rtsPush_mem (s : State) (v : DWord) (rqk rqi : Nat) : (s.rtsPush v rqk rqi).mem = s.mem := by
  unfold State.rtsPush
  split <;> simp

@[simp] theorem State.wf_writeReg {s : State} (r : CtlReg) (v : DWord) (rqk rqi : Nat) (hs : Mem.wf s.mem = true) :
    Mem.wf (s.writeReg r v rqk rqi).mem = true := by
  unfold State.writeReg
  split <;> simp [hs]

@[simp] theorem State.wf_registerWrite {s : State} (addr : Nat) (v : DWord) (rqk rqi size : Nat)
    (hs : Mem.wf s.mem = true) : Mem.wf (s.registerWrite addr v rqk rqi size).mem = true := by
  unfold State.registerWrite
  split <;> simp [hs]

@[simp] theorem State.wf_ioShare {s : State} (pcie : Bool) (die ea : Nat) (hs : Mem.wf s.mem = true) :
    Mem.wf (s.ioShare pcie die ea).mem = true := by
  unfold State.ioShare
  simp only []
  split <;> simp [hs]

@[simp] theorem State.wf_ioReach {s : State} (pcie : Bool) (rq : Access) (addr : DWord) (hs : Mem.wf s.mem = true) :
    Mem.wf (s.ioReach pcie rq addr).2.mem = true := by
  unfold State.ioReach
  simp only []
  repeat' split
  all_goals simp [hs]

@[simp] theorem State.ioDone_mem (s : State) (x : IoReq) (data : Option (List Byte)) :
    (s.ioDone x data).mem = s.mem := by rfl

@[simp] theorem State.ioKeep_mem (s : State) (x : IoReq) (bs : List Byte) : (s.ioKeep x bs).mem = s.mem := by rfl

/-- Memory stays canonical in every end of one line's part of an outside access. -/
def IoPartOk : IoPart → Prop
  | .done s _ => Mem.wf s.mem = true
  | .refused s => Mem.wf s.mem = true
  | .wait o => EventOk o

@[simp] theorem ioPartOk_done (s : State) (bs : List Byte) : IoPartOk (.done s bs) ↔ Mem.wf s.mem = true := Iff.rfl

@[simp] theorem ioPartOk_refused (s : State) : IoPartOk (.refused s) ↔ Mem.wf s.mem = true := Iff.rfl

@[simp] theorem ioPartOk_wait (o : Option State) : IoPartOk (.wait o) ↔ EventOk o := Iff.rfl

@[simp] theorem State.ioPartOk_ioRefuse {s : State} (x : IoReq) (c : Cause) (log : Option LogRec)
    (hs : Mem.wf s.mem = true) : IoPartOk (s.ioRefuse x c log) := by
  simp [State.ioRefuse, hs]

@[simp] theorem State.ioPartOk_ioControl {s : State} (x : IoReq) (pa n : Nat) (data : List Byte) (addr : DWord)
    (hs : Mem.wf s.mem = true) : IoPartOk (s.ioControl x pa n data addr) := by
  unfold State.ioControl
  extract_lets no
  split
  · simp [no, hs]
  · split <;> simp [no, hs]
  · simp [no, hs]

@[simp] theorem State.ioPartOk_ioMemory {s : State} (x : IoReq) (pa : Nat) (kind : BitVec 2) (n : Nat) (data : List Byte)
    (addr : DWord) (hs : Mem.wf s.mem = true) : IoPartOk (s.ioMemory x pa kind n data addr) := by
  unfold State.ioMemory
  extract_lets at_ hart free put old
  have hput : ∀ (t : State) bs, Mem.wf t.mem = true → Mem.wf (put t bs).mem = true := fun t bs ht => by
    refine State.wf_writeBytes _ _ _ ?_
    split <;> simp [ht]
  clear_value put old free
  split
  · simp [hs]
  · split
    · simp [hs]
    · simp [hput, hs]
    · simp [hput, hs]
    · split <;> simp [hs]
    · split
      · simp [hs]
      · split <;> simp [hput, hs]
    · simp [hs]

@[simp] theorem State.ioPartOk_ioPart {s : State} (x : IoReq) (k : Nat) (addr : DWord) (n : Nat) (data : List Byte)
    (hs : Mem.wf s.mem = true) : IoPartOk (s.ioPart x k addr n data) := by
  unfold State.ioPart
  split
  rename_i r t h
  have ht : Mem.wf t.mem = true := State.wf_snd h (by simp [hs])
  split
  · simp
  · simp [ht]
  · split
    · extract_lets own
      split
      · simp [ht]
      · simp [ht]
      · split
        · simp
        · split <;> simp [ht]
    · split
      · split
        · split <;> simp [ht]
        · simp [ht]
      · split
        case h_1 h => exact State.eventOk_guestTurn h ht
        · simp [ht]

@[simp] theorem State.eventOk_ioStep {s : State} (x : IoReq) (hs : Mem.wf s.mem = true) : EventOk (s.ioStep x) := by
  unfold State.ioStep
  extract_lets rq n first bs second
  have hsecond : ∀ (t : State) a, Mem.wf t.mem = true → EventOk (second t a) := fun t a ht => by
    unfold second
    have hp := State.ioPartOk_ioPart x 1 (rq.addr + BitVec.ofNat 64 first) (n - first) (bs.drop first) ht
    split
    · simp [ht]
    · split
      case h_1 h => rw [h] at hp; simpa using hp
      case h_2 h => rw [h] at hp; simpa using hp
      case h_3 h => rw [h] at hp; simpa using hp
      case h_4 h => split <;> simp [ht]
  have hp := State.ioPartOk_ioPart x 0 rq.addr first (bs.take first) hs
  clear_value second
  split
  · simp
  · split
    · rw [eventOk_some]
      split <;> simp [hs]
    · exact hsecond _ _ hs
    · split
      case h_1 h => rw [h] at hp; exact hsecond _ _ hp
      case h_2 h => rw [h] at hp; simpa using hp
      case h_3 h => rw [h] at hp; exact hp

@[simp] theorem State.wf_ioArrive {s : State} (pcie : Bool) (rq : Access) (hs : Mem.wf s.mem = true) :
    Mem.wf (s.ioArrive pcie rq).mem = true := by
  simp [State.ioArrive, hs]

@[simp] theorem State.softError_mem (s : State) (x : Stored) (fatal : Bool) : (s.softError x fatal).mem = s.mem := by
  unfold State.softError
  repeat' split
  all_goals simp

@[simp] theorem State.wf_containGroup {s : State} (x : Nat × Nat × Group) (hs : Mem.wf s.mem = true) :
    Mem.wf (s.containGroup x).mem = true := by
  unfold State.containGroup
  split
  extract_lets ls all first u v w
  have hu : Mem.wf u.mem = true := hs
  clear_value first u
  have hv : Mem.wf v.mem = true := by unfold v; split <;> simp [hu]
  have hw : Mem.wf w.mem = true := State.wf_foldl (fun s k hs => by simp [hs]) _ hv
  exact State.wf_foldl (fun s k hs => by simp [hs]) _ hw

@[simp] theorem eventOk_shedLostEff {s : State} (shed : Nat) (hs : Mem.wf s.mem = true) : EventOk (shedLostEff s shed) := by
  unfold shedLostEff
  extract_lets b u
  have hu : Mem.wf u.mem = true := hs
  clear_value u
  split
  · simp
  · split
    · rw [eventOk_some]
      exact State.wf_foldl (fun s x hs => State.wf_containGroup x hs) _ hu
    · split
      · simp [hs]
      · simp

@[simp] theorem eventOk_dvfsEff {s : State} (pnow : BitVec 16) (mv : BitVec 12) (hs : Mem.wf s.mem = true) :
    EventOk (dvfsEff s pnow mv) := by
  simp [dvfsEff, hs]

@[simp] theorem State.act_mem (s : State) (x0 : OutsideAct) : (s.act x0).mem = s.mem := by
  unfold State.act
  split <;> rfl

/-! ### Replies and stores (Machine/Resolve) -/

@[simp] theorem State.loadFails_mem (s : State) (p : Nat) (l : LinLoad) (k : Cause) : (s.loadFails p l k).mem = s.mem := by
  simp [State.loadFails]

@[simp] theorem State.eventOk_loadStep {s : State} (p : Nat) (l : LinLoad) (hs : Mem.wf s.mem = true) :
    EventOk (s.loadStep p l) := by
  unfold State.loadStep
  simp only []
  repeat' split
  all_goals simp [hs]

@[simp] theorem eventOk_loadReplyEff {s : State} (p : Nat) (hs : Mem.wf s.mem = true) : EventOk (loadReplyEff s p) := by
  simp [loadReplyEff, hs]

@[simp] theorem State.storeDone_mem (s : State) (p : Nat) (x : LinStore) : (s.storeDone p x).mem = s.mem := by rfl

@[simp] theorem State.storeFails_mem (s : State) (p : Nat) (x : LinStore) (k : Cause) :
    (s.storeFails p x k).mem = s.mem := by
  simp [State.storeFails]

@[simp] theorem State.storeSent_mem (s : State) (p : Nat) (x : LinStore) : (s.storeSent p x).mem = s.mem := by rfl

@[simp] theorem State.eventOk_storeStep {s : State} (p : Nat) (x : LinStore) (hs : Mem.wf s.mem = true) :
    EventOk (s.storeStep p x) := by
  unfold State.storeStep
  extract_lets c own
  split
  · simp
  · split
    · split <;> simp [hs]
    · split
      · simp [hs]
      · simp [hs]
      · simp [hs]
      · split
        · simp
        · split <;> simp [hs]
    · split
      · simp
      · simp [hs]
      · split
        case h_1 h => exact State.eventOk_nearTurn h hs
        case h_2 => simp [hs]

@[simp] theorem eventOk_storeEff {s : State} (p : Nat) (hs : Mem.wf s.mem = true) : EventOk (storeEff s p) := by
  simp [storeEff, hs]

/-! ### The sequencers (Machine/Sequence) -/

@[simp] theorem actOk_lineBytesAt (p pa : Nat) (va : DWord) : ActOk (lineBytesAt p pa va) := by
  unfold lineBytesAt
  refine actOk_get_bind fun s hs => ?_
  extract_lets read own none_
  have hread : ResultOk (read () s) := by
    have hr : Mem.wf (s.icacheRead p pa).2.mem = true := by simp [hs]
    unfold read
    revert hr
    cases s.icacheRead p pa with
    | mk v t => exact fun hr => resultOk_bind ((resultOk_set _ _).mpr hr) (by simp)
  clear_value read own
  cases s.peer? pa with
  | none =>
    dsimp only
    split
    · exact resultOk_error _
    · exact hread
  | some e =>
    cases s.peerState own with
    | done bs => exact resultOk_bind ((resultOk_set _ _).mpr (by simp [hs])) (by simp)
    | failed k => exact resultOk_error _
    | wait =>
      dsimp only
      split
      · exact resultOk_bind ((resultOk_set _ _).mpr (by simp [hs])) (by simp [none_])
      · exact actOk_pure _ s hs

@[simp] theorem actOk_fetchLine (p : Nat) (st : Stream) : ActOk (fetchLine p st) := by
  unfold fetchLine
  extract_lets go
  have hgo : ∀ u, ActOk (go u) := fun u => by
    refine actOk_bind (by simp) fun s => actOk_bind (by simp) fun t => actOk_bind (by simp) fun v => ?_
    split
    · simp
    · exact actOk_bind (by simp) fun s => actOk_bind (by simp) fun _ => actOk_bind (actOk_modify fun _ => rfl) (by simp)
  clear_value go
  refine actOk_bind (by simp) fun s => ?_
  split
  · exact fun _ _ => resultOk_error _
  · exact hgo _

@[simp] theorem eventOk_fetchEff {s : State} (p : Nat) (st : Stream) (hs : Mem.wf s.mem = true) :
    EventOk (fetchEff s p st) := by
  unfold fetchEff
  extract_lets x u
  have hu : Mem.wf u.mem = true := hs
  clear_value u
  split
  · simp
  · have hr := actOk_fetchLine p st u hu
    split
    case h_1 h => simpa using hr _ _ h
    case h_2 h => simpa using hr _ _ h
    · simp [hu]
    · simp [hu]

@[simp] theorem State.toOwnLane_mem (s : State) (p : Nat) (st : Stream) : (s.toOwnLane p st).mem = s.mem := by
  unfold State.toOwnLane
  simp only []
  repeat' split
  all_goals simp

@[simp] theorem eventOk_loopEndEff {s : State} (p : Nat) (st : Stream) (hs : Mem.wf s.mem = true) :
    EventOk (loopEndEff s p st) := by
  simp [loopEndEff, hs]

@[simp] theorem State.leaveLine_mem (s : State) (p : Nat) (st : Stream) : (s.leaveLine p st).mem = s.mem := by
  simp [State.leaveLine, State.foldl_mem]

@[simp] theorem State.wf_softTrapsAt {s : State} (p : Nat) (next : Stream → Option DWord) (hs : Mem.wf s.mem = true) :
    Mem.wf (s.softTrapsAt p next).mem = true := by
  unfold State.softTrapsAt
  refine State.wf_foldl (fun s st hs => ?_) _ hs
  extract_lets c
  split <;> simp [hs]

@[simp] theorem State.wf_softTraps {s : State} (p : Nat) (hs : Mem.wf s.mem = true) :
    Mem.wf (s.softTraps p).mem = true := by
  unfold State.softTraps
  exact State.wf_softTrapsAt _ _ hs

@[simp] theorem eventOk_passEff {s : State} (p : Nat) (st : Stream) (hs : Mem.wf s.mem = true) :
    EventOk (passEff s p st) := by
  unfold passEff
  simp only []
  split <;> simp [hs]

@[simp] theorem eventOk_heldEff {s : State} (p : Nat) (hs : Mem.wf s.mem = true) : EventOk (heldEff s p) := by
  unfold heldEff
  simp only []
  split <;> simp [hs]

@[simp] theorem eventOk_joinEff {s : State} (p : Nat) (hs : Mem.wf s.mem = true) : EventOk (joinEff s p) := by
  unfold joinEff
  simp only []
  split <;> simp [hs]

@[simp] theorem eventOk_freezeDogEff {s : State} (p : Nat) (hs : Mem.wf s.mem = true) : EventOk (freezeDogEff s p) := by
  unfold freezeDogEff
  simp only []
  split <;> simp [hs]

@[simp] theorem eventOk_waitDogEff {s : State} (p : Nat) (st : Stream) (hs : Mem.wf s.mem = true) :
    EventOk (waitDogEff s p st) := by
  unfold waitDogEff
  split <;> simp [hs]

end Sys2Proof.Machine
end

section
/-! PROOFS. The dispatcher keeps memory canonical (O59). First the instructions whose meaning branches, or puts a state in place of the one
that it has read; then every arm. -/

namespace Sys2Proof.Machine

@[simp] theorem outcomeOk_execBarArvGroup (w : BitVec 2) (a : BitVec 5) {s : State} (hs : Mem.wf s.mem = true) :
    OutcomeOk (execBarArvGroup w a s) := by
  refine outcomeOk_run _ _ ?_ hs
  iterate 4 refine actOk_bind (by simp) fun _ => ?_
  exact actOk_modify fun _ => rfl

@[simp] theorem outcomeOk_execBarWaitGroup (w : BitVec 2) (a : BitVec 5) (ph : BitVec 1) {s : State}
    (hs : Mem.wf s.mem = true) : OutcomeOk (execBarWaitGroup w a ph s) := by
  refine outcomeOk_run _ _ ?_ hs
  iterate 3 refine actOk_bind (by simp) fun _ => ?_
  simp only []
  split
  · split
    · simp
    · split <;> simp
  · simp

@[simp] theorem outcomeOk_execBfxcfg (w : BitVec 2) (x : BitVec 2) (a : BitVec 5) (imm : BitVec 13) {s : State}
    (hs : Mem.wf s.mem = true) : OutcomeOk (execBfxcfg w x a imm s) := by
  refine outcomeOk_run _ _ ?_ hs
  refine actOk_bind (by simp) fun base => ?_
  extract_lets va first
  refine actOk_bind (by simp) fun t => actOk_bind (by simp) fun due => ?_
  split
  · refine actOk_bind (by simp) fun t2 => actOk_bind (by simp) fun due2 => ?_
    simp
  · simp

@[simp] theorem outcomeOk_execBind (w : BitVec 2) (q : BitVec 4) (l : BitVec 6) {s : State} (hs : Mem.wf s.mem = true) :
    OutcomeOk (execBind w q l s) := by
  refine outcomeOk_run _ _ ?_ hs
  iterate 3 refine actOk_bind (by simp) fun _ => ?_
  split
  · iterate 3 refine actOk_bind (by simp) fun _ => ?_
    simp
  · simp

@[simp] theorem outcomeOk_execDrain (w : BitVec 2) (t : BitVec 6) (c : BitVec 4) (dt : BitVec 5) (sk qc : BitVec 1)
    (lbl row0 nrow : BitVec 6) (rnd : BitVec 2) (ovf wrap : BitVec 1) {s : State} (hs : Mem.wf s.mem = true) :
    OutcomeOk (execDrain w t c dt sk qc lbl row0 nrow rnd ovf wrap s) := by
  refine outcomeOk_run _ _ (actOk_bind (by simp) fun _ => actOk_keeping _ ?_) hs
  iterate 4 refine actOk_bind (by simp) fun _ => ?_
  simp

@[simp] theorem outcomeOk_execDrainQ (w : BitVec 2) (t : BitVec 6) (c qf : BitVec 4) (kind gs qc : BitVec 1)
    (lbl row0 nrow : BitVec 6) (rnd : BitVec 2) (ovf : BitVec 1) (st : BitVec 6) (sc : BitVec 4) {s : State}
    (hs : Mem.wf s.mem = true) : OutcomeOk (execDrainQ w t c qf kind gs qc lbl row0 nrow rnd ovf st sc s) := by
  refine outcomeOk_run _ _ (actOk_bind (by simp) fun _ => actOk_keeping _ ?_) hs
  extract_lets f asym n g width
  refine actOk_bind (by simp) fun b => actOk_bind (by simp) fun bs => ?_
  extract_lets store scale
  have hstore : ∀ bz, ActOk (store bz) := fun bz => by
    refine actOk_bind (by simp) fun _ => actOk_bind (by simp) fun v => actOk_bind (by simp) fun vs => ?_
    simp
  have hscale : ∀ u, ActOk (scale u) := fun u => by
    unfold scale
    split <;> simp [hstore]
  clear_value scale
  split <;> simp [hscale]

@[simp] theorem outcomeOk_execFreeze (w : BitVec 2) (d a : BitVec 5) {s : State} (hs : Mem.wf s.mem = true) :
    OutcomeOk (execFreeze w d a s) := by
  refine outcomeOk_run _ _ (actOk_bind (by simp) fun p => actOk_get_bind fun s hs => ?_) hs
  dsimp only
  split
  · exact resultOk_error _
  · exact resultOk_bind (by simp [hs]) (by simp)

@[simp] theorem outcomeOk_execGather (w : BitVec 2) (n : BitVec 6) (rb : BitVec 3) (t : BitVec 6) (c : BitVec 4)
    (t2 : BitVec 6) (c2 : BitVec 4) (waitt sigt : BitVec 3) (cnt : BitVec 4) (inc : BitVec 8) {s : State}
    (hs : Mem.wf s.mem = true) : OutcomeOk (execGather w n rb t c t2 c2 waitt sigt cnt inc s) := by
  refine outcomeOk_run _ _ ?_ hs
  simp only []
  iterate 9 refine actOk_bind (by simp) fun _ => ?_
  simp

@[simp] theorem outcomeOk_execIld (w : BitVec 2) (t : BitVec 6) (c : BitVec 4) (n : BitVec 6) {s : State}
    (hs : Mem.wf s.mem = true) : OutcomeOk (execIld w t c n s) := by
  refine outcomeOk_run _ _ (actOk_bind (by simp) fun ⟨b, v, _, off, _⟩ => ?_) hs
  iterate 3 refine actOk_bind (by simp) fun _ => ?_
  simp

@[simp] theorem outcomeOk_execLaunch (w : BitVec 2) (d a b : BitVec 5) {s : State} (hs : Mem.wf s.mem = true) :
    OutcomeOk (execLaunch w d a b s) := by
  refine outcomeOk_run _ _ ?_ hs
  iterate 4 refine actOk_bind (by simp) fun _ => ?_
  refine actOk_get_bind fun s hs => ?_
  dsimp only
  refine ResultOk.bind fun _ u _ => ?_
  refine resultOk_bind ((resultOk_set _ _).mpr ?_) (by simp)
  rw [State.push_mem]
  exact hs

@[simp] theorem outcomeOk_execLi64 (w : BitVec 2) (d : BitVec 5) (imm : BitVec 32) {s : State} (hs : Mem.wf s.mem = true) :
    OutcomeOk (execLi64 w d imm s) := by
  refine outcomeOk_run _ _ ?_ hs
  iterate 4 refine actOk_bind (by simp) fun _ => ?_
  refine actOk_get_bind fun s hs => ?_
  dsimp only
  split
  · exact resultOk_error _
  · exact resultOk_bind ((resultOk_set _ _).mpr (by simp [hs])) (by simp)

@[simp] theorem outcomeOk_execLoop (w : BitVec 2) (level : BitVec 3) (cr : BitVec 1) (creg : BitVec 5)
    (count endl : BitVec 16) {s : State} (hs : Mem.wf s.mem = true) :
    OutcomeOk (execLoop w level cr creg count endl s) := by
  refine outcomeOk_run _ _ ?_ hs
  extract_lets go
  have hgo : ∀ n, ActOk (go n) := fun n => actOk_bind (by simp) fun line => actOk_bind (by simp) (by simp)
  clear_value go
  split <;> simp [hgo]

@[simp] theorem outcomeOk_execMlds (w : BitVec 2) (t : BitVec 6) (c : BitVec 4) (kind : BitVec 2) (m : BitVec 7)
    {s : State} (hs : Mem.wf s.mem = true) : OutcomeOk (execMlds w t c kind m s) := by
  refine outcomeOk_run _ _ (actOk_bind (by simp) fun ⟨b, v, _, _, _⟩ => ?_) hs
  simp

@[simp] theorem outcomeOk_execMldw (w : BitVec 2) (t : BitVec 6) (c : BitVec 4) (spa : BitVec 1) (m : BitVec 7)
    {s : State} (hs : Mem.wf s.mem = true) : OutcomeOk (execMldw w t c spa m s) := by
  refine outcomeOk_run _ _ (actOk_bind (by simp) fun ⟨b, v, _, _, _⟩ => ?_) hs
  simp

@[simp] theorem outcomeOk_execMspill (w : BitVec 2) (l : BitVec 6) {s : State} (hs : Mem.wf s.mem = true) :
    OutcomeOk (execMspill w l s) := by
  refine outcomeOk_run _ _ (actOk_bind (by simp) fun _ => actOk_bind (by simp) fun c => ?_) hs
  simp only []
  split
  · simp
  · refine actOk_bind (by simp) fun _ => ?_
    split <;> simp

@[simp] theorem outcomeOk_execScatter (w : BitVec 2) (q : BitVec 4) (n : BitVec 6) (rb : BitVec 3) (t : BitVec 6)
    (c : BitVec 4) (t2 : BitVec 6) (c2 : BitVec 4) (waitt sigt : BitVec 3) (cnt : BitVec 4) (inc : BitVec 8)
    (qc qc2 : BitVec 1) {s : State} (hs : Mem.wf s.mem = true) :
    OutcomeOk (execScatter w q n rb t c t2 c2 waitt sigt cnt inc qc qc2 s) := by
  refine outcomeOk_run _ _ (actOk_bind (by simp) fun _ => actOk_bind (by simp) fun _ => actOk_keeping _ ?_) hs
  simp only []
  iterate 9 refine actOk_bind (by simp) fun _ => ?_
  simp

@[simp] theorem outcomeOk_execSnapr (w : BitVec 2) (d a b : BitVec 5) {s : State} (hs : Mem.wf s.mem = true) :
    OutcomeOk (execSnapr w d a b s) := by
  refine outcomeOk_run _ _ (actOk_bind (by simp) fun ⟨p, i⟩ => actOk_get_bind fun s hs => ?_) hs
  have hr : Mem.wf (s.readSnap p i).2.mem = true := by simp [hs]
  revert hr
  cases s.readSnap p i with
  | mk v t => exact fun ht => resultOk_bind ((resultOk_set _ _).mpr ht) (by simp)

@[simp] theorem outcomeOk_execThaw (w : BitVec 2) (a : BitVec 5) {s : State} (hs : Mem.wf s.mem = true) :
    OutcomeOk (execThaw w a s) :=
  outcomeOk_run _ _ (actOk_bind (by simp) fun p => actOk_modify_wf fun s hs => State.wf_thawCore p hs) hs

@[simp] theorem outcomeOk_execTld (w : BitVec 2) (q : BitVec 4) (t : BitVec 6) (c : BitVec 4) (n : BitVec 1) {s : State}
    (hs : Mem.wf s.mem = true) : OutcomeOk (execTld w q t c n s) := by
  refine outcomeOk_run _ _ (actOk_bind (by simp) fun _ => actOk_bind (by simp) fun ⟨b, v, _, off, _⟩ => ?_) hs
  simp only []
  split
  · iterate 2 refine actOk_bind (by simp) fun _ => ?_
    simp
  · iterate 4 refine actOk_bind (by simp) fun _ => ?_
    split <;> simp

@[simp] theorem outcomeOk_execTldT (w : BitVec 2) (q : BitVec 4) (t : BitVec 6) (c : BitVec 4) {s : State}
    (hs : Mem.wf s.mem = true) : OutcomeOk (execTldT w q t c s) := by
  refine outcomeOk_run _ _ (actOk_bind (by simp) fun _ => actOk_bind (by simp) fun ⟨b, v, _, _, _⟩ => ?_) hs
  simp

@[simp] theorem outcomeOk_execTldb (w : BitVec 2) (q : BitVec 4) (t : BitVec 6) (c : BitVec 4) (x : BitVec 2) {s : State}
    (hs : Mem.wf s.mem = true) : OutcomeOk (execTldb w q t c x s) := by
  refine outcomeOk_run _ _ (actOk_bind (by simp) fun _ => actOk_bind (by simp) fun p =>
    actOk_bind (by simp) fun ⟨b, v, _, off, bitOff⟩ => ?_) hs
  iterate 3 refine actOk_bind (by simp) fun _ => ?_
  simp

@[simp] theorem outcomeOk_execTst (w : BitVec 2) (q : BitVec 4) (t : BitVec 6) (c : BitVec 4) (qc : BitVec 1) {s : State}
    (hs : Mem.wf s.mem = true) : OutcomeOk (execTst w q t c qc s) := by
  refine outcomeOk_run _ _ (actOk_bind (by simp) fun _ => actOk_keeping _ ?_) hs
  iterate 4 refine actOk_bind (by simp) fun _ => ?_
  refine actOk_bind (by simp) fun ⟨blk, off, _⟩ => ?_
  iterate 3 refine actOk_bind (by simp) fun _ => ?_
  simp

@[simp] theorem outcomeOk_execXfer (w : BitVec 2) (n : BitVec 7) (t : BitVec 6) (c : BitVec 4) (t2 : BitVec 6) (c2 : BitVec 4)
    (waitt sigt : BitVec 3) (cnt : BitVec 4) (inc : BitVec 8) {s : State} (hs : Mem.wf s.mem = true) :
    OutcomeOk (execXfer w n t c t2 c2 waitt sigt cnt inc s) := by
  refine outcomeOk_run _ _ ?_ hs
  simp only []
  iterate 7 refine actOk_bind (by simp) fun _ => ?_
  simp

/-- No instruction and no step of the device takes memory out of its canonical form: the arms of the dispatcher by the shape of
their meaning. -/
theorem outcomeOk_exec (i : Instr) {s : State} (hs : Mem.wf s.mem = true) : OutcomeOk (exec i s) := by
  cases i with
  | nop | li | fence | fenceI | pushfmt | qstat | csrr | rtt | wfi | halt | lstr | jmp | fset | fclr | fwait | cntset
    | cntwait | barInit | barArv | barWait | rdvset | hint | mhint | trap | aaddi | amov | ali | xchgP | xchgD | stash
    | restore | mflip | mstream | mstreamIdx | slotmapRead | vliK | pset | rwrAddF32 | rwrAddBf16 | rwrMaxF32
    | rwrAddI32 | jmpr | fork | qpush | qpop | bqz | bqnz | join | mark | aadd | aset | mldwT | slotfree | slotfreeAll
    | vpop | vpopK | vmovK | vcvt | vcmp | vred | vscan =>
    unfold exec
    refine outcomeOk_run _ _ ?_ hs
    simp
  | add | sub | mul | mulh | mulhu | div | divu | rem | remu | and_ | or_ | xor_ | andn | shl | shr | sar | rol | min_
    | max_ | minu | maxu | slt | sltu | seq | bext =>
    unfold exec
    exact outcomeOk_alu _ _ _ _ _ _ _ hs
  | clz | ctz | popc | addi | andi | ori | xori | shli | shri | sari | slti | sltiu =>
    unfold exec
    exact outcomeOk_aluImm _ _ _ _ _ hs
  | li64 | launch | freeze | thaw | snapr | loop | barArvGroup | barWaitGroup | tld | tldT | tldb | ild | bfxcfg
    | mldw | mlds | gather | xfer | bind | mspill | drain | drainQ | tst | scatter =>
    unfold exec
    simp [hs]
  | ldB | ldBu | ldH | ldHu | ldW | ldWu | ldD =>
    unfold exec
    exact outcomeOk_linearLoad _ _ _ _ _ _ _ hs
  | stB | stH | stW | stD =>
    unfold exec
    exact outcomeOk_linearStore _ _ _ _ _ _ hs
  | amoAdd | amoAnd | amoOr | amoXor | amoMin | amoMax | amoSwp | amoCas | amoAddd | amoNull =>
    unfold exec
    exact outcomeOk_atomic _ _ _ _ _ _ _ _ _ hs
  | beq | bne | blt | bge | bltu | bgeu =>
    unfold exec
    exact outcomeOk_branch _ _ _ _ _ _ hs
  | cont | snapw | tksig | tkwait | tend | mzero | slotcfg | slotcfgFault | slotmapMap | vpush | vpushOq0 | vbcast
    | vbcastLane | vq | vsel | vthr | vtopk =>
    unfold exec
    refine outcomeOk_run _ _ ?_ hs
    repeat' refine actOk_bind ?_ fun _ => ?_
    all_goals simp
  | csrw | csrs | csrc =>
    unfold exec
    exact outcomeOk_changeCsr _ _ _ _ _ _ hs
  | rdvwait =>
    unfold exec
    refine outcomeOk_run _ _ (actOk_bind (by simp) fun v => ?_) hs
    split <;> simp
  | vmov | vli | vperm =>
    unfold exec
    exact outcomeOk_laneWise _ _ _ _ _ _ _ _ _ _ hs
  | vadd | vsub | vmul | vmin | vmax =>
    unfold exec
    exact outcomeOk_float2 _ _ _ _ _ _ _ _ _ hs
  | vfma | vfms | vnfma =>
    unfold exec
    exact outcomeOk_float3 _ _ _ _ _ _ _ _ _ hs
  | vabs | vneg | vrcp | vrsq | vexp2 | vlog2 =>
    unfold exec
    exact outcomeOk_float1 _ _ _ _ _ _ _ _ _ hs
  | vand | vor | vxor | vshl | vshr | vsar | viadd | visub | vimul | vimin | vimax =>
    unfold exec
    exact outcomeOk_int2 _ _ _ _ _ _ _ _ _ _ hs
  | pand | por | pxor | pnot =>
    unfold exec
    exact outcomeOk_predicate2 _ _ _ _ _ _ hs
  | instructionLineFetch | linePassOver | heldLaneResume | loopLineEnd | joinComplete | scalarResultReady
    | vectorResultReady | loadReply | amoResultReturn | roundClose | tldLineArrival | planeLineArrival
    | bfxcfgRecordLoaded | tileLookupComplete | pageWalkComplete | deferredReleaseEffect | groupBarrierUpdate
    | groupBarrierPollReply | markerRetire | rendezvousFire | engineCommandDispatch | engineCommandCompletion
    | gatherExecute | scatterExecute | xferExecute | stashEncode | restoreDecode | reduceRequestApply | xchgPStart
    | xchgDStart | exchangeLineSwap | exchangeCommit | exchangeRollbackStart | rollbackLineSwap | rollbackComplete
    | rollbackLinkLost | idleScrubWrite | matrixRowEntry | rampUpEnd | slotRowAdd | mflipEffect | mzeroEffect
    | slotSpill | bindStart | bindRowWrite | arrayCold | hintTargetReached | claimComplete | drainRowRead
    | drainDelivery | writeBufferLineWrite | remoteLineWrite | freezeWatchdogExpiry | waitWatchdogExpiry
    | scheduleSlip | taskStart | taskCommit | launchTake | launchAgingTick | trapRecordPlace | trapqPop
    | yardmasterTrapEntry | heartbeat | heartbeatLimitExpiry | snapshotStore | snapshotLoad | snapshotEvict
    | snapshotClear | serviceXchgP | serviceXchgD | grant | tlbinvAll | tlbinvAsid | tlbinvPage | tlbInvalidationDone
    | migrationCopyComplete | migrationFlip | migrationAbandon | rtsVerify | rtsExtend | rtsSwitch
    | rtsRequestComplete | contextDestructionComplete | linkTrained | linkTrainingTimeout | linkRetrainTimeout
    | errorBurst | laneLockLoss | flitReceive | nakReceive | peerRequestReceive | shedLost | spdmRequest
    | applicationCoreAccess | storeResolved | walkerResume | serialisedReRun | phaseRollBack | launchAbort | dvfs =>
    unfold exec
    refine outcomeOk_event ?_ hs
    simp [hs]
  | launchQueuePush | launchQueueOpen | launchQueueQuiesce | launchQueueDisable | granuleMigrationStart | vylumEnable
    | vylumRetrain | vylumDisable | portLinkStateChange | pcieMemoryRequest | packageReset | registerWrite | softError =>
    unfold exec
    refine (outcomeOk_next _).mpr ?_
    simp [hs]
  | contextCreate | contextDestroy | groupBind | groupRebind | groupResume | groupRelease | launchQueueAssign
    | trapReply =>
    unfold exec
    exact outcomeOk_event (eventOk_mailEff _ (fun t r ht => by simp [ht]) hs) hs

end Sys2Proof.Machine
end

section
/-! PROOFS. A step of the package keeps memory canonical (O59): the issue of the streams, the events of a cycle, and its end. -/

namespace Sys2Proof.Machine

@[simp] theorem State.stall_mem (s : State) (p : Nat) (st : Stream) (w : Wait) : (s.stall p st w).mem = s.mem := rfl

@[simp] theorem State.wf_endLine (p : Nat) (st : Stream) {s : State} (hs : Mem.wf s.mem = true) :
    Mem.wf (endLine p st s).mem = true := by
  unfold endLine
  extract_lets c src x c' u
  have hu : Mem.wf u.mem = true := hs
  clear_value u
  split
  · simp [hu]
  · split
    · exact State.wf_softTraps p (State.wf_getD (by simp [hu]) hu)
    · exact hu

/-- A step that follows another keeps memory canonical if each does. -/
theorem outcomeOk_andThen {o : Host.Outcome State Fault Refusal} {f : State → Host.Outcome State Fault Refusal}
    (ho : OutcomeOk o) (hf : ∀ s, Mem.wf s.mem = true → OutcomeOk (f s)) : OutcomeOk (andThen o f) := by
  cases o with
  | next s => exact hf s (ho s rfl)
  | fault r => exact outcomeOk_fault r
  | refused r => exact outcomeOk_refused r

/-- Memory stays canonical in every end of a joined line. -/
def LineRunOk : LineRun → Prop
  | .done s => Mem.wf s.mem = true
  | .held s _ _ => Mem.wf s.mem = true
  | .soft s _ => Mem.wf s.mem = true
  | .waits .. => True
  | .traps s .. => Mem.wf s.mem = true
  | .stops o => OutcomeOk o

theorem lineRunOk_runLanes (v : ILine) (ks : List Nat) {s : State} (hs : Mem.wf s.mem = true) :
    LineRunOk (runLanes exec v ks s) := by
  induction ks generalizing s with
  | nil => exact hs
  | cons k ks ih =>
    unfold runLanes
    split
    · exact ih hs
    · rename_i st _
      split
      · exact hs
      · split
        · rename_i i _
          have hx := outcomeOk_exec i (s := { s with stream := st, laneNo := k }) hs
          split
          case h_1 t ht =>
            split
            · exact hs
            · trivial
            · exact hs
            · exact ih (hx t ht)
          case h_2 => exact hx
        · exact ih hs

@[simp] theorem State.wf_beginLine (v : ILine) (ks : List Nat) (s0 : State) {s : State} (l : Option Lookup)
    (hs : Mem.wf s.mem = true) : Mem.wf (State.beginLine exec v ks s0 s l).mem = true := by
  unfold State.beginLine
  split
  · exact State.wf_foldl (fun s x hs => by simp [hs]) _ hs
  · simp [hs]

@[simp] theorem outcomeOk_issueLine (p : Nat) (v : ILine) {s : State} (hs : Mem.wf s.mem = true) :
    OutcomeOk (issueLine exec p v s) := by
  unfold issueLine
  extract_lets s1 c src s2 ks first wait part pops
  have h1 : Mem.wf s1.mem = true := hs
  have h2 : Mem.wf s2.mem = true := hs
  have hwait : ∀ st k w l, OutcomeOk (wait st k w l) := fun st k w l => by
    unfold wait
    rw [outcomeOk_next, State.stall_mem]
    exact State.wf_beginLine _ _ _ _ h2
  have hpart : ∀ t k u, Mem.wf u.mem = true → OutcomeOk (part t k u) := fun t k u hu => by
    unfold part
    split
    · exact hwait _ _ _ _
    · exact (outcomeOk_next u).mpr hu
  clear_value wait part
  split
  · exact (outcomeOk_next _).mpr (by simp [h1])
  · have hr := lineRunOk_runLanes v ks h2
    split
    case h_1 h => rw [h] at hr; exact (outcomeOk_next _).mpr (State.wf_endLine _ _ hr)
    case h_2 h => rw [h] at hr; exact hpart _ _ _ hr
    case h_3 h => rw [h] at hr; exact hpart _ _ _ (State.wf_softTrapsAt _ _ hr)
    case h_4 h => exact hwait _ _ _ _
    case h_5 h => 
      rw [h] at hr
      refine (outcomeOk_next _).mpr ?_
      have ht : Mem.wf _ = true := hr
      split <;> simp [ht, h2]
    case h_6 h => rw [h] at hr; exact hr

@[simp] theorem outcomeOk_issueJoined (p : Nat) {s : State} (hs : Mem.wf s.mem = true) :
    OutcomeOk (issueJoined exec p s) := by
  unfold issueJoined
  extract_lets c t
  have ht : Mem.wf t.mem = true := State.wf_getD (by simp [hs]) hs
  clear_value t
  split
  · simp [hs]
  · split
    · simp [hs]
    · split
      · split
        · simp [hs]
        · simp [hs]
      · split
        · simp [hs]
        · split <;> simp [ht]

@[simp] theorem outcomeOk_issueLane (p : Nat) (st : Stream) (v : ILine) (k : Nat) (rest : List Nat) {s : State}
    (hs : Mem.wf s.mem = true) : OutcomeOk (issueLane exec p st v k rest s) := by
  unfold issueLane
  extract_lets s1 c src s2
  have h2 : Mem.wf s2.mem = true := hs
  clear_value s2
  split
  · simp [h2]
  · refine outcomeOk_andThen (outcomeOk_exec _ h2) fun t ht => ?_
    split
    · simp [ht]
    · simp [ht]
    · extract_lets d d'
      split <;> simp [ht]
  · simp [h2]

@[simp] theorem outcomeOk_issueOwn (p : Nat) (st : Stream) (v : ILine) {s : State} (hs : Mem.wf s.mem = true) :
    OutcomeOk (issueOwn exec p st v s) := by
  unfold issueOwn
  split
  · simp [hs]
  · extract_lets t
    have ht : Mem.wf t.mem = true := State.wf_getD (by simp [hs]) hs
    simp [ht]

@[simp] theorem outcomeOk_issueForked (p : Nat) (st : Stream) {s : State} (hs : Mem.wf s.mem = true) :
    OutcomeOk (issueForked exec p st s) := by
  unfold issueForked
  extract_lets c x t
  have ht : Mem.wf t.mem = true := State.wf_getD (by simp [hs]) hs
  clear_value t
  split
  · simp [hs]
  · split
    · simp [hs]
    · split
      · simp [hs]
      · split <;> simp [ht]

@[simp] theorem outcomeOk_issue (p : Nat) (st : Stream) {s : State} (hs : Mem.wf s.mem = true) :
    OutcomeOk (issue exec p st s) := by
  unfold issue
  extract_lets u
  have hu : Mem.wf u.mem = true := hs
  split
  · exact outcomeOk_issueForked p st hu
  · exact outcomeOk_issueJoined p hu

@[simp] theorem State.servedPort3_mem (s : State) (r : PortReq) : (s.servedPort3 r).mem = s.mem := by
  unfold State.servedPort3
  split <;> rfl

@[simp] theorem eventOk_port3Eff {s : State} (p : Nat) (hs : Mem.wf s.mem = true) : EventOk (port3Eff s p) := by
  unfold port3Eff
  extract_lets c
  split
  · simp
  · refine (eventOk_bind _ _).mpr fun k _ => ?_
    extract_lets next
    split
    · simp [hs]
    · refine (eventOk_map _ _).mpr fun r _ => ?_
      split <;> simp [hs]

@[simp] theorem State.eventOk_arrivals {s : State} (p : Nat) (hs : Mem.wf s.mem = true) : EventOk (s.arrivals p) := by
  simp [State.arrivals, hs]

@[simp] theorem State.eventOk_actDue {s : State} (hs : Mem.wf s.mem = true) : EventOk s.actDue := by
  unfold State.actDue
  split
  · split
    · simp [hs]
    · simp
  · simp

@[simp] theorem State.eventOk_nextStart {s : State} (hs : Mem.wf s.mem = true) : EventOk s.nextStart := by
  simp [State.nextStart, hs]

@[simp] theorem State.eventOk_coreEvents {s : State} (p : Nat) (hs : Mem.wf s.mem = true) : EventOk (s.coreEvents p) := by
  simp [State.coreEvents, hs]

@[simp] theorem State.eventOk_syncEvents {s : State} (p : Nat) (hs : Mem.wf s.mem = true) : EventOk (s.syncEvents p) := by
  simp [State.syncEvents, hs]

@[simp] theorem State.eventOk_coreEnds {s : State} (p : Nat) (hs : Mem.wf s.mem = true) : EventOk (s.coreEnds p) := by
  simp [State.coreEnds, hs]

@[simp] theorem State.eventOk_engineEvents {s : State} (hs : Mem.wf s.mem = true) : EventOk s.engineEvents := by
  simp [State.engineEvents, hs]

@[simp] theorem State.eventOk_shunterEvents {s : State} (hs : Mem.wf s.mem = true) : EventOk s.shunterEvents := by
  simp [State.shunterEvents, hs]

@[simp] theorem eventOk_pushEff {s : State} (p : Nat) (hs : Mem.wf s.mem = true) : EventOk (pushEff s p) :=
  eventOk_findSome _ fun x => State.eventOk_storeStep p x hs

@[simp] theorem State.eventOk_guestReads {s : State} (hs : Mem.wf s.mem = true) : EventOk s.guestReads := by
  refine (eventOk_orElse _ _).mpr ⟨?_, fun _ => eventOk_firstOf _ fun k => ?_⟩
  · simp [hs]
  · split
    · split <;> simp [hs]
    · simp

@[simp] theorem State.eventOk_packageEvents {s : State} (hs : Mem.wf s.mem = true) : EventOk s.packageEvents := by
  have hmail {act : State → BitVec 512 → Option State} (n : Nat)
      (hact : ∀ {t : State} r, Mem.wf t.mem = true → EventOk (act t r)) : EventOk (mailEff s n act) :=
    eventOk_mailEff n (fun _ r ht => hact r ht) hs
  simp [State.packageEvents, hs, hmail 1 eventOk_createCtx, hmail 2 eventOk_destroyCtx, hmail 3 eventOk_bindGroup,
    hmail 4 eventOk_rebindGroup, hmail 5 eventOk_resumeGroup, hmail 6 eventOk_releaseGroup, hmail 7 eventOk_assignQueue,
    hmail 8 eventOk_replyTo]

@[simp] theorem State.eventOk_nextEvent {s : State} (hs : Mem.wf s.mem = true) : EventOk s.nextEvent := by
  simp [State.nextEvent, hs]

@[simp] theorem State.tick_mem (s : State) : s.tick.mem = s.mem :=
  State.foldl_mem (fun s p => State.freezeCore_mem s p) _ _

theorem State.input_mem {s t : State} {i : Instr} (h : s.input = some (i, t)) : t.mem = s.mem := by
  unfold State.input at h
  split at h
  · split at h
    · cases h; rfl
    · cases h
  · cases h

theorem outcomeOk_step {s : State} (hs : Mem.wf s.mem = true) : OutcomeOk (step s) := by
  unfold step stepWith
  split
  · split
    case h_1 h =>
      have ht : Mem.wf _ = true := (State.input_mem h).symm ▸ hs
      split
      · exact outcomeOk_exec _ ht
      · exact (outcomeOk_next _).mpr ht
    case h_2 =>
      split
      case h_1 h => exact (outcomeOk_next _).mpr (State.eventOk_nextStart hs _ h)
      case h_2 =>
        refine (outcomeOk_next _).mpr ?_
        exact State.wf_foldl (fun s x hs => by simp [hs]) _ hs
  · split
    · exact outcomeOk_issue _ _ hs
    · exact (outcomeOk_next _).mpr hs
  · split
    case h_1 h => exact (outcomeOk_next _).mpr (State.eventOk_nextEvent hs _ h)
    case h_2 => simp [hs]

/-- Settles O59: a step is an arm of the dispatcher, the issue of a stream's lanes, an event or the end of a cycle, and each of them
keeps memory canonical. -/
theorem memoryStaysCanonical : Obligations.MemoryStaysCanonical :=
  fun _ t hs ht => outcomeOk_step hs t ht

end Sys2Proof.Machine
end

section
/-! PROOFS. The fetch of a line (O17): a line that the instruction cache does not hold, what becomes of a fetch that waits, raises
or answers, and the checks of the line. -/

namespace Sys2Proof.Machine
open Claims

/-- A meaning that stops does not go on. -/
theorem Act.bind_error {α β : Type} {m : Act α} {f : α → Act β} {s : State} {e : Stop} (h : m s = .error e) :
    (m >>= f) s = .error e := by
  simp [bind, StateT.bind, Except.bind, h]

theorem Act.modify_eq (f : State → State) (s : State) : (modify f : Act PUnit) s = .ok (⟨⟩, f s) := rfl

theorem require_true {b : Bool} (h : b = true) (c : Cause) (v : DWord) (s : State) : require b c v s = .ok ((), s) := by
  rw [require, if_pos h]; rfl

theorem require_false {b : Bool} (h : b = false) (c : Cause) (v : DWord) (s : State) :
    require b c v s = .error (.trap c v [] none) := by
  rw [require, if_neg (by simp [h])]; rfl

/-! ### The line's bytes -/

/-- The state once the instruction cache of core `p` holds the line at `pa` too (R10, R60). -/
def State.cachedLine (s : State) (p pa : Nat) : State := (s.icacheRead p pa).2

/-- A line that the instruction cache does not hold is read from memory. -/
theorem State.icacheRead_of_miss {s : State} {p pa : Nat} (h : (s.cr p).lookups.icache.find? (·.1 = pa) = none) :
    s.icacheRead p pa = (BitVec.ofNat 256 (bytesVal (s.readBytes pa 32)), s.cachedLine p pa) := by
  simp only [State.cachedLine, State.icacheRead, h]

/-- A read through the instruction cache changes what the core's cache holds, and nothing else. -/
theorem State.cachedLine_eq_of_miss {s : State} {p pa : Nat} (h : (s.cr p).lookups.icache.find? (·.1 = pa) = none) :
    ∃ l, s.cachedLine p pa = s.setCr p { s.cr p with lookups := l } := by
  unfold State.cachedLine State.icacheRead
  simp only [h]
  exact ⟨_, rfl⟩

/-- A line of the package's own memory that is not poisoned comes at once. -/
theorem lineBytesAt_of_miss {s : State} {p pa : Nat} (va : DWord) (hpeer : s.peer? pa = none) (hclean : s.poisoned pa = false)
    (hmiss : (s.cr p).lookups.icache.find? (·.1 = pa) = none) :
    lineBytesAt p pa va s = .ok (some (BitVec.ofNat 256 (bytesVal (s.readBytes pa 32))), s.cachedLine p pa) := by
  unfold lineBytesAt
  rw [Act.get_bind]
  simp only [hpeer, hclean, Bool.false_eq_true, if_false, State.icacheRead_of_miss hmiss]
  rfl

/-! ### The fetch -/

/-- A fetch waits for the stores that a FENCE.I makes visible (R125). -/
theorem fetchLine_of_held {s : State} {p : Nat} (st : Stream) (h : (s.cr p).fetchHeld = true) :
    fetchLine p st s = .error (.wait .memory none) := by
  unfold fetchLine
  rw [Act.get_bind, if_pos h]
  rfl

/-- The line stands in the sequencer of stream `st` of core `p`. -/
def State.fetched (s : State) (p : Nat) (st : Stream) (v : ILine) : State :=
  s.setCr p ((s.cr p).setSt st { (s.cr p).st st with buf := some v })

/-- A line in the sequencer changes nothing else of its core, and nothing of memory. -/
theorem State.fetched_spec (s : State) (p : Nat) (st : Stream) (v : ILine) :
    (((s.fetched p st v).cr p).st st).buf = some v ∧ ((s.fetched p st v).cr p).regs = (s.cr p).regs ∧
      (((s.fetched p st v).cr p).st st).line = ((s.cr p).st st).line ∧ (s.fetched p st v).mem = s.mem ∧
      OtherCores s (s.fetched p st v) p := by
  refine ⟨?_, ?_, ?_, rfl, fun q hq => State.cr_setCr_ne _ hq _⟩ <;> simp [State.fetched]

/-- A line that has come is checked, and then stands in the sequencer (R60, R61, R83). -/
theorem fetchLine_of_bytes {s s1 s2 : State} {p : Nat} {st : Stream} {g : Target} {v : ILine}
    (hheld : (s.cr p).fetchHeld = false) (hres : resolve .fetch ((s.cr p).st st).line 32 s = .ok (g, s1))
    (hbytes : lineBytesAt p g.pa ((s.cr p).st st).line s1 = .ok (some v, s2)) :
    fetchLine p st s = if lineLegal (isYard p) (s2.cr p).forked v = true then .ok (true, s2.fetched p st v)
      else .error (.trap .illegalLine 0 [] none) := by
  unfold fetchLine
  rw [Act.get_bind, if_neg (by simp [hheld])]
  dsimp only
  rw [Act.get_bind, Act.bind_ok hres, Act.bind_ok hbytes]
  dsimp only
  rw [Act.get_bind]
  split
  · rename_i hv
    rw [Act.bind_ok (require_true hv _ _ _), Act.bind_ok (Act.modify_eq _ _)]
    rfl
  · rename_i hv
    exact Act.bind_error (require_false (by simpa using hv) _ _ _)

/-! ### The step -/

section
variable {s t : State} {p : Nat} {st : Stream}
  (hruns : s.runs p st = true) (hempty : ((s.cr p).st st).buf = none) (hlane : ((s.cr p).st st).lane ≠ 8)
include hruns hempty hlane

/-- The stream may fetch. -/
theorem fetch_guard : (!s.runs p st || ((s.cr p).st st).buf.isSome || decide (((s.cr p).st st).lane = 8)) = false := by
  simp [hruns, hempty, hlane]

theorem fetches (h : fetchLine p st { s with core := p, stream := st, laneNo := 0 } = .ok (true, t)) :
    Happens (.instructionLineFetch p st) s { t with lane := .done } := by
  refine event_some ?_
  unfold fetchEff
  simp only [fetch_guard hruns hempty hlane, h, Bool.false_eq_true, if_false]

theorem fetch_waits {w : Wait} (h : fetchLine p st { s with core := p, stream := st, laneNo := 0 } = .error (.wait w none)) :
    Happens (.instructionLineFetch p st) s { s with core := p, stream := st, laneNo := 0, lane := .waiting w none } := by
  refine event_some ?_
  unfold fetchEff
  simp only [fetch_guard hruns hempty hlane, h, Bool.false_eq_true, if_false, State.begin]

theorem fetch_raises {c : Cause} {v : DWord} {k : List (Nat × Option Nat)} {l : Option LogRec}
    (h : fetchLine p st { s with core := p, stream := st, laneNo := 0 } = .error (.trap c v k l)) :
    Happens (.instructionLineFetch p st) s (State.laneTrap { s with core := p, stream := st, laneNo := 0 } c v k l) := by
  refine event_some ?_
  unfold fetchEff
  simp only [fetch_guard hruns hempty hlane, h, Bool.false_eq_true, if_false]
end

/-- Settles O17: a fetch waits for the stores before a FENCE.I; otherwise the line comes through the instruction cache, and its check
says whether it stands in the sequencer or ILLEGAL_LINE is taken. -/
theorem lineFetch : Obligations.LineFetch := by
  intro s s1 p st g hruns hempty hlane s0
  refine ⟨fun hheld => fetch_waits hruns hempty hlane (fetchLine_of_held st hheld), ?_⟩
  intro hheld hres hpeer hclean hmiss v
  obtain ⟨l, hl⟩ := State.cachedLine_eq_of_miss hmiss
  have hcr : (s1.cachedLine p g.pa).cr p = { s1.cr p with lookups := l } := by rw [hl, State.cr_setCr_same]
  have hfetch := fetchLine_of_bytes (s := s0) hheld hres (lineBytesAt_of_miss _ hpeer hclean hmiss)
  rw [hcr] at hfetch
  refine ⟨fun hlegal => ?_, fun hlegal => fetch_raises hruns hempty hlane (hfetch.trans (if_neg (by simpa using hlegal)))⟩
  refine ⟨_, fetches hruns hempty hlane (hfetch.trans (if_pos hlegal)), ?_⟩
  obtain ⟨hbuf, hregs, hline, hmem, hothers⟩ := State.fetched_spec (s1.cachedLine p g.pa) p st v
  rw [hcr] at hregs hline
  refine ⟨hbuf, hregs, hline, hmem.trans (by rw [hl]; rfl), fun q hq => (hothers q hq).trans ?_⟩
  rw [hl, State.cr_setCr_ne _ hq]

end Sys2Proof.Machine
end

section
/-! PROOFS. What the lookups and requests of a load change (O33): the acting core's lookups and ports, free choices, and requests
that wait for a port 3; and what a tile cache that holds an entry answers. -/

namespace Sys2Proof.Machine
open Claims

/-! ### What an access leaves of the state -/

theorem vector_getD_setIfInBounds {α : Type} {n : Nat} (xs : Vector α n) (i j : Nat) (x d : α) :
    (xs.setIfInBounds i x).getD j d = if i = j ∧ i < n then x else xs.getD j d := by
  simp only [Vector.getD, Array.getD_eq_getD_getElem?, Vector.toArray_setIfInBounds, Array.getElem?_setIfInBounds, Vector.size_toArray]
  by_cases hj : i = j
  · subst hj
    by_cases hi : i < n <;> simp [hi]
  · simp [hj]

/-- A port's tile cache. -/
def State.tiles (s : State) (port : Nat) : List (Nat × BitVec 128) := s.me.lookups.tiles.getD port []

/-- All but cores and the free choices is as before, and a tile cache of at most 256 entries (R10) finds what it found. -/
structure Keeps (s t : State) : Prop where
  rest : ∃ cs m, t = { s with cores := cs, choices := m }
  tiles : ∀ port, (s.tiles port).length ≤ 256 →
    (t.tiles port).length ≤ 256 ∧ ∀ ea, (t.tiles port).find? (·.1 = ea) = (s.tiles port).find? (·.1 = ea)

theorem Keeps.refl (s : State) : Keeps s s := ⟨⟨_, _, rfl⟩, fun _ h => ⟨h, fun _ => rfl⟩⟩

theorem Keeps.trans {s t u : State} (h : Keeps s t) (k : Keeps t u) : Keeps s u where
  rest := by
    obtain ⟨_, _, rfl⟩ := h.rest
    obtain ⟨_, _, rfl⟩ := k.rest
    exact ⟨_, _, rfl⟩
  tiles port hs := by
    obtain ⟨ht, hfind⟩ := h.tiles port hs
    obtain ⟨hu, hfind'⟩ := k.tiles port ht
    exact ⟨hu, fun ea => (hfind' ea).trans (hfind ea)⟩

/-- States that differ in cores and free choices, with the same tile caches. -/
theorem Keeps.of_tiles {s t : State} (hrest : ∃ cs m, t = { s with cores := cs, choices := m })
    (htiles : t.me.lookups.tiles = s.me.lookups.tiles) : Keeps s t :=
  ⟨hrest, fun port hs => by rw [State.tiles, htiles]; exact ⟨hs, fun _ => rfl⟩⟩

theorem Keeps.core {s t : State} (h : Keeps s t) : t.core = s.core := by
  obtain ⟨_, _, rfl⟩ := h.rest
  rfl

theorem Keeps.mem {s t : State} (h : Keeps s t) : t.mem = s.mem := by
  obtain ⟨_, _, rfl⟩ := h.rest
  rfl

/-- Lookups and requests of the acting core: `n` requests more have been asked of A's ports. -/
structure Asks (s t : State) (n : Nat) : Prop extends Keeps s t where
  me : ∃ l p h q, t.me = { s.me with lookups := l, ports := p, portHold := h, port3Q := q, aReqs := s.me.aReqs + n }

theorem Asks.refl (s : State) : Asks s s 0 := ⟨.refl s, _, _, _, _, rfl⟩

theorem Asks.trans {s t u : State} {m n : Nat} (h : Asks s t m) (k : Asks t u n) : Asks s u (m + n) := by
  refine ⟨h.toKeeps.trans k.toKeeps, ?_⟩
  obtain ⟨_, _, _, _, ht⟩ := h.me
  obtain ⟨l, p, g, q, hu⟩ := k.me
  exact ⟨l, p, g, q, by rw [hu, ht, Nat.add_assoc]⟩

theorem Asks.aReqs {s t : State} {n : Nat} (h : Asks s t n) : t.me.aReqs = s.me.aReqs + n := by
  obtain ⟨_, _, _, _, ht⟩ := h.me
  rw [ht]

/-! ### Requests -/

/-- A request that waits for its turn at a port 3, of the acting core or another. -/
theorem State.asks_askPort3 (s : State) (q cls : Nat) (o : PortOwner) (since lines lat : Nat) :
    Asks s (s.askPort3 q cls o since lines lat) 0 := by
  by_cases hq : s.core = q
  · subst hq
    have hme : (s.askPort3 s.core cls o since lines lat).me =
        { s.me with port3Q := s.me.port3Q ++ [⟨cls, o, since, lines, lat⟩] } := s.me_setMe _
    exact ⟨.of_tiles ⟨_, _, rfl⟩ (by rw [hme]), _, _, _, _, hme⟩
  · have hme : (s.askPort3 q cls o since lines lat).me = s.me := s.cr_setCr_ne hq _
    exact ⟨.of_tiles ⟨_, _, rfl⟩ (by rw [hme]), _, _, _, _, hme⟩

theorem State.asks_delay (s : State) : Asks s s.delay.2 0 := ⟨.of_tiles ⟨_, _, rfl⟩ rfl, _, _, _, _, rfl⟩

theorem State.asks_replyDue (s : State) (scalar : Bool) (p pa : Nat) : Asks s (s.replyDue scalar p pa).2 0 := by
  unfold State.replyDue
  split
  · exact .refl s
  · exact s.asks_delay

/-- The time of a load's return costs free choices and requests of port 3 (R19, R108). -/
theorem State.asks_loadDue (s : State) (scalar : Bool) (p pa : Nat) (o : PortOwner) (enter turns : Nat) :
    Asks s (s.loadDue scalar p pa o enter turns).2 0 := by
  unfold State.loadDue
  split
  · split
    · exact .refl s
    · split
      · exact s.asks_delay.trans (State.asks_askPort3 ..)
      · exact s.asks_askPort3 ..
  · exact s.asks_replyDue ..

/-- Steps that ask `f x` requests each. -/
theorem asks_foldl {α β : Type} {step : β → α → β} {state : β → State} {n : Nat} (c : Nat)
    (h : ∀ r x, (state r).core = c → Asks (state r) (state (step r x)) n) (xs : List α) (r : β) (hc : (state r).core = c) :
    Asks (state r) (state (xs.foldl step r)) (n * xs.length) := by
  induction xs generalizing r with
  | nil => exact .refl _
  | cons x xs ih =>
    have hx := h r x hc
    have := hx.trans (ih (step r x) (hx.core.trans hc))
    rwa [Nat.add_comm, ← Nat.mul_succ] at this

/-- A request of the acting core takes its port (R12, R159). -/
theorem State.asks_request (s : State) (id port : Nat) (parts : List (Nat × Nat)) :
    Asks s (s.request s.core id port false parts).2.2 1 := by
  unfold State.request
  extract_lets c enter own t
  have hme : t.me = c.takePort port enter own false := s.me_setMe _
  have ht : Asks s t 1 := ⟨.of_tiles ⟨_, _, rfl⟩ (by rw [hme]; rfl), _, _, _, _, hme⟩
  have hparts := asks_foldl (state := fun r : Nat × State => r.2) (n := 0) s.core
    (step := fun r x => (max r.1 (r.2.loadDue false s.core x.1 (.aload s.core id) enter x.2).1,
      (r.2.loadDue false s.core x.1 (.aload s.core id) enter x.2).2))
    (fun r x _ => r.2.asks_loadDue ..) parts (0, t) rfl
  rw [Nat.zero_mul] at hparts
  exact ht.trans hparts

/-- The requests of a load, one for each of its places. -/
theorem State.asks_requests (s : State) (id port : Nat) (l : Lay) (found : List (List ((Nat × Nat) × Nat))) :
    Asks s (s.requests s.core id port false l found).2.2 found.length := by
  have h := asks_foldl (state := fun r : List Nat × Nat × State => r.2.2) (n := 1) s.core
    (step := fun r x =>
      (if found.all (fun r => r.all fun x => inNear s.core x.2) then
          r.1 ++ [(r.2.2.request s.core id ((port + x.1) % 2) false (l.parts x.2)).1] else [],
        max r.2.1 (r.2.2.request s.core id ((port + x.1) % 2) false (l.parts x.2)).2.1,
        (r.2.2.request s.core id ((port + x.1) % 2) false (l.parts x.2)).2.2))
    (fun r x hc => hc ▸ r.2.2.asks_request ..) ((List.range found.length).zip found) ([], 0, s) rfl
  rw [List.length_zip, List.length_range, min_self, Nat.one_mul] at h
  exact h

/-- A line read of A's linear path always gets a time of return (R164). -/
theorem linearRequest_asks (pa : Nat) (s : State) : ∃ due t, linearRequest pa s = .ok (due, t) ∧ Asks s t 0 := by
  unfold linearRequest
  split
  · exact ⟨_, _, rfl, .refl s⟩
  · exact ⟨_, _, rfl, State.asks_loadDue ..⟩

theorem linearRequest_asks_of_ok {pa : Nat} {s t : State} {due : Nat} (h : linearRequest pa s = .ok (due, t)) : Asks s t 0 := by
  obtain ⟨_, _, h', hasks⟩ := linearRequest_asks pa s
  cases h'.symm.trans h
  exact hasks

/-! ### Lookups -/

/-- A use of an entry that a port holds makes it the most recent, and drops none (R10, R256). -/
theorem State.asks_useTile {s : State} {port ea : Nat} {r : Nat × BitVec 128}
    (h : (s.tiles port).find? (·.1 = ea) = some r) : Asks s (s.setMe (s.me.useTile port ea r.2)) 0 := by
  have hea : r.1 = ea := by simpa using List.find?_some h
  have hme : (s.setMe (s.me.useTile port ea r.2)).me = s.me.useTile port ea r.2 := s.me_setMe _
  refine ⟨⟨⟨_, _, rfl⟩, fun k hk => ?_⟩, ⟨_, _, _, _, hme⟩⟩
  rw [State.tiles, hme]
  simp only [Core.useTile, vector_getD_setIfInBounds]
  split
  case isFalse => exact ⟨hk, fun _ => rfl⟩
  case isTrue hp =>
    obtain ⟨rfl, hp⟩ := hp
    change (s.tiles port).length ≤ 256 at hk
    change (((ea, r.2) :: (s.tiles port).filter (·.1 ≠ ea)).take 256).length ≤ 256 ∧ ∀ x,
      (((ea, r.2) :: (s.tiles port).filter (·.1 ≠ ea)).take 256).find? (·.1 = x) = (s.tiles port).find? (·.1 = x)
    have hlt : ((s.tiles port).filter (·.1 ≠ ea)).length < (s.tiles port).length :=
      List.length_filter_lt_length_iff_exists.mpr ⟨r, List.mem_of_find?_eq_some h, by simp [hea]⟩
    rw [List.take_of_length_le (by rw [List.length_cons]; omega)]
    refine ⟨by rw [List.length_cons]; omega, fun x => ?_⟩
    by_cases hx : ea = x
    · subst hx
      rw [h, List.find?_cons_of_pos (by simp), ← hea]
    · rw [List.find?_cons_of_neg (by simpa using hx), List.find?_filter]
      refine List.find?_congr fun y _ => ?_
      by_cases hy : y.1 = x
      · simp [hy, Ne.symm hx]
      · simp [hy]

/-- A meaning that does lookups and no more. -/
def Looks {α : Type} (m : Act α) : Prop := ∀ s a t, m s = .ok (a, t) → Asks s t 0

@[simp] theorem looks_bind {α β : Type} {m : Act α} {f : α → Act β} (hm : Looks m) (hf : ∀ a, Looks (f a)) :
    Looks (m >>= f) := by
  intro s b u hu
  simp only [bind, StateT.bind, Except.bind] at hu
  split at hu
  · cases hu
  · rename_i x hx
    exact (hm _ _ _ hx).trans (hf _ _ _ _ hu)

/-- A meaning that answers in the state in which it began. -/
theorem looks_of_state {α : Type} {m : Act α} (h : ∀ s a t, m s = .ok (a, t) → t = s) : Looks m :=
  fun s a t ht => h s a t ht ▸ .refl s

@[simp] theorem looks_pure {α : Type} (a : α) : Looks (pure a) := looks_of_state fun _ _ _ h => by cases h; rfl

@[simp] theorem looks_map {α β : Type} {m : Act α} (f : α → β) (hm : Looks m) : Looks (f <$> m) :=
  looks_bind hm fun a => looks_pure (f a)

@[simp] theorem looks_get : Looks (get : Act State) := looks_of_state fun _ _ _ h => by cases h; rfl

@[simp] theorem looks_ite {α : Type} (c : Prop) [Decidable c] {m n : Act α} :
    Looks (if c then m else n) ↔ (c → Looks m) ∧ (¬c → Looks n) := by
  split <;> simp [*]

@[simp] theorem looks_refuse {α : Type} (c : Cause) (v : DWord) (u r : Nat) (a : DWord) (b : Bool) :
    Looks (refuse c v u r a b : Act α) := looks_of_state fun _ _ _ h => by cases h

@[simp] theorem looks_raise {α : Type} (c : Cause) (v : DWord) (k : List (Nat × Option Nat)) : Looks (raise c v k : Act α) :=
  looks_of_state fun _ _ _ h => by cases h

@[simp] theorem looks_wait {α : Type} (w : Wait) (l : Option Lookup) : Looks (wait w l : Act α) :=
  looks_of_state fun _ _ _ h => by cases h

@[simp] theorem looks_require (b : Bool) (c : Cause) (v : DWord) : Looks (require b c v) := by
  simp [require]

@[simp] theorem looks_ready (b : Bool) (w : Wait) : Looks (ready b w) := by
  simp [ready]

@[simp] theorem looks_tlbLookup (acc : Acc) (va : DWord) : Looks (tlbLookup acc va) := by
  refine looks_of_state fun s a t h => ?_
  unfold tlbLookup at h
  dsimp only at h
  repeat' split at h
  all_goals cases h
  rfl

@[simp] theorem looks_tileLookup (port ea : Nat) : Looks (tileLookup port ea) := by
  intro s a t h
  unfold tileLookup at h
  dsimp only at h
  split at h
  · rename_i r hr
    cases h
    exact State.asks_useTile hr
  · split at h
    · cases h
      have hme := s.me_setMe { s.me with lookups := { s.me.lookups with
        tileDone := s.me.lookups.tileDone.filter (· ≠ (port, ea)) } }
      exact ⟨.of_tiles ⟨_, _, rfl⟩ (by rw [hme]), _, _, _, _, hme⟩
    · cases h

@[simp] theorem looks_validTile (port ea : Nat) (info : DWord) : Looks (validTile port ea info) := by
  unfold validTile
  refine looks_bind (looks_tileLookup port ea) fun e => looks_bind looks_get fun s => ?_
  simp

@[simp] theorem looks_entrySpot (ea : Nat) (e : BitVec 128) (off : Nat) (info : DWord) : Looks (entrySpot ea e off info) := by
  unfold entrySpot
  refine looks_bind looks_get fun s => ?_
  split
  · split <;> simp
  · simp

@[simp] theorem looks_blockSpot (port ea off : Nat) (info : DWord) : Looks (blockSpot port ea off info) := by
  simp [blockSpot]

@[simp] theorem looks_controller (acc : Acc) (va : DWord) (pa : Nat) : Looks (controller acc va pa) := by
  unfold controller
  repeat' refine looks_bind ?_ fun _ => ?_
  all_goals repeat' split
  all_goals simp

@[simp] theorem looks_lockedLine (pa : Nat) : Looks (lockedLine pa) := by
  simp [lockedLine]

/-- The resolution of an address does lookups and no more (R117). -/
theorem looks_resolve (acc : Acc) (va : DWord) (size : Nat) : Looks (resolve acc va size) := by
  unfold resolve
  refine looks_bind (by simp) fun _ => looks_bind looks_get fun s => ?_
  split
  · exact looks_bind (by simp) fun _ => by simp
  · refine looks_bind (by simp) fun _ => looks_bind (by simp) fun e => ?_
    simp only [looks_ite]
    refine ⟨by simp, fun _ => ⟨fun _ => ?_, by simp⟩⟩
    split <;> simp

end Sys2Proof.Machine
end

section
/-! PROOFS. The loads of stream A issue (O33): a tile cache that holds an entry answers it, so the lookups of a load's places succeed;
a load starts, reserves what it fills, and is in flight; then each instruction. -/

namespace Sys2Proof.Machine
open Claims

/-! ### Entries that are held -/

/-- The entry that a port holds for an address, zero if none. -/
def State.heldEntry (s : State) (port ea : Nat) : BitVec 128 := (s.me.heldTile port ea).getD 0

/-- What a held entry is: the cache's, valid, RESIDENT, its byte behind a peer window or readable. -/
theorem entry_of_heldTile {s : State} {port ea off : Nat} (h : HeldTile s port ea off) :
    (s.tiles port).find? (·.1 = ea) = some (ea, s.heldEntry port ea) ∧ tileOk (s.heldEntry port ea) = true ∧
      tState (s.heldEntry port ea) = 0 ∧ ((s.peer? (tBase (s.heldEntry port ea) + off)).isSome = true ∨
        s.farState (tBase (s.heldEntry port ea) + off) = .ok) := by
  obtain ⟨_, _, e, hfind, hok, hstate, hread⟩ := h
  have he : s.heldEntry port ea = e := by rw [State.heldEntry, Core.heldTile, hfind]; rfl
  rw [he]
  exact ⟨hfind, hok, hstate, hread⟩

/-- A tile cache of at most 256 entries still holds the entry. -/
theorem Keeps.heldEntry {s t : State} (h : Keeps s t) {port : Nat} (hs : (s.tiles port).length ≤ 256) (ea : Nat) :
    t.heldEntry port ea = s.heldEntry port ea := by
  have := (h.tiles port hs).2 ea
  unfold State.heldEntry Core.heldTile
  rw [State.tiles, State.tiles] at this
  rw [this]

/-- What is held stays held. -/
theorem Keeps.heldTile {s t : State} (h : Keeps s t) {port ea off : Nat} (hs : HeldTile s port ea off) :
    HeldTile t port ea off := by
  obtain ⟨hlen, hclean, e, hfind, hrest⟩ := hs
  obtain ⟨hlen', hfind'⟩ := h.tiles port hlen
  have hfind' := (hfind' ea).trans hfind
  obtain ⟨_, _, rfl⟩ := h.rest
  exact ⟨hlen', hclean, e, hfind', hrest⟩

/-- A lookup that the tile cache serves (check 5 of R158). -/
theorem validTile_of_held {s : State} {port ea off : Nat} (info : DWord) (h : HeldTile s port ea off) :
    ∃ t, validTile port ea info s = .ok (s.heldEntry port ea, t) ∧ Asks s t 0 := by
  obtain ⟨hfind, hok, _, _⟩ := entry_of_heldTile h
  have hlook : tileLookup port ea s = .ok (s.heldEntry port ea, s.setMe (s.me.useTile port ea (s.heldEntry port ea))) := by
    unfold tileLookup
    rw [State.tiles] at hfind
    simp only [hfind]
  have hclean : (s.setMe (s.me.useTile port ea (s.heldEntry port ea))).poisoned ea = false := h.2.1
  refine ⟨_, ?_, State.asks_useTile hfind⟩
  unfold validTile
  rw [Act.bind_ok hlook, Act.get_bind]
  simp only [hclean, Bool.false_eq_true, if_false]
  rw [Act.bind_ok (require_true hok _ _ _)]
  rfl

/-- The place of a byte of a RESIDENT block that can be read now (R254, R258, R386, R399). -/
theorem entrySpot_of_held {s : State} {port ea off : Nat} (info : DWord) (h : HeldTile s port ea off) :
    entrySpot ea (s.heldEntry port ea) off info s = .ok (tBase (s.heldEntry port ea) + off, s) := by
  obtain ⟨_, _, hstate, hread⟩ := entry_of_heldTile h
  have hspot : s.spot ea (s.heldEntry port ea) off = some (tBase (s.heldEntry port ea) + off) := by
    simp only [State.spot, hstate]
  have hfar : (if (s.peer? (tBase (s.heldEntry port ea) + off)).isSome = true then FarState.ok
      else s.farState (tBase (s.heldEntry port ea) + off)) = .ok := by
    split
    · rfl
    · exact hread.resolve_left ‹_›
  unfold entrySpot
  rw [Act.get_bind]
  simp only [hspot, hfar]
  rfl

/-! ### The places of a load -/

theorem mem_foldl_distinct {α : Type} [DecidableEq α] (xs ys : List α) (a : α) :
    a ∈ xs.foldl (fun ys x => if ys.contains x then ys else ys ++ [x]) ys ↔ a ∈ ys ∨ a ∈ xs := by
  induction xs generalizing ys with
  | nil => simp
  | cons x xs ih =>
    rw [List.foldl_cons, ih]
    split
    case isTrue h =>
      have hx : x ∈ ys := List.contains_iff_mem.mp h
      have ha : a = x → a ∈ ys := fun e => e ▸ hx
      rw [List.mem_cons]
      tauto
    case isFalse => simp [or_assoc]

@[simp] theorem mem_distinct {α : Type} [DecidableEq α] (xs : List α) (a : α) : a ∈ distinct xs ↔ a ∈ xs := by
  rw [distinct, mem_foldl_distinct]
  simp

/-- A list of keys with their values finds the value of a key. -/
theorem find?_map_key {α : Type} {ks : List Nat} {k : Nat} (f : Nat → α) (h : k ∈ ks) :
    (ks.map fun k => (k, f k)).find? (·.1 = k) = some (k, f k) := by
  rw [List.find?_map]
  cases hf : ks.find? ((fun x : Nat × α => decide (x.1 = k)) ∘ fun k => (k, f k)) with
  | none => exact absurd (List.find?_eq_none.mp hf k h) (by simp)
  | some j =>
    have hj : j = k := by simpa using List.find?_some hf
    rw [hj]
    rfl

/-- Meanings run one after another that answer `g` in every state that lookups lead to. -/
theorem mapM_asks {α β : Type} {f : α → Act β} {g : α → β} {s : State} {xs : List α}
    (h : ∀ x ∈ xs, ∀ t, Asks s t 0 → ∃ u, f x t = .ok (g x, u) ∧ Asks t u 0) {t : State} (ht : Asks s t 0) :
    ∃ u, xs.mapM f t = .ok (xs.map g, u) ∧ Asks t u 0 := by
  induction xs generalizing t with
  | nil => exact ⟨t, rfl, .refl t⟩
  | cons x xs ih =>
    obtain ⟨u, hu, htu⟩ := h x (List.mem_cons_self ..) t ht
    obtain ⟨v, hv, huv⟩ := ih (fun y hy => h y (List.mem_cons_of_mem _ hy)) (ht.trans htu)
    refine ⟨v, ?_, htu.trans huv⟩
    rw [List.mapM_cons, Act.bind_ok hu, Act.bind_ok hv]
    rfl

/-- Every place of a request is held by its port. -/
def PlacesHeld (s : State) (b : Bound) (port : Nat) (places : List (Nat × Nat)) : Prop :=
  ∀ x ∈ places, HeldTile s port (b.lay.entry x.1) x.2

/-- The address of a place whose entry is held. -/
def State.heldAddr (s : State) (b : Bound) (port : Nat) (x : Nat × Nat) : Nat :=
  tBase (s.heldEntry port (b.lay.entry x.1)) + x.2

/-- The places of a request that its port holds are found (check 5 of R158). -/
theorem lookPlaces_of_held {s t : State} {b : Bound} {port : Nat} {places : List (Nat × Nat)} (h : PlacesHeld s b port places)
    (hst : Asks s t 0) :
    ∃ u, lookPlaces b port places t = .ok (places.map fun x => (x, s.heldAddr b port x), u) ∧ Asks t u 0 := by
  have hsame : ∀ x ∈ places, ∀ t, Asks s t 0 → t.heldEntry port (b.lay.entry x.1) = s.heldEntry port (b.lay.entry x.1) :=
    fun x hx t ht => ht.heldEntry (h x hx).1 _
  obtain ⟨u, hu, htu⟩ := mapM_asks (s := s) (t := t) (xs := distinct (places.map (·.1)))
    (f := fun k => do return (k, ← validTile port (b.lay.entry k) (tileInfo (b.lay.entry k))))
    (g := fun k => (k, s.heldEntry port (b.lay.entry k))) (fun k hk t ht => by
      obtain ⟨x, hx, rfl⟩ := List.mem_map.mp ((mem_distinct _ _).mp hk)
      obtain ⟨u, hu, htu⟩ := validTile_of_held (tileInfo (b.lay.entry x.1)) (ht.heldTile (h x hx))
      rw [hsame x hx t ht] at hu
      exact ⟨u, by rw [Act.bind_ok hu]; rfl, htu⟩) hst
  obtain ⟨v, hv, huv⟩ := mapM_asks (s := s) (t := u) (xs := places)
    (f := fun x => do
      let ea := b.lay.entry x.1
      let e := ((((distinct (places.map (·.1))).map fun k => (k, s.heldEntry port (b.lay.entry k))).find?
        (·.1 = x.1)).map (·.2)).getD 0
      return (x, ← entrySpot ea e x.2 (tileInfo ea)))
    (g := fun x => (x, s.heldAddr b port x)) (fun x hx t ht => by
      have hfind : (((distinct (places.map (·.1))).map fun k => (k, s.heldEntry port (b.lay.entry k))).find?
          (·.1 = x.1)) = some (x.1, s.heldEntry port (b.lay.entry x.1)) :=
        find?_map_key (fun k => s.heldEntry port (b.lay.entry k)) ((mem_distinct _ _).mpr (List.mem_map_of_mem hx))
      have hspot := entrySpot_of_held (tileInfo (b.lay.entry x.1)) (ht.heldTile (h x hx))
      rw [hsame x hx t ht] at hspot
      refine ⟨t, ?_, .refl t⟩
      rw [hfind]
      dsimp only [Option.map_some, Option.getD_some]
      rw [Act.bind_ok hspot]
      rfl) (hst.trans htu)
  refine ⟨v, ?_, htu.trans huv⟩
  unfold lookPlaces
  rw [Act.bind_ok hu, hv]

/-! ### Loads in flight -/

/-- The next sequence number has been drawn. -/
def State.drawn (s : State) : State := s.setMe { s.me with seq := s.me.seq + 1 }

/-- A load more is in flight, and has taken what its ports read in its first cycle (R13). -/
def State.withLoad (s : State) (l : ALoad) : State :=
  s.setMe { s.me with aloads := s.me.aloads ++ [s.readParts s.core l] }

theorem nextSeq_eq (s : State) : nextSeq s = .ok (s.me.seq, s.drawn) := rfl

theorem nextId_eq (s : State) : nextId s = .ok (s.me.seq, s) := rfl

theorem here_eq (s : State) : here s = .ok (s.position s.core s.stream s.laneNo, s) := rfl

theorem readA_eq (r : BitVec 5) (s : State) : readA r s = .ok (s.me.getAD .a r, s) := rfl

theorem modCore_eq (f : Core → Core) (s : State) : modCore f s = .ok ((), s.setMe (f s.me)) := rfl

theorem putLoad_eq (l : ALoad) (s : State) : putLoad l s = .ok ((), s.withLoad l) := rfl

/-- What a port reads of a load does not change which load it is. -/
theorem State.readParts_kind_id (s : State) (p : Nat) (l : ALoad) :
    (s.readParts p l).kind = l.kind ∧ (s.readParts p l).id = l.id := by
  unfold State.readParts
  generalize l.reads.drop l.got.length = ts
  induction ts generalizing l with
  | nil => exact ⟨rfl, rfl⟩
  | cons t ts ih =>
    rw [List.foldl_cons]
    split
    · split
      · exact ih { l with got := l.got ++ [(_, _)] }
      · exact ih l
    · exact ih l

theorem inFlight_trans {s t u : State} {ks ls : List ALoadKind} (h : InFlight s t ks) (k : InFlight t u ls) :
    InFlight s u (ks ++ ls) := by
  obtain ⟨xs, hx, hxk, hxi, hseq, hregs, hflags, hmatrix, hmem, hcore⟩ := h
  obtain ⟨ys, hy, hyk, hyi, hseq', hregs', hflags', hmatrix', hmem', hcore'⟩ := k
  refine ⟨xs ++ ys, ?_, ?_, ?_, ?_, hregs'.trans hregs, hflags'.trans hflags, hmatrix'.trans hmatrix, hmem'.trans hmem,
    hcore'.trans hcore⟩
  · rw [hy, hx, List.append_assoc]
  · rw [List.map_append, hxk, hyk]
  · rw [List.map_append, hxi, hyi, List.length_append, List.range_add, List.map_append, List.map_map, hseq]
    congr 1
    exact List.map_congr_left fun i _ => Nat.add_assoc ..
  · rw [hseq', hseq, List.length_append, Nat.add_assoc]

/-- What the issue of loads changes: loads of kinds `ks` are in flight, and `n` requests more have been asked of A's ports. -/
structure Issues (s t : State) (ks : List ALoadKind) (n : Nat) : Prop extends Keeps s t where
  flight : InFlight s t ks
  aReqs : t.me.aReqs = s.me.aReqs + n

theorem Issues.trans {s t u : State} {ks ls : List ALoadKind} {m n : Nat} (h : Issues s t ks m) (k : Issues t u ls n) :
    Issues s u (ks ++ ls) (m + n) :=
  ⟨h.toKeeps.trans k.toKeeps, inFlight_trans h.flight k.flight, by rw [k.aReqs, h.aReqs, Nat.add_assoc]⟩

/-- Lookups and requests put no load in flight. -/
theorem Asks.issues {s t : State} {n : Nat} (h : Asks s t n) : Issues s t [] n := by
  obtain ⟨_, _, _, _, hme⟩ := h.me
  refine ⟨h.toKeeps, ⟨[], ?_, rfl, rfl, ?_, ?_, ?_, ?_, h.mem, h.core⟩, h.aReqs⟩ <;> simp [hme]

theorem Asks.queues {s t : State} {n : Nat} (h : Asks s t n) : t.me.queues = s.me.queues := by
  obtain ⟨_, _, _, _, hme⟩ := h.me
  rw [hme]

/-- A load that draws its number, asks for what it reads, and is put in flight. -/
theorem issues_withLoad {s t : State} {n : Nat} {l : ALoad} (h : Asks s.drawn t n) (hid : l.id = s.me.seq) :
    Issues s (t.withLoad l) [l.kind] n ∧ (t.withLoad l).me.queues = s.me.queues := by
  obtain ⟨hkind, hid'⟩ := t.readParts_kind_id t.core l
  obtain ⟨_, _, _, _, hme⟩ := h.me
  have hdrawn : s.drawn.me = { s.me with seq := s.me.seq + 1 } := s.me_setMe _
  have hload : (t.withLoad l).me = { t.me with aloads := t.me.aloads ++ [t.readParts t.core l] } := t.me_setMe _
  rw [hdrawn] at hme
  have hkeeps : Keeps s (t.withLoad l) :=
    ((Keeps.of_tiles (t := s.drawn) ⟨_, _, rfl⟩ (by rw [hdrawn])).trans h.toKeeps).trans
      (.of_tiles ⟨_, _, rfl⟩ (by rw [hload]))
  refine ⟨⟨hkeeps, ⟨[t.readParts t.core l], ?_, ?_, ?_, ?_, ?_, ?_, ?_, hkeeps.mem, hkeeps.core⟩, ?_⟩, ?_⟩ <;>
    simp [hload, hme, hkind, hid', hid]

/-- The same after the lookups of the load's places. -/
theorem Asks.issues_withLoad {r s t : State} {n : Nat} {l : ALoad} (h : Asks r s 0) (ht : Asks s.drawn t n)
    (hid : l.id = r.me.seq) : Issues r (t.withLoad l) [l.kind] n ∧ (t.withLoad l).me.queues = r.me.queues := by
  have hseq : s.me.seq = r.me.seq := by
    obtain ⟨_, _, _, _, hme⟩ := h.me
    rw [hme]
  obtain ⟨hissues, hqueues⟩ := Machine.issues_withLoad ht (hid.trans hseq.symm)
  have := h.issues.trans hissues
  rw [Nat.zero_add] at this
  exact ⟨this, hqueues.trans h.queues⟩

/-- Every request of a load of kind `kind` is held by the port that it will take. -/
def LoadHeld (s : State) (b : Bound) (kind : ALoadKind) : Prop :=
  ∀ r ∈ (List.range (kind.requests b.lay).length).zip (kind.requests b.lay), PlacesHeld s b ((s.me.aReqs + r.1) % 2) r.2

/-- Requests that are counted at issue and made once a lookup is done (R20). -/
theorem State.asks_counted (s : State) (n : Nat) : Asks s (s.setMe { s.me with aReqs := s.me.aReqs + n }) n := by
  have hme := s.me_setMe { s.me with aReqs := s.me.aReqs + n }
  exact ⟨.of_tiles ⟨_, _, rfl⟩ (by rw [hme]), s.me.lookups, s.me.ports, s.me.portHold, s.me.port3Q, hme⟩

/-- The places of a load's requests, with their addresses by the entries that the ports hold. -/
def State.heldPlaces (s : State) (b : Bound) (kind : ALoadKind) : List (List ((Nat × Nat) × Nat)) :=
  ((List.range (kind.requests b.lay).length).zip (kind.requests b.lay)).map fun r =>
    r.2.map fun x => (x, s.heldAddr b ((s.me.nextPort + r.1) % 2) x)

theorem Core.nextPort_add (c : Core) (j : Nat) : (c.nextPort + j) % 2 = (c.aReqs + j) % 2 := by
  unfold Core.nextPort
  omega

/-- All places of a load are found. -/
theorem lookRequests_of_held {s : State} {b : Bound} {kind : ALoadKind} (h : LoadHeld s b kind) :
    ∃ t, ((List.range (kind.requests b.lay).length).zip (kind.requests b.lay)).mapM
      (fun r => lookPlaces b ((s.me.nextPort + r.1) % 2) r.2) s = .ok (s.heldPlaces b kind, t) ∧ Asks s t 0 := by
  have hall : ∀ r ∈ (List.range (kind.requests b.lay).length).zip (kind.requests b.lay), ∀ t, Asks s t 0 →
      ∃ u, lookPlaces b ((s.me.nextPort + r.1) % 2) r.2 t =
        .ok (r.2.map fun x => (x, s.heldAddr b ((s.me.nextPort + r.1) % 2) x), u) ∧ Asks t u 0 := fun r hr t ht => by
    have hr := h r hr
    rw [← Core.nextPort_add] at hr
    exact lookPlaces_of_held hr ht
  exact mapM_asks hall (.refl s)

/-- A load whose places are held issues, with a lookup still to come or without one (R20, R158). -/
theorem startLoad_issues {s : State} {b : Bound} {kind : ALoadKind} (h : LoadHeld s b kind) :
    ∃ t, startLoad b kind s = .ok ((), t) ∧ Issues s t [kind] (kind.requests b.lay).length ∧
      t.me.queues = s.me.queues := by
  unfold startLoad
  rw [Act.bind_ok (here_eq s), Act.get_bind]
  dsimp only
  split
  case isTrue =>
    rw [Act.bind_ok (nextSeq_eq s), Act.bind_ok (modCore_eq _ _), putLoad_eq]
    exact ⟨_, rfl, issues_withLoad (s.drawn.asks_counted _) rfl⟩
  case isFalse =>
    obtain ⟨t, ht, hst⟩ := lookRequests_of_held h
    have hreq := t.drawn.asks_requests t.me.seq s.me.nextPort b.lay (s.heldPlaces b kind)
    rw [show (s.heldPlaces b kind).length = (kind.requests b.lay).length by simp [State.heldPlaces]] at hreq
    rw [Act.bind_ok ht, Act.bind_ok (nextSeq_eq t), Act.get_bind, Act.set_bind, putLoad_eq]
    exact ⟨_, rfl, hst.issues_withLoad hreq rfl⟩

end Sys2Proof.Machine
end

section
/-! PROOFS. The instructions that load for stream A (O33): the entries that a load reserves, its operand, and each instruction. -/

namespace Sys2Proof.Machine
open Claims

/-! ### Reserved entries -/

theorem Core.q_setQ (c : Core) {q : Nat} (hq : q < 14) (x : CoreQueue) (k : Nat) :
    (c.setQ q x).q k = if q = k then x else c.q k := by
  rw [Core.setQ, Core.q, Core.q]
  simp only [vector_getD_setIfInBounds, hq, and_true]

/-- A change of the queues alone puts no load in flight. -/
theorem State.issues_setQueues (s : State) (v : Vector CoreQueue 14) : Issues s (s.setMe { s.me with queues := v }) [] 0 := by
  have hme := s.me_setMe { s.me with queues := v }
  refine ⟨.of_tiles ⟨_, _, rfl⟩ ?_, ⟨[], ?_, rfl, rfl, ?_, ?_, ?_, ?_, rfl, rfl⟩, ?_⟩ <;> simp [hme]

/-- A queue with room takes a load's entries (R21, R329). -/
theorem reserveQ_of_room {s : State} {q n : Nat} (id : Nat) (hq : q < 14) (h : Room s q n) :
    ∃ t, reserveQ q n id s = .ok ((), t) ∧ Issues s t [] 0 ∧ Reserved s t q (List.replicate n id) := by
  have hroom : ¬ queueDepth q < (s.me.q q).occupied + n := Nat.not_lt.mpr h
  have hrun : reserveQ q n id s = .ok ((), s.setMe (s.me.setQ q { s.me.q q with
      entries := (s.me.q q).entries ++ List.replicate n ⟨none, 0, id, 0⟩ })) := by
    unfold reserveQ
    simp only [hroom, if_false]
  refine ⟨_, hrun, s.issues_setQueues _, ?_, ?_, fun k hk => ?_⟩ <;> rw [State.me_setMe, Core.q_setQ _ hq]
  · rw [if_pos rfl, List.map_replicate]
  · rw [if_pos rfl]
  · rw [if_neg (Ne.symm hk)]

theorem reserved_of_queues {s t u : State} {q : Nat} {ids : List Nat} (h : Reserved s t q ids)
    (hq : u.me.queues = t.me.queues) : Reserved s u q ids := by
  unfold Reserved OtherQueues Core.q at h ⊢
  rwa [hq]

theorem reserved_trans {s t u : State} {q : Nat} {is js : List Nat} (h : Reserved s t q is) (k : Reserved t u q js) :
    Reserved s u q (is ++ js) := by
  obtain ⟨hentries, hpops, hothers⟩ := h
  obtain ⟨hentries', hpops', hothers'⟩ := k
  exact ⟨by rw [hentries', hentries, List.map_append, List.append_assoc], hpops'.trans hpops,
    fun j hj => (hothers' j hj).trans (hothers j hj)⟩

/-- The room that a reservation leaves. -/
theorem room_of_reserved {s t : State} {q n : Nat} {is : List Nat} (h : Reserved s t q is) (hr : Room s q (is.length + n)) :
    Room t q n := by
  obtain ⟨hentries, hpops, _⟩ := h
  unfold Room at hr ⊢
  rw [hentries, hpops, List.length_append, List.length_map]
  omega

theorem Issues.loadHeld {s t : State} {ks : List ALoadKind} (h : Issues s t ks 0) {b : Bound} {kind : ALoadKind}
    (hs : LoadHeld s b kind) : LoadHeld t b kind := fun r hr x hx => by
  have hheld := h.heldTile (hs r hr x hx)
  rwa [h.aReqs]

/-- A load reserves what it fills, and issues. -/
theorem reserveQ_startLoad {s : State} {q n : Nat} {b : Bound} {kind : ALoadKind} (hq : q < 14) (hr : Room s q n)
    (h : LoadHeld s b kind) : ∃ t u, reserveQ q n s.me.seq s = .ok ((), t) ∧ startLoad b kind t = .ok ((), u) ∧
      Issues s u [kind] (kind.requests b.lay).length ∧ Reserved s u q (List.replicate n s.me.seq) := by
  obtain ⟨t, ht, hissues, hres⟩ := reserveQ_of_room s.me.seq hq hr
  obtain ⟨u, hu, hissues', hqueues⟩ := startLoad_issues (hissues.loadHeld h)
  have := hissues.trans hissues'
  rw [Nat.zero_add] at this
  exact ⟨t, u, ht, hu, this, reserved_of_queues hres hqueues⟩

theorem queue_lt {q : BitVec 4} (h : q.toNat ≤ 3 ∨ q = 6) : q.toNat < 14 := by
  rcases h with h | rfl
  · omega
  · decide

theorem loadQueue_true {q : BitVec 4} (h : q.toNat ≤ 3 ∨ q = 6) : loadQueue q = true := by
  simpa [loadQueue] using h

/-! ### The operand -/

theorem inTensor_ok {port blk off bit : Nat} {b : Bound} {v : DWord} {s t : State}
    (h : inTensor port b v s = .ok ((blk, off, bit), t)) : b.lay.place (coords v) = (blk, off, bit) := by
  unfold inTensor at h
  rw [Act.get_bind] at h
  dsimp only at h
  split at h
  · cases h
  · cases h
    rfl

/-- The operand's place is its element's (R251), and it passes with the instruction's rule for the format too. -/
theorem loadOperand_of_operand {s : State} {t : BitVec 6} {c : BitVec 4} {b : Bound} {v : DWord} {blk off bit : Nat}
    (h : Claims.Operand s t c b v blk off bit) : b.lay.place (coords v) = (blk, off, bit) ∧
      ∀ f : Nat → Bool, f b.lay.fmt = true → loadOperand t c f s = .ok ((b, v, blk, off, bit), s) := by
  unfold Claims.Operand loadOperand at h
  rw [Act.bind_ok (rfl : core s = .ok (s.me, s))] at h
  dsimp only at h
  cases hb : binding s.me.nextPort false t s with
  | error e => rw [Act.bind_error hb] at h; cases h
  | ok r =>
    obtain ⟨b', s'⟩ := r
    rw [Act.bind_ok hb, Act.bind_ok (require_true rfl _ _ _), Act.bind_ok (readA_eq _ _)] at h
    cases hp : inTensor s.me.nextPort b' (s'.me.getAD .a (c.setWidth 5)) s' with
    | error e => rw [Act.bind_error hp] at h; cases h
    | ok r =>
      obtain ⟨⟨blk', off', bit'⟩, s''⟩ := r
      rw [Act.bind_ok hp] at h
      cases h
      refine ⟨inTensor_ok hp, fun f hf => ?_⟩
      unfold loadOperand
      rw [Act.bind_ok (rfl : core s = .ok (s.me, s))]
      dsimp only
      rw [Act.bind_ok hb, Act.bind_ok (require_true hf _ _ _), Act.bind_ok (readA_eq _ _), Act.bind_ok hp]
      rfl

/-! ### What is held for a load -/

theorem loadHeld_of_one {s : State} {b : Bound} {kind : ALoadKind} {places : List (Nat × Nat)}
    (hk : kind.requests b.lay = [places]) (h : PlacesHeld s b (s.me.aReqs % 2) places) : LoadHeld s b kind := by
  intro r hr
  rw [hk] at hr
  obtain rfl : r = (0, places) := by simpa using hr
  exact h

theorem loadHeld_of_two {s : State} {b : Bound} {kind : ALoadKind} {places places' : List (Nat × Nat)}
    (hk : kind.requests b.lay = [places, places']) (h : PlacesHeld s b (s.me.aReqs % 2) places)
    (h' : PlacesHeld s b ((s.me.aReqs + 1) % 2) places') : LoadHeld s b kind := by
  intro r hr
  rw [hk] at hr
  obtain rfl | rfl : r = (0, places) ∨ r = (1, places') := by simpa [List.range_succ] using hr
  · exact h
  · exact h'

theorem placesHeld_one {s : State} {b : Bound} {port blk off : Nat} (h : HeldTile s port (b.lay.entry blk) off) :
    PlacesHeld s b port [(blk, off)] := by
  intro x hx
  obtain rfl := List.mem_singleton.mp hx
  exact h

section
variable {l : Lay} {v : DWord} {blk off bit : Nat} (hplace : l.place (coords v) = (blk, off, bit))
include hplace

theorem requests_tld (q i k : Nat) : (ALoadKind.tld q i v k).requests l = [[(blk, off / 256 * 256 + 256 * k)]] := by
  simp only [ALoadKind.requests, hplace]

theorem requests_word (i : Nat) : (ALoadKind.word i v).requests l = [[(blk, off / 256 * 256)]] := by
  simp only [ALoadKind.requests, hplace, Nat.mul_zero, Nat.add_zero]

theorem requests_plane (area m i : Nat) (f : Option (BitVec 4 × Bool)) :
    (ALoadKind.plane area m i v f).requests l = [[(blk, off / 256 * 256)]] := by
  simp only [ALoadKind.requests, hplace, Nat.mul_zero, Nat.add_zero]

theorem requests_index (i n : Nat) : (ALoadKind.index i v n).requests l = [[(blk, off)]] := by
  simp only [ALoadKind.requests, hplace]

theorem requests_pattern (q i n : Nat) (r : BitVec 576) : (ALoadKind.pattern q i v r n).requests l =
    [(blk, off)] :: if 256 < off % 256 + n then [[(blk, off / 256 * 256 + 256)]] else [] := by
  simp only [ALoadKind.requests, hplace, Nat.mul_one]
end

theorem placesHeld_of_column {s : State} {b : Bound} {v : DWord} {n : Nat} (h : HeldColumn s b v n) :
    PlacesHeld s b (s.me.aReqs % 2) (columnPlaces b.lay v n) := fun x hx => (h x hx).2

/-- A column whose blocks are the tensor's is a load like any other (R163). -/
theorem loadColumn_eq {b : Bound} {v : DWord} {n : Nat} (kind : ALoadKind) (s : State)
    (h : ∀ x ∈ columnPlaces b.lay v n, x.1 ≤ b.lay.nblkm1) : loadColumn b v n kind s = startLoad b kind s := by
  have hany : ((columnPlaces b.lay v n).any fun x => decide (b.lay.nblkm1 < x.1)) = false := by
    simpa using fun x y hxy => h (x, y) hxy
  unfold loadColumn
  rw [Act.get_bind, Act.bind_ok (rfl : core s = .ok (s.me, s))]
  dsimp only
  rw [if_neg (by rw [hany]; exact Bool.false_ne_true)]

/-- Planes of the running context need no claim (R280). -/
theorem claimPlanes_of_own {s : State} (h : OwnPlanes s) : claimPlanes s = .ok ((), s) := by
  obtain ⟨hclaims, howner⟩ := h
  unfold claimPlanes
  rw [Act.get_bind]
  simp only [hclaims, howner, Bool.false_eq_true, if_false, ne_eq, not_true_eq_false]
  rfl

/-! ### The instructions -/

section
variable {w : BitVec 2} {t : BitVec 6} {c : BitVec 4} {s : State} {b : Bound} {v : DWord} {blk off bit : Nat}
  (hop : Claims.Operand s t c b v blk off bit)
include hop

/-- TLD of one line or two (R162): each reserves its entry and issues in turn. -/
theorem tld_lines {q : BitVec 4} {n : BitVec 1} (hq : q.toNat ≤ 3 ∨ q = 6) (hcan : Can (.tld w q t c n) w s)
    (hfirst : b.lay.lineStart (coords v) = true) (hroom : Room s q.toNat (n.toNat + 1))
    (hheld : HeldTile s (s.me.aReqs % 2) (b.lay.entry blk) (off / 256 * 256))
    (hheld' : n = 1 → off / 256 ≠ 127 ∧ HeldTile s ((s.me.aReqs + 1) % 2) (b.lay.entry blk) (off / 256 * 256 + 256)) :
    ∃ u, Does (.tld w q t c n) s u ∧ InFlight s u ((List.range (n.toNat + 1)).map (.tld q.toNat b.idx v ·)) ∧
      Reserved s u q.toNat ((List.range (n.toNat + 1)).map (s.me.seq + ·)) := by
  obtain ⟨hplace, hload⟩ := loadOperand_of_operand hop
  have hq11 : q ≠ 11 := by rintro rfl; revert hq; decide
  have hstart : (b.lay.lineStart (coords v) && !(decide (n = 1) && decide (off / 256 = 127))) = true := by
    by_cases hn : n = 1
    · simp [hfirst, (hheld' hn).1]
    · rw [hfirst, decide_eq_false hn]; rfl
  have h0 : LoadHeld s b (.tld q.toNat b.idx v 0) := loadHeld_of_one (requests_tld hplace ..) (placesHeld_one (by simpa using hheld))
  have hroom0 : Room s q.toNat 1 := Nat.le_trans (by omega) hroom
  obtain ⟨s1, s2, hres, hrun, hissues, hreserved⟩ := reserveQ_startLoad (queue_lt hq) hroom0 h0
  rw [requests_tld hplace] at hissues
  by_cases hn : n = 1
  case neg =>
    obtain rfl : n = 0 := by bv_omega
    refine ⟨s2, run_done hcan.1 hcan.2 ?_, hissues.flight, hreserved⟩
    rw [Act.bind_ok (require_true (by simp [loadQueue_true hq]) _ _ _), Act.bind_ok (hload _ rfl)]
    dsimp only
    rw [if_neg hq11, Act.bind_ok (require_true hstart _ _ _), Act.bind_ok (nextId_eq s), Act.bind_ok hres,
      Act.bind_ok hrun]
    rfl
  case pos =>
    subst hn
    have h1 : LoadHeld s2 b (.tld q.toNat b.idx v 1) := by
      refine loadHeld_of_one (requests_tld hplace ..) (placesHeld_one ?_)
      rw [hissues.aReqs]
      exact hissues.heldTile (hheld' rfl).2
    obtain ⟨s3, s4, hres', hrun', hissues', hreserved'⟩ :=
      reserveQ_startLoad (queue_lt hq) (room_of_reserved hreserved hroom) h1
    obtain ⟨_, _, _, _, hseq, _⟩ := hissues.flight
    change s2.me.seq = s.me.seq + 1 at hseq
    rw [hseq] at hreserved'
    refine ⟨s4, run_done hcan.1 hcan.2 ?_, inFlight_trans hissues.flight hissues'.flight,
      reserved_trans hreserved hreserved'⟩
    rw [Act.bind_ok (require_true (by simp [loadQueue_true hq]) _ _ _), Act.bind_ok (hload _ rfl)]
    dsimp only
    rw [if_neg hq11, Act.bind_ok (require_true hstart _ _ _), Act.bind_ok (nextId_eq s), Act.bind_ok hres,
      Act.bind_ok hrun, if_pos rfl, Act.bind_ok (nextId_eq s2), Act.bind_ok hres', hrun']

/-- TLD of a word into the queue of C (R162). -/
theorem tld_word {n : BitVec 1} (hcan : Can (.tld w 11 t c n) w s) (hroom : Room s 11 1)
    (hheld : HeldTile s (s.me.aReqs % 2) (b.lay.entry blk) (off / 256 * 256)) :
    ∃ u, Does (.tld w 11 t c n) s u ∧ InFlight s u [.word b.idx v] ∧ Reserved s u 11 [s.me.seq] := by
  obtain ⟨hplace, hload⟩ := loadOperand_of_operand hop
  obtain ⟨s1, u, hres, hrun, hissues, hreserved⟩ := reserveQ_startLoad (q := 11) (kind := .word b.idx v) (by decide) hroom
    (loadHeld_of_one (requests_word hplace _) (placesHeld_one hheld))
  refine ⟨u, run_done hcan.1 hcan.2 ?_, hissues.flight, hreserved⟩
  have hq : (loadQueue 11 || decide ((11 : BitVec 4) = 11)) = true := by decide
  rw [Act.bind_ok (require_true hq _ _ _), Act.bind_ok (hload _ rfl)]
  dsimp only
  rw [if_pos rfl, Act.bind_ok (nextId_eq s), Act.bind_ok hres, hrun]

/-- TLD.T (R163). -/
theorem tldT_column {q : BitVec 4} (hq : q.toNat ≤ 3 ∨ q = 6) (hcan : Can (.tldT w q t c) w s)
    (hwide : fmtWidth b.lay.fmt % 8 = 0) (hroom : Room s q.toNat 1)
    (hheld : HeldColumn s b v (256 / (fmtWidth b.lay.fmt / 8))) :
    ∃ u, Does (.tldT w q t c) s u ∧ InFlight s u [.column q.toNat b.idx v] ∧ Reserved s u q.toNat [s.me.seq] := by
  obtain ⟨hplace, hload⟩ := loadOperand_of_operand hop
  obtain ⟨s1, u, hres, hrun, hissues, hreserved⟩ := reserveQ_startLoad (kind := .column q.toNat b.idx v) (queue_lt hq) hroom
    (loadHeld_of_one rfl (placesHeld_of_column hheld))
  refine ⟨u, run_done hcan.1 hcan.2 ?_, hissues.flight, hreserved⟩
  rw [Act.bind_ok (require_true (loadQueue_true hq) _ _ _), Act.bind_ok (hload _ (decide_eq_true hwide))]
  dsimp only
  rw [Act.bind_ok (nextId_eq s), Act.bind_ok hres, loadColumn_eq _ _ fun x hx => (hheld x hx).1, hrun]

/-- TLDB (R165): a read of one line or of two. -/
theorem tldb_pattern {q : BitVec 4} {x : BitVec 2} (hq : q.toNat ≤ 3 ∨ q = 6) (hcan : Can (.tldb w q t c x) w s)
    (hloaded : (s.me.regs.x.getD x.toNat {}).loaded = true) (hfree : Free s (.x x)) (hbit : bit = 0)
    (hfits : off + patBytes (s.me.regs.x.getD x.toNat {}).record ≤ 32768) (hroom : Room s q.toNat 1)
    (hheld : HeldTile s (s.me.aReqs % 2) (b.lay.entry blk) off)
    (hheld' : 256 < off % 256 + patBytes (s.me.regs.x.getD x.toNat {}).record →
      HeldTile s ((s.me.aReqs + 1) % 2) (b.lay.entry blk) (off / 256 * 256 + 256)) :
    ∃ u, Does (.tldb w q t c x) s u ∧ InFlight s u [.pattern q.toNat b.idx v (s.me.regs.x.getD x.toNat {}).record
        (patBytes (s.me.regs.x.getD x.toNat {}).record)] ∧ Reserved s u q.toNat [s.me.seq] := by
  obtain ⟨hplace, hload⟩ := loadOperand_of_operand hop
  have hpattern : patternOf x s = .ok (s.me.regs.x.getD x.toNat {}, s) := by
    have hawait : await (.x x) s = .ok ((), s) := by
      unfold await
      simp only [hfree]
    unfold patternOf
    rw [Act.bind_ok hawait]
    rfl
  generalize s.me.regs.x.getD x.toNat {} = p at *
  have hkind := requests_pattern hplace q.toNat b.idx (patBytes p.record) p.record
  have hall : LoadHeld s b (.pattern q.toNat b.idx v p.record (patBytes p.record)) := by
    by_cases hspan : 256 < off % 256 + patBytes p.record
    · rw [if_pos hspan] at hkind
      exact loadHeld_of_two hkind (placesHeld_one hheld) (placesHeld_one (hheld' hspan))
    · rw [if_neg hspan] at hkind
      exact loadHeld_of_one hkind (placesHeld_one hheld)
  obtain ⟨s1, u, hres, hrun, hissues, hreserved⟩ := reserveQ_startLoad (queue_lt hq) hroom hall
  refine ⟨u, run_done hcan.1 hcan.2 ?_, hissues.flight, hreserved⟩
  rw [Act.bind_ok (require_true (loadQueue_true hq) _ _ _), Act.bind_ok hpattern, Act.bind_ok (hload _ hloaded)]
  dsimp only
  rw [Act.bind_ok (require_true (by simp [hbit, hfits]) _ _ _), Act.bind_ok (nextId_eq s), Act.bind_ok hres, hrun]

/-- ILD (R166). -/
theorem ild_index {n : BitVec 6} (hcan : Can (.ild w t c n) w s) (hword : off % 4 = 0)
    (hline : off % 256 + 4 * (n.toNat + 1) ≤ 256) (hroom : Room s 13 (n.toNat + 1))
    (hheld : HeldTile s (s.me.aReqs % 2) (b.lay.entry blk) off) :
    ∃ u, Does (.ild w t c n) s u ∧ InFlight s u [.index b.idx v (n.toNat + 1)] ∧
      Reserved s u 13 (List.replicate (n.toNat + 1) s.me.seq) := by
  obtain ⟨hplace, hload⟩ := loadOperand_of_operand hop
  obtain ⟨s1, u, hres, hrun, hissues, hreserved⟩ := reserveQ_startLoad (q := 13) (kind := .index b.idx v (n.toNat + 1))
    (by decide) hroom (loadHeld_of_one (requests_index hplace ..) (placesHeld_one hheld))
  refine ⟨u, run_done hcan.1 hcan.2 ?_, hissues.flight, hreserved⟩
  dsimp only
  rw [Act.bind_ok (hload _ rfl)]
  dsimp only
  rw [Act.bind_ok (require_true (by simp [hword, hline]) _ _ _), Act.bind_ok (nextId_eq s), Act.bind_ok hres, hrun]

/-- MLDW (R167). -/
theorem mldw_plane {spa : BitVec 1} {m : BitVec 7} (hcan : Can (.mldw w t c spa m) w s)
    (hfirst : b.lay.lineStart (coords v) = true) (hown : OwnPlanes s)
    (hheld : HeldTile s (s.me.aReqs % 2) (b.lay.entry blk) (off / 256 * 256)) :
    ∃ u, Does (.mldw w t c spa m) s u ∧
      InFlight s u [.plane 0 m.toNat b.idx v (some (BitVec.ofNat 4 b.lay.fmt, decide (spa = 1)))] ∧
      u.me.queues = s.me.queues := by
  obtain ⟨hplace, hload⟩ := loadOperand_of_operand hop
  obtain ⟨u, hrun, hissues, hqueues⟩ := startLoad_issues
    (loadHeld_of_one (requests_plane hplace 0 m.toNat b.idx (some (BitVec.ofNat 4 b.lay.fmt, decide (spa = 1))))
      (placesHeld_one hheld))
  refine ⟨u, run_done hcan.1 hcan.2 ?_, hissues.flight, hqueues⟩
  rw [Act.bind_ok (hload _ rfl)]
  dsimp only
  rw [Act.bind_ok (require_true hfirst _ _ _), Act.bind_ok (claimPlanes_of_own hown), hrun]

/-- MLDW.T (R167). -/
theorem mldwT_column {k : BitVec 7} (hcan : Can (.mldwT w t c k) w s) (hwide : fmtWidth b.lay.fmt % 8 = 0)
    (hdepth : k.toNat < passDepth b.lay.fmt) (hown : OwnPlanes s) (hheld : HeldColumn s b v 64) :
    ∃ u, Does (.mldwT w t c k) s u ∧ InFlight s u [.planeColumn k.toNat b.idx v (BitVec.ofNat 4 b.lay.fmt)] ∧
      u.me.queues = s.me.queues := by
  obtain ⟨hplace, hload⟩ := loadOperand_of_operand hop
  obtain ⟨u, hrun, hissues, hqueues⟩ := startLoad_issues (kind := .planeColumn k.toNat b.idx v (BitVec.ofNat 4 b.lay.fmt))
    (loadHeld_of_one rfl (placesHeld_of_column hheld))
  refine ⟨u, run_done hcan.1 hcan.2 ?_, hissues.flight, hqueues⟩
  rw [Act.bind_ok (hload _ (by simp [wholeBytes, hwide, hdepth]))]
  dsimp only
  rw [Act.bind_ok (claimPlanes_of_own hown), loadColumn_eq _ _ fun x hx => (hheld x hx).1, hrun]

/-- MLDS (R167). -/
theorem mlds_plane {kind : BitVec 2} {m : BitVec 7} (hcan : Can (.mlds w t c kind m) w s)
    (hside : sideFormat kind.toNat b.lay.fmt = true) (hfirst : b.lay.lineStart (coords v) = true) (hown : OwnPlanes s)
    (hheld : HeldTile s (s.me.aReqs % 2) (b.lay.entry blk) (off / 256 * 256)) :
    ∃ u, Does (.mlds w t c kind m) s u ∧ InFlight s u [.plane (kind.toNat + 1) m.toNat b.idx v none] ∧
      u.me.queues = s.me.queues := by
  obtain ⟨hplace, hload⟩ := loadOperand_of_operand hop
  obtain ⟨u, hrun, hissues, hqueues⟩ := startLoad_issues
    (loadHeld_of_one (requests_plane hplace (kind.toNat + 1) m.toNat b.idx none) (placesHeld_one hheld))
  refine ⟨u, run_done hcan.1 hcan.2 ?_, hissues.flight, hqueues⟩
  rw [Act.bind_ok (hload _ hside)]
  dsimp only
  rw [Act.bind_ok (require_true hfirst _ _ _), Act.bind_ok (claimPlanes_of_own hown), hrun]

end

/-! ### BFXCFG -/

/-- What a record's read finds does not depend on cores and free choices. -/
theorem Keeps.fetchLoad_bfx {s t : State} (h : Keeps s t) (x : BitVec 2) (va : DWord) (pa pa2 : Nat) (win : Bool) :
    t.fetchLoad (fun n => .aload t.core 0 n) t.core (.bfx x va pa pa2 win) =
      s.fetchLoad (fun n => .aload s.core 0 n) s.core (.bfx x va pa pa2 win) := by
  obtain ⟨_, _, rfl⟩ := h.rest
  rfl

/-- The record can be read at issue, and breaks R105. -/
def Refused (s : State) (k : ALoadKind) : Prop :=
  ∃ bs, s.fetchLoad (fun n => .aload s.core 0 n) s.core k = .data bs false ∧ patOk (BitVec.ofNat 576 (bytesVal bs)) = false

theorem patternReads_of_refused {s : State} {k : ALoadKind} (h : Refused s k) :
    patternReads k s = .error (.trap .formatInvalid 0 [] none) := by
  obtain ⟨bs, hread, hbad⟩ := h
  unfold patternReads
  rw [Act.get_bind]
  simp only [hread]
  exact require_false hbad _ _ _

theorem patternReads_of_not_refused {s : State} {k : ALoadKind} (h : ¬ Refused s k) : patternReads k s = .ok ((), s) := by
  unfold patternReads
  rw [Act.get_bind]
  cases hread : s.fetchLoad (fun n => .aload s.core 0 n) s.core k with
  | data bs poison =>
    cases poison with
    | false =>
      refine require_true ?_ _ _ _
      by_contra hbad
      exact h ⟨bs, hread, by simpa using hbad⟩
    | true => rfl
  | wait => rfl
  | peer => rfl
  | lost => rfl

/-- The record's load is in flight (R164). -/
theorem startRecord_issues (k : ALoadKind) (due : Nat) (s : State) :
    ∃ t, startRecord k due s = .ok ((), t) ∧ Issues s t [k] 0 ∧ t.me.queues = s.me.queues := by
  unfold startRecord
  rw [Act.bind_ok (here_eq s), Act.bind_ok (nextSeq_eq s), Act.get_bind, putLoad_eq]
  exact ⟨_, rfl, issues_withLoad (.refl _) rfl⟩

/-- What becomes of a BFXCFG, of load `k` in state `s1`, whose record is read in `s2`: FORMAT_INVALID, or the load in flight. -/
def RecordOutcome (i : Instr) (s s1 s2 : State) (k : ALoadKind) : Prop :=
  (Refused s2 k → Happens i s (s.laneTrap .formatInvalid 0 [] none)) ∧
  (¬ Refused s2 k → ∃ u, Does i s u ∧ InFlight s1 u [k] ∧ u.me.queues = s1.me.queues)

/-- A meaning that comes down to the check of a record and the start of its load. -/
theorem recordOutcome_of_run {i : Instr} {w : BitVec 2} {m : Act Unit} {s s1 s2 t : State} {k : ALoadKind} {due : Nat}
    (hcan : Can i w s) (hi : exec i s = run i w m s) (hm : m s = (patternReads k >>= fun _ => startRecord k due) t)
    (ht : Asks s1 t 0) (hk : Refused t k ↔ Refused s2 k) : RecordOutcome i s s1 s2 k := by
  unfold RecordOutcome Happens Does
  rw [← hk, hi]
  refine ⟨fun hbad => run_raises hcan.1 hcan.2 (hm.trans (Act.bind_error (patternReads_of_refused hbad))), fun hgood => ?_⟩
  obtain ⟨u, hu, hissues, hqueues⟩ := startRecord_issues k due t
  refine ⟨u, run_done hcan.1 hcan.2 ?_, inFlight_trans ht.issues.flight hissues.flight, hqueues.trans ht.queues⟩
  rw [hm, Act.bind_ok (patternReads_of_not_refused hgood), hu]

theorem sx_eq_signed (imm : BitVec 13) : sx imm = signed imm := rfl

section
variable {w x : BitVec 2} {a : BitVec 5} {imm : BitVec 13} {s s1 s2 : State} {g : Target} {due : Nat}
  (hcan : Can (.bfxcfg w x a imm) w s) (hres : resolve .load (s.me.getAD .a a + signed imm) 8 s = .ok (g, s1))
  (hreq : linearRequest g.pa s1 = .ok (due, s2))
include hcan hres hreq

/-- BFXCFG of a record in one line (R164). -/
theorem bfxcfg_oneLine (hfirst : 72 ≤ 256 - (s.me.getAD .a a + signed imm).toNat % 256) :
    RecordOutcome (.bfxcfg w x a imm) s s1 s2 (.bfx x (s.me.getAD .a a + signed imm) g.pa 0 g.win) := by
  refine recordOutcome_of_run (due := due) hcan rfl ?_ (linearRequest_asks_of_ok hreq) .rfl
  rw [Act.bind_ok (readA_eq a s)]
  dsimp only
  rw [sx_eq_signed, Act.bind_ok hres, Act.bind_ok hreq, if_neg (Nat.not_lt.mpr hfirst)]

/-- BFXCFG of a record in two lines (R164). -/
theorem bfxcfg_twoLines {s3 : State} {g2 : Target} (hfirst : 256 - (s.me.getAD .a a + signed imm).toNat % 256 < 72)
    (hres2 : resolve .load (s.me.getAD .a a + signed imm +
      BitVec.ofNat 64 (256 - (s.me.getAD .a a + signed imm).toNat % 256)) 8 s2 = .ok (g2, s3)) :
    RecordOutcome (.bfxcfg w x a imm) s s1 s2 (.bfx x (s.me.getAD .a a + signed imm) g.pa g2.pa g.win) := by
  obtain ⟨due2, s4, hreq2, hasks⟩ := linearRequest_asks g2.pa s3
  have h24 : Asks s2 s4 0 := (looks_resolve _ _ _ _ _ _ hres2).trans hasks
  refine recordOutcome_of_run (due := max due due2) hcan rfl ?_ ((linearRequest_asks_of_ok hreq).trans h24) ?_
  · rw [Act.bind_ok (readA_eq a s)]
    dsimp only
    rw [sx_eq_signed, Act.bind_ok hres, Act.bind_ok hreq, if_pos hfirst, Act.bind_ok hres2, Act.bind_ok hreq2]
  · rw [Refused, Refused, h24.fetchLoad_bfx]

end

/-- Settles O33: the operand's checks pass, what is held makes the lookups succeed, and the load starts; the record of a BFXCFG is
checked at issue. -/
theorem tensorLoads : Obligations.TensorLoads := by
  refine ⟨fun w t c s b v blk off bit hop => ?_, fun w x a imm s s1 s2 g due hcan hres hreq => ?_⟩
  · intro held line first wide
    exact ⟨fun q n hq hcan hfirst hroom hheld hheld' => tld_lines hop hq hcan hfirst hroom hheld hheld',
      fun n hcan hroom hheld => tld_word hop hcan hroom hheld,
      fun q hq hcan hwide hroom hheld => tldT_column hop hq hcan hwide hroom hheld,
      fun q x hq hcan hloaded hfree hbit hfits hroom hheld hheld' =>
        tldb_pattern hop hq hcan hloaded hfree hbit hfits hroom hheld hheld',
      fun n hcan hword hline hroom hheld => ild_index hop hcan hword hline hroom hheld,
      fun spa m hcan hfirst hown hheld => mldw_plane hop hcan hfirst hown hheld,
      fun k hcan hwide hdepth hown hheld => mldwT_column hop hcan hwide hdepth hown hheld,
      fun kind m hcan hside hfirst hown hheld => mlds_plane hop hcan hside hfirst hown hheld⟩
  · exact ⟨fun hfirst => bfxcfg_oneLine hcan hres hreq hfirst,
      fun s3 g2 hfirst hres2 => bfxcfg_twoLines hcan hres hreq hfirst hres2⟩

end Sys2Proof.Machine
end

section
/-! PROOFS. C's queue instructions (O25): what a push, a pop and a read of a register answer, and each instruction by its cases. -/

namespace Sys2Proof.Machine
open Claims

/-! ### The ends of an instruction that may run -/

section
variable {i : Instr} {w : BitVec 2} {m : Act Unit} {s t : State} (hexec : exec i s = run i w m s) (hcan : Can i w s)
include hexec hcan

theorem does_of_ok (h : m s = .ok ((), t)) : Does i s t := hexec.trans (run_done hcan.1 hcan.2 h)

theorem waits_of_error {kind idx : Nat} (h : m s = .error (.wait (.object kind idx) none)) : Waits i s kind idx :=
  hexec.trans (run_waits hcan.1 hcan.2 h)

theorem happens_of_trap {c : Cause} {v : DWord} {keep : List (Nat × Option Nat)} {log : Option LogRec}
    (h : m s = .error (.trap c v keep log)) : Happens i s (s.laneTrap c v keep log) :=
  hexec.trans (run_raises hcan.1 hcan.2 h)
end

/-! ### Pushes and pops -/

/-- What a push of C waits for (R308; log 54): nothing for PUSHFMT, C's earlier accesses for a push of QPUSH. -/
theorem Core.pushHold_of_c (c : Core) {q : Nat} (h : queueProducer q = .c) :
    c.pushHold q = if q = 12 ∨ c.settled .c c.seq = true then 0 else c.seq + 1 := by
  simp [Core.pushHold, Core.pushSettled, h]

theorem pushQ_of_room {s : State} {q : Nat} (v : Line) (hc : queueProducer q = .c)
    (h : (s.me.q q).entries.length + (s.me.q q).pops < queueDepth q) :
    pushQ q v s = .ok ((), pushed s q v (decide (q = 12 ∨ s.me.settled .c s.me.seq = true))) := by
  have hroom : ¬ queueDepth q ≤ (s.me.q q).occupied := Nat.not_le.mpr h
  simp only [pushQ, hroom, if_false, Core.pushHold_of_c _ hc, pushed, decide_eq_true_eq]

theorem pushQ_of_full {s : State} {q : Nat} (v : Line) (h : queueDepth q ≤ (s.me.q q).entries.length + (s.me.q q).pops) :
    pushQ q v s = .error (.wait (.object 0 q) none) := if_pos h

theorem popQ_of_cons {s : State} {q : Nat} {v : Line} {rest : List Line} (h : (s.me.q q).poppable s.now = v :: rest) :
    popQ q s = .ok (v, popped s q) := by
  unfold popQ
  simp only [h]
  rfl

theorem popQ_of_nil {s : State} {q : Nat} (h : (s.me.q q).poppable s.now = []) :
    popQ q s = .error (.wait (.object 0 q) none) := by
  unfold popQ
  simp only [h]

theorem CoreQueue.written_eq (s : State) (q : Nat) : (s.me.q q).written s.now = writtenBefore s q := by
  simp [CoreQueue.written, writtenBefore]

/-! ### The instructions -/

section
variable {w : BitVec 2} {s : State}

/-- PUSHFMT (R144). -/
theorem pushfmt_cases {v : BitVec 32} (hcan : Can (.pushfmt w v) w s) :
    ((s.me.q 12).entries.length + (s.me.q 12).pops < 32 → Does (.pushfmt w v) s (pushed s 12 (v.setWidth 2048) true)) ∧
    (32 ≤ (s.me.q 12).entries.length + (s.me.q 12).pops → Waits (.pushfmt w v) s 0 12) :=
  ⟨fun h => does_of_ok rfl hcan (pushQ_of_room _ rfl h), fun h => waits_of_error rfl hcan (pushQ_of_full _ h)⟩

theorem qpush_cases {q : BitVec 4} {n : BitVec 5} (hcan : Can (.qpush w q n) w s) (hlow : 7 ≤ q.toNat) (hhigh : q.toNat ≤ 9)
    (hn : Free s (.s n)) :
    ((s.me.q q.toNat).entries.length + (s.me.q q.toNat).pops < 8 →
      Does (.qpush w q n) s (pushed s q.toNat ((s.me.getS n).setWidth 2048) (s.me.settled .c s.me.seq))) ∧
    (8 ≤ (s.me.q q.toNat).entries.length + (s.me.q q.toNat).pops → Waits (.qpush w q n) s 0 q.toNat) := by
  have hcode : (decide (7 ≤ q.toNat) && decide (q.toNat ≤ 9)) = true := by simp [hlow, hhigh]
  have hproducer : queueProducer q.toNat = .c := by
    simp only [queueProducer]; repeat rw [if_neg (by omega)]
    rw [if_pos hhigh]
  have hdepth : queueDepth q.toNat = 8 := by rw [queueDepth, if_neg (by omega), if_pos (by omega)]
  refine ⟨fun h => does_of_ok rfl hcan ?_, fun h => waits_of_error rfl hcan ?_⟩ <;>
    rw [Act.bind_ok (require_true hcode _ _ _), Act.bind_ok (readS_ok hn)]
  · rw [pushQ_of_room _ hproducer (hdepth ▸ h)]
    simp [show q.toNat ≠ 12 by omega]
  · exact pushQ_of_full _ (hdepth ▸ h)

/-- QPOP (R145). -/
theorem qpop_cases {q : BitVec 4} {n : BitVec 5} (hcan : Can (.qpop w q n) w s) (hq : q.toNat = 10 ∨ q.toNat = 11) :
    (∀ v rest, (s.me.q q.toNat).poppable s.now = v :: rest →
      Does (.qpop w q n) s (gave (popped s q.toNat) n (v.setWidth 64) 0)) ∧
    ((s.me.q q.toNat).poppable s.now = [] → Waits (.qpop w q n) s 0 q.toNat) := by
  have hcode : (decide (10 ≤ q.toNat) && decide (q.toNat ≤ 11)) = true := by simp; omega
  refine ⟨fun v rest h => does_of_ok rfl hcan ?_, fun h => waits_of_error rfl hcan ?_⟩ <;>
    rw [Act.bind_ok (require_true hcode _ _ _)]
  · rw [Act.bind_ok (popQ_of_cons h)]
    rfl
  · exact Act.bind_error (popQ_of_nil h)

/-- A push to a queue that is not C's raises its exception (R145). -/
theorem qpush_misuse {q : BitVec 4} {n : BitVec 5} (hcan : Can (.qpush w q n) w s) (hq : q.toNat < 7 ∨ 9 < q.toNat) :
    Happens (.qpush w q n) s (s.laneTrap .queueMisuse 0 [] none) :=
  happens_of_trap rfl hcan (Act.bind_error (require_false (by simp; omega) _ _ _))

theorem qpop_misuse {q : BitVec 4} {n : BitVec 5} (hcan : Can (.qpop w q n) w s) (hq : q.toNat < 10 ∨ 11 < q.toNat) :
    Happens (.qpop w q n) s (s.laneTrap .queueMisuse 0 [] none) :=
  happens_of_trap rfl hcan (Act.bind_error (require_false (by simp; omega) _ _ _))

/-- QSTAT (R146). -/
theorem qstat_does {q : BitVec 4} {n : BitVec 5} (hcan : Can (.qstat w q n) w s) :
    Does (.qstat w q n) s (gave s n (BitVec.ofNat 64 (writtenBefore s q.toNat + 2 ^ 32 * queueDepth q.toNat)) 0) := by
  refine does_of_ok (show execQstat w q n s = _ from rfl) hcan ?_
  rw [Act.get_bind, CoreQueue.written_eq, Nat.mul_comm]
  rfl

/-- CONT (R147): four registers, read in turn. -/
theorem cont_cases {a b : BitVec 5} (hcan : Can (.cont w a b) w s) (ha : Free s (.s a)) (hb : Free s (.s b))
    (hb1 : Free s (.s (b + 1))) (hb2 : Free s (.s (b + 2))) :
    (s.me.conts.length < 16 → Does (.cont w a b) s (s.setMe { s.me with
      conts := s.me.conts ++ [{ wid := s.me.getS a, p0 := s.me.getS b, p1 := s.me.getS (b + 1), p2 := s.me.getS (b + 2) }] })) ∧
    (16 ≤ s.me.conts.length → Happens (.cont w a b) s (s.laneTrap .queueMisuse 0 [] none)) := by
  have hcore : core s = .ok (s.me, s) := rfl
  refine ⟨fun h => does_of_ok rfl hcan ?_, fun h => happens_of_trap rfl hcan ?_⟩ <;>
    rw [Act.bind_ok (readS_ok ha), Act.bind_ok (readS_ok hb), Act.bind_ok (readS_ok hb1), Act.bind_ok (readS_ok hb2),
      Act.bind_ok hcore]
  · rw [Act.bind_ok (require_true (by simpa using h) _ _ _)]
    rfl
  · exact Act.bind_error (require_false (by simpa using h) _ _ _)

end

/-- Settles O25: each instruction is judged by its operand, and then by the room, the head entry or the records of its queue. -/
theorem queueInstructions : Obligations.QueueInstructions :=
  ⟨fun _ _ _ => pushfmt_cases, fun _ _ _ _ => qpush_cases, fun _ _ _ _ => qpop_cases, fun _ _ _ _ => qpush_misuse,
    fun _ _ _ _ => qpop_misuse, fun _ _ _ _ => qstat_does, fun _ _ _ _ => cont_cases⟩

end Sys2Proof.Machine
end

section
/-! PROOFS. Launches and memory (O30): the table of launches and of contexts after a change, an address of yard memory and a
write there, a launch that ends, and a walker that has nothing to go on with. -/

namespace Sys2Proof.Machine
open Claims

/-! ### The tables -/

theorem State.id_of_launch? {s : State} {id : Nat} {l : Launch} (h : s.launch? id = some l) : l.id = id := by
  simpa using List.find?_some h

/-- A change of a launch leaves the place of every launch in the table. -/
theorem State.launch?_setLaunch (s : State) (l : Launch) (id : Nat) :
    (s.setLaunch l).launch? id = (s.launch? id).map fun x => if x.id = l.id then l else x := by
  unfold State.launch? State.setLaunch
  rw [List.find?_map]
  refine congrArg (Option.map _ <| List.find? · _) (funext fun x => ?_)
  simp only [Function.comp_apply]
  split
  · rename_i h; rw [h]
  · rfl

/-- A launch of the table reads as it was written. -/
theorem State.launch?_setLaunch_same {s : State} {l : Launch} (h : (s.launch? l.id).isSome = true) :
    (s.setLaunch l).launch? l.id = some l := by
  obtain ⟨x, hx⟩ := Option.isSome_iff_exists.mp h
  rw [s.launch?_setLaunch, hx, Option.map_some, if_pos (State.id_of_launch? hx)]

theorem State.isSome_launch?_setLaunch (s : State) (l : Launch) (id : Nat) :
    ((s.setLaunch l).launch? id).isSome = (s.launch? id).isSome := by
  rw [s.launch?_setLaunch, Option.isSome_map]

theorem State.isSome_launch?_append (s : State) (l : Launch) :
    (({ s with launches := s.launches ++ [l] } : State).launch? l.id).isSome = true := by
  simp [State.launch?]

theorem Sparse.find?_put {α : Type} (m : Sparse α) (k : Nat) (v : α) :
    (Sparse.put m k v).find? (·.1 = k) = some (k, v) := by
  induction m with
  | nil => simp [Sparse.put]
  | cons e m ih =>
    simp only [Sparse.put]
    split
    · simp
    · split
      · simp
      · rename_i h
        simp [Ne.symm h, ih]

/-- A context reads as it was written. -/
@[simp] theorem State.ctx?_setCtx (s : State) (id : Nat) (c : Context) : (s.setCtx id c).ctx? id = some c := by
  simp [State.ctx?, State.setCtx, Sparse.find?_put]

/-- A group of a context that exists reads as it was written. -/
theorem State.group_setGroup {s : State} {ctx : Nat} (g : Nat) (x : Group) (h : (s.ctx? ctx).isSome = true) :
    (s.setGroup ctx g x).group ctx g = x := by
  obtain ⟨c, hc⟩ := Option.isSome_iff_exists.mp h
  simp [State.setGroup, hc, State.group, Context.group]

/-- A change of a group changes the table of contexts alone. -/
theorem State.setGroup_eq (s : State) (ctx g : Nat) (x : Group) : ∃ cs, s.setGroup ctx g x = { s with ctxs := cs } := by
  unfold State.setGroup
  split
  · exact ⟨_, rfl⟩
  · exact ⟨s.ctxs, rfl⟩

/-! ### Yard memory -/

theorem inYard_iff (pa : Nat) : inYard pa = true ↔ 0x80_0000_0000 ≤ pa ∧ pa < 0x81_0000_0000 := by
  unfold inYard place Config.nearBase Config.yardBase
  simp only [Bool.and_eq_true, decide_eq_true_eq]
  constructor
  · intro h
    split at h <;> rename_i hp
    · split_ifs at hp; omega
    · cases h
  · intro h
    rw [if_neg (by omega), if_pos (by omega)]

/-- Yard memory is kept by its own addresses. -/
theorem State.key_of_inYard (s : State) {pa : Nat} (h : inYard pa = true) : s.key pa = pa := by
  unfold State.key
  split
  · rename_i hp; rw [inYard, hp] at h; cases h
  · rfl

theorem State.key_line_of_inYard (s : State) {pa : Nat} (h : inYard pa = true) : s.key (pa / 256 * 256) + pa % 256 = pa := by
  rw [inYard_iff] at h
  rw [s.key_of_inYard ((inYard_iff _).mpr (by omega))]
  omega

/-- A write in yard memory with no scrub pending changes its bytes and no others. -/
theorem wroteBytes_of_inYard {s : State} {pa : Nat} (bs : List Byte) (h : inYard pa = true) (hclean : s.scrubbed pa = false) :
    WroteBytes s (s.writeBytes pa bs) pa bs := fun a => by
  rw [byteAt, State.writeBytes_mem_of_clean hclean, s.key_line_of_inYard h, Mem.get_write]
  rfl

/-! ### The walker -/

/-- A walker in a phase whose tasks have not all started, nor all committed, stays there. -/
theorem State.goOn_of_waiting {s : State} {id : Nat} {l : Launch} (t : Nat) (h : s.launch? id = some l)
    (hdone : l.phaseDone l.phase = false) (hnext : l.next ≠ l.size l.phase) : s.goOn t id = s := by
  rw [State.goOn, show walkFuel = 2047 + 1 from rfl, State.walkOn, h]
  simp only [hdone, hnext, ite_self, Bool.false_eq_true, if_false]

/-- Clearing a plane changes memory and its marks alone. -/
theorem State.clearPlane_eq (s : State) (l : Launch) (p : Nat) :
    ∃ m po ts, s.clearPlane l p = { s with mem := m, poison := po, tags := ts } := by
  unfold State.clearPlane
  simp only
  split
  · exact ⟨s.mem, s.poison, s.tags, rfl⟩
  · exact ⟨_, _, _, rfl⟩

/-- A launch at the start of a phase that is no continuation walk (R29). -/
def Launch.atStart (l : Launch) (p base : Nat) : Launch := { l with
  phase := p, base := base, next := 0, delta := 0, halted := false, sizes := l.sizes.take p ++ [walkSize (l.record p)], digests := []
  heldConts := [], repaired := [], walkConts := l.walkConts.filter (·.1 ≠ p) }

/-- A phase with tasks starts, and the walker stays there. -/
theorem State.beginPhase_of_tasks {s : State} {l : Launch} {p : Nat} (base : Nat) (h : (s.launch? l.id).isSome = true)
    (hcont : phCont (l.record p) = false) (htasks : walkSize (l.record p) ≠ 0) (hp : p ≤ l.sizes.length) :
    s.beginPhase l p base = (s.setLaunch (l.atStart p base)).clearPlane (l.atStart p base) p ∧
      (s.beginPhase l p base).launch? l.id = some (l.atStart p base) := by
  have hstart : s.startPhase l p base = (s.setLaunch (l.atStart p base)).clearPlane (l.atStart p base) p := by
    simp [State.startPhase, hcont, Launch.atStart]
  have hread : (s.startPhase l p base).launch? l.id = some (l.atStart p base) := by
    rw [hstart]
    obtain ⟨m, po, ts, he⟩ := (s.setLaunch (l.atStart p base)).clearPlane_eq (l.atStart p base) p
    rw [he]
    exact State.launch?_setLaunch_same (l := l.atStart p base) h
  have hsize : (l.atStart p base).size p ≠ 0 := by
    have : (l.sizes.take p ++ [walkSize (l.record p)]).getD p 0 = walkSize (l.record p) := by
      simp [List.getD, hp]
    rwa [Launch.size, Launch.atStart, this]
  have hbegin : s.beginPhase l p base = s.startPhase l p base := by
    rw [State.beginPhase, hread]
    simp only [hsize, ne_eq, not_false_eq_true, if_true]
  exact ⟨hbegin.trans hstart, hbegin ▸ hread⟩

/-! ### The end of a launch -/

/-- A queue that closes keeps its records. -/
theorem State.closeQueue_eq (s : State) (q : Nat) :
    ∃ qs, s.closeQueue q = { s with lqs := qs } ∧ ∀ k, (Sparse.get {} qs k).recs = (s.lq k).recs := by
  unfold State.closeQueue
  simp only
  split
  · refine ⟨_, rfl, fun k => ?_⟩
    by_cases hk : k = q
    · rw [hk, Sparse.get_put_same, State.lq]
    · rw [Sparse.get_put_ne _ _ hk, State.lq]
  · exact ⟨s.lqs, rfl, fun k => rfl⟩

theorem State.toResume_of_none {s : State} (ctx g : Nat) (h : ∀ k ∈ s.launches, k.st ≠ .preempted) : s.toResume ctx g = none := by
  unfold State.toResume
  rw [List.filter_eq_nil_iff.mpr fun k hk => by simp [h k hk]]
  rfl

/-- The status word of a launch that ends is written, and its MSI sent (R350). -/
def State.reported (s : State) (l : Launch) (code : Nat) : State :=
  (if inYard l.stat then s.writeBytes l.stat (statusBytes code l.phase) else s).msi (BitVec.ofNat 64 l.msia) l.msid

theorem State.lq_reported (s : State) (l : Launch) (code q : Nat) : (s.reported l code).lq q = s.lq q := by
  unfold State.reported State.msi
  split <;> split <;> simp [State.lq]

theorem State.launches_reported (s : State) (l : Launch) (code : Nat) : (s.reported l code).launches = s.launches := by
  unfold State.reported State.msi
  split <;> split <;> simp

/-- A launch as it stands in the table once it has ended before its last commit. -/
def Launch.ended (l : Launch) (st : LaunchState) : Launch := { l with st := st, parked := [] }

theorem valBytes_mod (n x : Nat) : valBytes n (x % 256 ^ n) = valBytes n x := by
  induction n generalizing x with
  | zero => rfl
  | succ n ih =>
    have hlow : BitVec.ofNat 8 (x % 256 ^ (n + 1)) = BitVec.ofNat 8 x := by
      apply BitVec.eq_of_toNat_eq
      simp only [BitVec.toNat_ofNat]
      exact Nat.mod_mod_of_dvd x ⟨256 ^ n, by rw [Nat.pow_succ']⟩
    rw [valBytes, valBytes, hlow, ← ih (x / 256), Nat.pow_succ', Nat.mod_mul_right_div_self]

theorem State.writeStatus_eq (s : State) (l : Launch) (code : Nat) :
    s.writeDw l.stat (BitVec.ofNat 64 (code + l.phase % 256 * 256)) = s.writeBytes l.stat (statusBytes code l.phase) := by
  rw [State.writeDw, BitVec.toNat_ofNat, show 2 ^ 64 = 256 ^ 8 from rfl, valBytes_mod, statusBytes, Nat.mul_comm 256]

/-- A launch ends before its last commit, and none resumes: its tasks are discarded, its end is reported, and but for its entry in the
table only queues, groups and what the units remember of it change (R350, R354). -/
theorem State.finish_eq {s u : State} {l : Launch} (code : Nat) {st : LaunchState} (hst : st ≠ .complete) (hst' : st ≠ .preempted)
    (hu : s.dropTasks l.id = u) (hnone : ∀ k ∈ u.launches, k.st = .preempted → k.id = l.id) :
    ∃ qs cs ws rs ds hs as, s.finish l code st false = { (u.reported l code).setLaunch (l.ended st) with
        lqs := qs, ctxs := cs, windows := ws, rounds := rs, roundsDone := ds, held := hs, lateAmos := as } ∧
      ∀ q, (Sparse.get {} qs q).recs = (u.lq q).recs := by
  have hend : (s.endLaunch l code st false).2 = none ∧ ∃ qs cs ws rs ds hs as, (s.endLaunch l code st false).1 =
      { (u.reported l code).setLaunch (l.ended st) with
        lqs := qs, ctxs := cs, windows := ws, rounds := rs, roundsDone := ds, held := hs, lateAmos := as } ∧
      ∀ q, (Sparse.get {} qs q).recs = (u.lq q).recs := by
    unfold State.endLaunch
    extract_lets v w x l' y z t g mine busy frozen
    have hx : x = u.reported l code := by
      simp only [x, w, v, if_neg hst, hu, State.writeStatus_eq, State.reported]
    have hl' : l' = l.ended st := by simp only [l', if_neg hst, Launch.ended]
    have hz : ∃ ws rs ds hs as, z = { (u.reported l code).setLaunch (l.ended st) with
        windows := ws, rounds := rs, roundsDone := ds, held := hs, lateAmos := as } := by
      simp only [z, y, hx, hl']
      split
      · exact ⟨_, _, _, _, _, rfl⟩
      · exact ⟨_, _, _, _, _, rfl⟩
    obtain ⟨ws, rs, ds, hs, as, hz⟩ := hz
    obtain ⟨qs, ht, hrecs⟩ := z.closeQueue_eq l'.queue
    have hlq : ∀ q, z.lq q = u.lq q := fun q => by rw [hz]; exact u.lq_reported l code q
    change t = _ at ht
    clear_value frozen busy mine g t z y x l'
    have hresume : t.toResume l'.ctx l'.group = none := by
      refine State.toResume_of_none _ _ fun k hk => ?_
      rw [ht, hz] at hk
      obtain ⟨m, hm, rfl⟩ := List.mem_map.mp hk
      rw [State.launches_reported] at hm
      split
      · exact hst'
      · rename_i hid
        exact fun h => hid (hnone m hm h)
    have hlast : ∃ cs, (if g.st = .frozen && frozen then t else t.setGroup l'.ctx l'.group { g with st := .bound }) =
        { t with ctxs := cs } := by
      split
      · exact ⟨t.ctxs, rfl⟩
      · exact t.setGroup_eq ..
    obtain ⟨cs, hlast⟩ := hlast
    have hrecs' : ∀ q, (Sparse.get {} qs q).recs = (u.lq q).recs := fun q => (hrecs q).trans (congrArg _ (hlq q))
    simp only [hresume, hlast, Bool.false_eq_true, if_false]
    split <;> refine ⟨rfl, ?_⟩
    · exact ⟨qs, (u.reported l code).ctxs, ws, rs, ds, hs, as, by rw [ht, hz]; rfl, hrecs'⟩
    · exact ⟨qs, cs, ws, rs, ds, hs, as, by rw [ht, hz], hrecs'⟩
  obtain ⟨hnone, qs, cs, ws, rs, ds, hs, as, he, hrecs⟩ := hend
  refine ⟨qs, cs, ws, rs, ds, hs, as, ?_, hrecs⟩
  rw [← he, State.finish]
  split
  · rename_i h; rw [h] at hnone; cases hnone
  · rename_i h; rw [h]

/-! ### Taking a record -/

/-- The machine once the head record of a queue has been taken (R335, R351). -/
def State.taken (s : State) (q : Nat) (rest : List LqRecord) : State :=
  { s.setLq q { s.lq q with recs := rest, elev := 0, aged := 0 } with
    lastServed := s.lastServed.setIfInBounds (s.lq q).level q, nextLaunch := s.nextLaunch + 1 }

/-- The launch that a record makes. -/
def State.takenLaunch (s : State) (q : Nat) (x : LqRecord) : Launch :=
  { launchOf s.nextLaunch q (s.lq q).level x.bits with pushed := x.text, got := x.got }

/-- A launch comes into the table. -/
def State.withLaunch (s : State) (l : Launch) : State := { s with launches := s.launches ++ [l] }

section
variable {s : State} {q : Nat} {x : LqRecord} {rest : List LqRecord}
  (hacc : ∀ l ∈ s.launches, l.st ≠ .accepting) (hfw : s.firmwareRuns = true) (hnext : s.nextQueue = some q)
  (hrecs : (s.lq q).recs = x :: rest)
include hacc hfw hnext hrecs

/-- A record whose group is not bound is refused (R350). -/
theorem takeEff_of_unbound (hgroup : s.recordGroup q x.bits = none) :
    takeEff s q = some (((s.taken q rest).withLaunch (s.takenLaunch q x)).finish (s.takenLaunch q x) 4 .refused false) := by
  have hfind : s.launches.find? (·.st = .accepting) = none := by simpa using hacc
  unfold takeEff
  simp only [hfind, hrecs, hfw, hnext, hgroup, Option.any_none, Bool.and_false, Bool.not_true, ne_eq, not_true_eq_false, decide_false,
    Bool.or_self, Bool.false_eq_true, if_false]
  rfl

/-- A record of an idle group goes on to its checks (R351). -/
theorem takeEff_of_idle {ctx g : Nat} (hgroup : s.recordGroup q x.bits = some (ctx, g)) (hidle : s.launchesOf ctx g = []) :
    let l := s.takenLaunch q x
    takeEff s q = some ((((s.taken q rest).withLaunch l).accept l).getD ((s.taken q rest).withLaunch l)) := by
  intro l
  have hfind : s.launches.find? (·.st = .accepting) = none := by simpa using hacc
  have hlink : s.parkWaits ctx g = false := by rw [State.parkWaits, hidle]; rfl
  have hpre : (s.taken q rest).preempt ctx g (s.lq q).level = s.taken q rest := by
    have : (s.taken q rest).launchesOf ctx g = [] := hidle
    rw [State.preempt, this]; rfl
  unfold takeEff
  simp only [hfind, hrecs, hfw, hnext, hgroup, hlink, Option.any_some, Bool.and_false, Bool.not_true, ne_eq, not_true_eq_false,
    decide_false, Bool.or_self, Bool.false_eq_true, if_false]
  exact congrArg (fun t => some (((t.withLaunch l).accept l).getD (t.withLaunch l))) hpre

end

theorem State.msi_eq (s : State) (a : DWord) (d : Word) :
    s.msi a d = { s with msis := s.msis ++ if a.toNat = 0 then [] else [(a.toNat, d)] } := by
  unfold State.msi
  by_cases h : a = 0
  · simp [h]
  · have h' : a.toNat ≠ 0 := fun h0 => h (BitVec.eq_of_toNat_eq h0)
    rw [if_neg h, if_neg h']

/-- The launch of an unbound record is refused: the status word and the MSI, and nothing runs (R350). -/
theorem finish_refused {s : State} {q : Nat} {x : LqRecord} (rest : List LqRecord) (hnone : NoneParked s)
    (hok : recordOk x.bits = true) (hclean : s.scrubbed (bits x.bits.toNat 128 64) = false) (hcores : s.coresOf s.nextLaunch = []) :
    let t := ((s.taken q rest).withLaunch (s.takenLaunch q x)).finish (s.takenLaunch q x) 4 .refused false
    (t.lq q).recs = rest ∧ (t.launch? s.nextLaunch).map (·.st) = some .refused ∧ t.nextLaunch = s.nextLaunch + 1 ∧
      WroteBytes s t (bits x.bits.toNat 128 64) (statusBytes 4 0) ∧
      t.msis = s.msis ++ (if bits x.bits.toNat 192 64 = 0 then []
        else [(bits x.bits.toNat 192 64, BitVec.ofNat 32 (bits x.bits.toNat 256 32))]) := by
  intro t
  let l := s.takenLaunch q x
  let u := (s.taken q rest).withLaunch l
  have hyard : inYard l.stat = true := by
    simp only [recordOk, Bool.and_eq_true] at hok
    exact hok.2
  have hdrop : u.dropTasks l.id = u := by
    have : u.coresOf l.id = [] := hcores
    rw [State.dropTasks, this]; rfl
  have hrest : ∀ k ∈ u.launches, k.st = .preempted → k.id = l.id := fun k hk hp => by
    rcases List.mem_append.mp hk with hk | hk
    · exact absurd hp (hnone k hk)
    · rw [List.mem_singleton.mp hk]
  obtain ⟨qs, cs, ws, rs, ds, hs, as, ht, hrecs⟩ :=
    State.finish_eq (l := l) (st := .refused) 4 (by decide) (by decide) hdrop hrest
  change t = _ at ht
  rw [ht]
  have hrep : u.reported l 4 = (u.writeBytes l.stat (statusBytes 4 0)).msi (BitVec.ofNat 64 l.msia) l.msid := by
    rw [State.reported, if_pos hyard]; rfl
  have hmsi : l.msia < 2 ^ 64 := Nat.mod_lt _ (by decide)
  have hl : ((u.reported l 4).launch? l.id).isSome = true := by
    have : (u.reported l 4).launch? l.id = u.launch? l.id := by rw [State.launch?, State.launches_reported]; rfl
    rw [this]
    exact (s.taken q rest).isSome_launch?_append l
  refine ⟨?_, ?_, ?_, ?_, ?_⟩
  · refine (hrecs q).trans ?_
    change ((s.setLq q _).lq q).recs = rest
    rw [State.lq_setLq_same]
  · have := State.launch?_setLaunch_same (s := u.reported l 4) (l := l.ended .refused) hl
    exact congrArg (Option.map (·.st)) this
  · change (u.reported l 4).nextLaunch = _
    rw [hrep, State.msi_eq]
    exact u.writeBytes_nextLaunch _ (statusBytes 4 0)
  · have hmem : (u.reported l 4).mem = (u.writeBytes l.stat (statusBytes 4 0)).mem := by rw [hrep, State.msi_mem]
    exact fun a => (congrArg (Sparse.get _ · a) hmem).trans (wroteBytes_of_inYard (s := u) _ hyard hclean a)
  · change (u.reported l 4).msis = _
    rw [hrep, State.msi_eq, BitVec.toNat_ofNat, Nat.mod_eq_of_lt hmsi, State.writeBytes_msis]
    rfl

/-! ### Acceptance -/

/-- A launch whose kernel has been read and passes the checks (R351). -/
def Launch.accepted (l : Launch) (k : KernelText) : Launch :=
  { l with hdr := k.hdr, binds := k.binds, phases := k.phases, offs := k.offs, recorded := k.recorded, st := .running }

theorem State.setGroup_now (s : State) (ctx g : Nat) (x : Group) : (s.setGroup ctx g x).now = s.now := by
  obtain ⟨cs, h⟩ := s.setGroup_eq ctx g x
  rw [h]

/-- The launch of a live, bound group whose kernel has been read runs from its first phase. -/
theorem State.accept_of_read {s : State} {l : Launch} {c : Context} {k : KernelText} (hctx : s.ctx? l.ctx = some c)
    (hlive : c.destroying = false) (hst : (c.group l.group).st = .bound ∨ (c.group l.group).st = .running ∨
      (c.group l.group).st = .frozen) (hread : l.pushed = .ok k) :
    s.accept l = some (((s.setLaunch (l.accepted k)).setGroup l.ctx l.group { s.group l.ctx l.group with st := .running }).beginPhase
      (l.accepted k) 0 s.now) := by
  have hgroup : (s.group l.ctx l.group).st = (c.group l.group).st := by rw [State.group, hctx]
  have hbound : (false || !(decide ((c.group l.group).st = .bound) || decide ((c.group l.group).st = .running) ||
      decide ((c.group l.group).st = .frozen))) = false := by
    rcases hst with h | h | h <;> rw [h] <;> rfl
  unfold State.accept
  simp only [hctx, hlive, hread, hgroup, hbound, Bool.false_eq_true, if_false]
  rw [← hread, State.setGroup_now]
  rfl

/-- It runs, its group with it, and queues and cores are as before. -/
theorem State.accept_runs {s : State} {l : Launch} {c : Context} {k : KernelText} (hctx : s.ctx? l.ctx = some c)
    (hlive : c.destroying = false) (hst : (c.group l.group).st = .bound ∨ (c.group l.group).st = .running ∨
      (c.group l.group).st = .frozen) (hread : l.pushed = .ok k) (hsome : (s.launch? l.id).isSome = true)
    (hcont : phCont (k.phases.getD 0 0) = false) (htasks : walkSize (k.phases.getD 0 0) ≠ 0) :
    ∃ t, s.accept l = some t ∧ t.lqs = s.lqs ∧ t.cores = s.cores ∧ (t.group l.ctx l.group).st = .running ∧
      t.launch? l.id = some ((l.accepted k).atStart 0 s.now) := by
  obtain ⟨cs, hcs⟩ := (s.setLaunch (l.accepted k)).setGroup_eq l.ctx l.group { s.group l.ctx l.group with st := .running }
  have hgroup := State.group_setGroup (s := s.setLaunch (l.accepted k)) l.group { s.group l.ctx l.group with st := .running }
    (Option.isSome_iff_exists.mpr ⟨c, hctx⟩)
  refine ⟨_, State.accept_of_read hctx hlive hst hread, ?_⟩
  generalize (s.setLaunch (l.accepted k)).setGroup l.ctx l.group { s.group l.ctx l.group with st := .running } = v at hcs hgroup ⊢
  have hv : (v.launch? (l.accepted k).id).isSome = true := by
    have : v.launch? l.id = (s.setLaunch (l.accepted k)).launch? l.id := by rw [hcs]; rfl
    exact this ▸ (s.isSome_launch?_setLaunch (l.accepted k) l.id).trans hsome
  obtain ⟨hbegin, hl⟩ := State.beginPhase_of_tasks (s := v) (l := l.accepted k) (p := 0) s.now hv hcont htasks (Nat.zero_le _)
  refine ⟨?_, ?_, ?_, hl⟩
  all_goals
    obtain ⟨m, po, ts, hclear⟩ := (v.setLaunch ((l.accepted k).atStart 0 s.now)).clearPlane_eq ((l.accepted k).atStart 0 s.now) 0
    rw [hbegin, hclear]
  · rw [hcs]; rfl
  · rw [hcs]; rfl
  · exact congrArg (·.st) hgroup

/-- What a record's group is known by (R350): a bound group of a live context. -/
theorem State.group_of_recordGroup {s : State} {q ctx g : Nat} {r : BitVec 512} (h : s.recordGroup q r = some (ctx, g)) :
    ctx = bits r.toNat 64 16 ∧ g = bits r.toNat 80 16 ∧ ∃ c, s.ctx? ctx = some c ∧ c.destroying = false ∧
      ((c.group g).st = .bound ∨ (c.group g).st = .running ∨ (c.group g).st = .frozen) := by
  unfold State.recordGroup at h
  simp only at h
  split at h
  · cases h
  · rename_i c hc
    rw [Option.ite_none_right_eq_some] at h
    obtain ⟨hcond, heq⟩ := h
    obtain ⟨rfl, rfl⟩ := Prod.mk.injEq .. ▸ Option.some.inj heq
    simp only [Bool.and_eq_true, Bool.or_eq_true, Bool.not_eq_true', decide_eq_true_eq] at hcond
    obtain ⟨⟨⟨_, hlive⟩, _⟩, hst⟩ := hcond
    exact ⟨rfl, rfl, c, hc, hlive, or_assoc.mp hst⟩

/-- The launch of a bound, idle group runs from phase 0 (R351). -/
theorem accept_taken {s : State} {q ctx g : Nat} {x : LqRecord} {k : KernelText} (rest : List LqRecord)
    (hgroup : s.recordGroup q x.bits = some (ctx, g)) (hread : x.text = .ok k) (hcont : phCont (k.phases.getD 0 0) = false)
    (htasks : walkSize (k.phases.getD 0 0) ≠ 0) :
    ∃ t l, ((s.taken q rest).withLaunch (s.takenLaunch q x)).accept (s.takenLaunch q x) = some t ∧ (t.lq q).recs = rest ∧
      t.launch? s.nextLaunch = some l ∧ l.st = .running ∧ l.ctx = ctx ∧ l.group = g ∧ l.hdr = k.hdr ∧ l.binds = k.binds ∧
      l.phases = k.phases ∧ l.phase = 0 ∧ l.base = s.now ∧ l.next = 0 ∧ (t.group ctx g).st = .running ∧ t.cores = s.cores := by
  obtain ⟨rfl, rfl, c, hctx, hlive, hst⟩ := State.group_of_recordGroup hgroup
  obtain ⟨t, ht, hlqs, hcores, hrun, hl⟩ := State.accept_runs (s := (s.taken q rest).withLaunch (s.takenLaunch q x))
    (l := s.takenLaunch q x) hctx hlive hst hread ((s.taken q rest).isSome_launch?_append _) hcont htasks
  refine ⟨t, _, ht, ?_, hl, rfl, rfl, rfl, rfl, rfl, rfl, rfl, rfl, rfl, hrun, hcores⟩
  have hq : t.lq q = (s.setLq q { s.lq q with recs := rest, elev := 0, aged := 0 }).lq q := by
    rw [State.lq, hlqs]; rfl
  rw [hq, State.lq_setLq_same]

/-! ### The start of a task -/

/-- The task of a walk ordinal of a launch's running phase, as it stands in its core. -/
def Launch.taskAt (l : Launch) (n : Nat) : TaskId :=
  { ctx := l.ctx, launch := l.id, phase := l.phase, ordinal := n, wid := l.widAt l.phase n, attempt := l.attempt }

/-- The payload of the continuation record that a task starts from. -/
def Launch.payloadAt (l : Launch) (n : Nat) : Option ContRec :=
  if phCont (l.record l.phase) then (l.walkOf l.phase)[n]? else none

/-- A launch of which the task of walk ordinal `n` has started on logical core `k`. -/
def Launch.startedTask (l : Launch) (n k now : Nat) : Launch := { l with
  next := n + 1, lastStart := now
  placed := l.placed ++ if l.rerun || l.placed.any (fun x => x.1 = l.phase && x.2.1 = n) then [] else [(l.phase, n, k)] }

/-- A task starts that is not the last of its phase: nothing but its core and its launch changes. -/
theorem State.startTask_eq {s : State} {l : Launch} {n : Nat} (k : Nat) (h : s.launch? l.id = some l) (hnext : n + 1 < l.size l.phase)
    (hdone : l.phaseDone l.phase = false) :
    let p := physical (s.binding l) k
    s.startTask l n k = (s.setCr p ((s.cr p).start (l.taskAt n) (hdrEntry l.hdr)
      (startRegs (s.cr p).regs l.hdr (l.widAt l.phase n) (l.payloadAt n) k l.phase))).setLaunch (l.startedTask n k s.now) := by
  intro p
  have hread : ((s.setCr p ((s.cr p).start (l.taskAt n) (hdrEntry l.hdr)
      (startRegs (s.cr p).regs l.hdr (l.widAt l.phase n) (l.payloadAt n) k l.phase))).setLaunch (l.startedTask n k s.now)).launch? l.id =
        some (l.startedTask n k s.now) :=
    State.launch?_setLaunch_same (l := l.startedTask n k s.now) (h ▸ rfl)
  exact State.goOn_of_waiting s.now hread hdone (Nat.ne_of_lt hnext)

/-- A core at the start of a task (R23, R28). -/
theorem Core.started_start (c : Core) (t : TaskId) (entry : DWord) (h : BitVec 512) (payload : Option ContRec) (lcore : Nat) :
    Started (c.start t entry (startRegs c.regs h t.wid payload lcore t.phase)) t (entry &&& ~~~0x1F) lcore := by
  have henter : ∀ (c : Core) (ctx : Nat), ∃ m k i, c.enterCtx ctx = { c with matrix := m, kept := k, mapCtx := i } := fun c ctx => by
    unfold Core.enterCtx
    split
    · exact ⟨c.matrix, c.kept, c.mapCtx, rfl⟩
    · exact ⟨_, _, _, rfl⟩
  obtain ⟨m, k, i, he⟩ := henter c.vacate t.ctx
  unfold Core.start
  rw [he]
  exact ⟨rfl, rfl, rfl, rfl, rfl, rfl, rfl, rfl, rfl, rfl, rfl, rfl, rfl, rfl, rfl, rfl, rfl, rfl, rfl, rfl, rfl, rfl, rfl, rfl, rfl,
    rfl⟩

/-- The fields of the work identifier in i0 to i5 (R22). -/
theorem startRegs_i (old : Regs) (h : BitVec 512) (wid : DWord) (payload : Option ContRec) (lcore phase : Nat) {j : Nat} (hj : j < 6) :
    (startRegs old h wid payload lcore phase).i[j]? = some (BitVec.ofNat 32 (bits wid.toNat (hdrLow h j) (hdrWidth h j))) := by
  simp [startRegs, fieldsOf, hj]

/-- TASK_START of a launch with no stored task starts the next task of its phase, once nothing keeps it back (R26, R27, R29). -/
theorem startEff_of_ready {s : State} {id k : Nat} {l : Launch} (h : s.launch? id = some l) (hrun : l.st = .running)
    (hparked : l.parked = []) (hhalt : l.halted = false) (hmis : l.mismatched = false) (hnext : l.next < l.size l.phase)
    (htime : ∀ t, l.timed l.next = some t → t ≤ s.now ∧ s.now ≤ t + phSlack (l.record l.phase))
    (hpoison : s.predPoison l l.next = none) (hpreds : s.predsCommitted l l.next = true) (hpick : s.pickCore l l.next = some k) :
    startEff s id = some (s.startTask l l.next k) := by
  have hunpark : s.unpark l = none := by rw [State.unpark, hparked]; rfl
  unfold startEff
  simp only [h, hrun, hunpark, hhalt, hmis, hpoison, hpreds, hpick, Nat.not_le.mpr hnext]
  cases ht : l.timed l.next with
  | none => rfl
  | some t =>
    obtain ⟨hfrom, hto⟩ := htime t ht
    simp [hfrom, hto]

/-! ### Slips -/

/-- The first timed task past its slack (R30). -/
theorem Launch.slip_eq {l : Launch} {now n t0 : Nat} (hlow : l.next ≤ n) (hn : n < l.size l.phase) (ht : l.timed n = some t0)
    (hlate : t0 + phSlack (l.record l.phase) < now)
    (hearlier : ∀ m t, l.next ≤ m → m < n → l.timed m = some t → now ≤ t + phSlack (l.record l.phase)) : l.slip now = some n := by
  have hrange : (List.range (l.size l.phase)).drop l.next = List.range' l.next (l.size l.phase - l.next) := by
    rw [List.range_eq_range', List.drop_range']; simp
  unfold Launch.slip
  rw [hrange, List.find?_range'_eq_some]
  refine ⟨?_, List.mem_range'_1.mpr (by omega), fun j hj hjn => ?_⟩
  · simp only [ht]
    simpa using hlate
  · cases htj : l.timed j with
    | none => rfl
    | some t => simpa using hearlier j t hj hjn htj

/-- SCHEDULE_SLIP halts the walker and reports the task that has slipped (R30). -/
theorem slipEff_of_slip {s : State} {id n : Nat} {l : Launch} (h : s.launch? id = some l) (hrun : l.st = .running)
    (hhalt : l.halted = false) (hslip : l.slip s.now = some n) :
    let p := physical (s.binding l) (n % groupN (s.binding l))
    slipEff s id = some ((s.setLaunch { l with halted := true, slipped := n }).report
      ⟨p, [trapWord0 l.ctx p 0 0 5 0 .scheduleSlip, l.widAt l.phase n, 0, 0], none⟩) := by
  unfold slipEff
  simp only [h, hrun, hhalt, hslip]
  rfl

/-- WALKER_RESUME goes on, re-timed by the delta at hand, or by the lateness of the task that slipped (R30). -/
theorem resumeEff_of_halted {s : State} {id t0 : Nat} {l : Launch} (h : s.launch? id = some l) (hrun : l.st = .running)
    (hhalt : l.halted = true) (ht : l.timed l.slipped = some t0) :
    let delta := match s.deltas with
      | d :: _ => d.toNat
      | [] => s.now - t0
    resumeEff s id = some { s.setLaunch { l with halted := false, delta := l.delta + delta } with deltas := s.deltas.tail } := by
  unfold resumeEff
  simp only [h, hrun, hhalt, ht]
  cases s.deltas <;> rfl

/-! ### The obligation -/

/-- The record at the head of the queue served next is taken (R350, R351). -/
theorem launchTake_cases {s : State} {q : Nat} {x : LqRecord} {rest : List LqRecord}
    (hacc : ∀ l ∈ s.launches, l.st ≠ .accepting) (hnone : NoneParked s) (hfw : s.firmwareRuns = true) (hnext : s.nextQueue = some q)
    (hrecs : (s.lq q).recs = x :: rest) :
    let r := x.bits
    (s.recordGroup q r = none → recordOk r = true → s.scrubbed (bits r.toNat 128 64) = false → s.coresOf s.nextLaunch = [] →
      ∃ t, Happens (.launchTake q) s t ∧ (t.lq q).recs = rest ∧ (t.launch? s.nextLaunch).map (·.st) = some .refused ∧
        t.nextLaunch = s.nextLaunch + 1 ∧ WroteBytes s t (bits r.toNat 128 64) (statusBytes 4 0) ∧
        t.msis = s.msis ++ (if bits r.toNat 192 64 = 0 then [] else [(bits r.toNat 192 64, BitVec.ofNat 32 (bits r.toNat 256 32))])) ∧
    (∀ ctx g c k, s.recordGroup q r = some (ctx, g) → s.launchesOf ctx g = [] → s.ctx? ctx = some c →
      x.text = .ok k → phCont (k.phases.getD 0 0) = false →
      walkSize (k.phases.getD 0 0) ≠ 0 →
      ∃ t l, Happens (.launchTake q) s t ∧ (t.lq q).recs = rest ∧ t.launch? s.nextLaunch = some l ∧ l.st = .running ∧
        l.ctx = ctx ∧ l.group = g ∧ l.hdr = k.hdr ∧ l.binds = k.binds ∧ l.phases = k.phases ∧ l.phase = 0 ∧ l.base = s.now ∧
        l.next = 0 ∧ (t.group ctx g).st = .running ∧ t.cores = s.cores) := by
  intro r
  refine ⟨fun hgroup hok hclean hcores => ?_, fun ctx g c k hgroup hidle _ hread hcont htasks => ?_⟩
  · exact ⟨_, event_some (takeEff_of_unbound hacc hfw hnext hrecs hgroup), finish_refused rest hnone hok hclean hcores⟩
  · obtain ⟨t, l, haccept, hruns⟩ := accept_taken rest hgroup hread hcont htasks
    refine ⟨t, l, event_some ((takeEff_of_idle hacc hfw hnext hrecs hgroup hidle).trans ?_), hruns⟩
    rw [haccept, Option.getD_some]

/-- The next task of a phase starts (R28). -/
theorem taskStart_happens {s : State} {id k : Nat} {l : Launch} (h : s.launch? id = some l) (hrun : l.st = .running)
    (hparked : l.parked = []) (hhalt : l.halted = false) (hmis : l.mismatched = false) (hnext : l.next + 1 < l.size l.phase)
    (hdone : l.phaseDone l.phase = false)
    (htime : ∀ t, l.timed l.next = some t → t ≤ s.now ∧ s.now ≤ t + phSlack (l.record l.phase))
    (hpoison : s.predPoison l l.next = none) (hpreds : s.predsCommitted l l.next = true) (hpick : s.pickCore l l.next = some k) :
    let p := physical (s.binding l) k
    let wid := l.widAt l.phase l.next
    ∃ t, Happens (.taskStart id) s t ∧
      Started (t.cr p) { ctx := l.ctx, launch := id, phase := l.phase, ordinal := l.next, wid := wid, attempt := l.attempt }
        (hdrEntry l.hdr &&& ~~~0x1F) k ∧
      (∀ j < 6, (t.cr p).regs.i[j]? = some (BitVec.ofNat 32 (bits wid.toNat (hdrLow l.hdr j) (hdrWidth l.hdr j)))) ∧
      (phCont (l.record l.phase) = false → (t.cr p).regs.s = .replicate 32 0) ∧
      (∃ places, t.launch? id = some { l with next := l.next + 1, lastStart := s.now, placed := l.placed ++ places } ∧
        ∀ x ∈ places, x = (l.phase, l.next, k)) ∧ t.mem = s.mem ∧ OtherCores s t p := by
  intro p wid
  obtain rfl : l.id = id := State.id_of_launch? h
  let regs := startRegs (s.cr p).regs l.hdr wid (l.payloadAt l.next) k l.phase
  let t := (s.setCr p ((s.cr p).start (l.taskAt l.next) (hdrEntry l.hdr) regs)).setLaunch (l.startedTask l.next k s.now)
  have hstart : startEff s l.id = some t := by
    rw [startEff_of_ready h hrun hparked hhalt hmis (by omega) htime hpoison hpreds hpick, State.startTask_eq k h hnext hdone]
  have hcore : t.cr p = (s.cr p).start (l.taskAt l.next) (hdrEntry l.hdr) regs := State.cr_setCr_same ..
  have hregs : (t.cr p).regs = regs := by rw [hcore, Core.start]
  refine ⟨t, event_some hstart, ?_, fun j hj => ?_, fun hcont => ?_, ⟨_, State.launch?_setLaunch_same (l := l.startedTask l.next k s.now)
    (h ▸ rfl), fun x hx => ?_⟩, rfl, fun q hq => State.cr_setCr_ne s hq _⟩
  · rw [hcore]
    exact Core.started_start (s.cr p) (l.taskAt l.next) _ l.hdr (l.payloadAt l.next) k
  · rw [hregs]
    exact startRegs_i _ _ _ _ _ _ hj
  · rw [hregs]
    simp only [regs, startRegs, Launch.payloadAt, hcont, Bool.false_eq_true, if_false]
  · split at hx
    · cases hx
    · exact List.mem_singleton.mp hx

/-- Settles O30: the record taken is followed through its refusal or its acceptance, the task through its start, the slip and the
resumption through the walker's step. -/
theorem launchesRun : Obligations.LaunchesRun := by
  unfold Obligations.LaunchesRun
  refine ⟨fun _ _ _ _ => launchTake_cases, fun _ _ _ _ h hrun hparked hhalt hmis hnext hdone _ =>
    taskStart_happens h hrun hparked hhalt hmis hnext hdone, ?_, ?_⟩
  · intro s id n t0 l h hrun hhalt hlow hn ht hlate hearlier p wid
    obtain rfl : l.id = id := State.id_of_launch? h
    refine ⟨_, event_some (slipEff_of_slip h hrun hhalt (Launch.slip_eq hlow hn ht hlate hearlier)), ?_, rfl, rfl, rfl⟩
    exact State.launch?_setLaunch_same (l := { l with halted := true, slipped := n }) (h ▸ rfl)
  · intro s id t0 l h hrun hhalt ht
    obtain rfl : l.id = id := State.id_of_launch? h
    have hread : ∀ delta, (s.setLaunch { l with halted := false, delta := delta }).launch? l.id =
        some { l with halted := false, delta := delta } :=
      fun delta => State.launch?_setLaunch_same (l := { l with halted := false, delta := delta }) (h ▸ rfl)
    refine ⟨_, event_some (resumeEff_of_halted h hrun hhalt ht), fun hnil => ?_, fun d rest hcons => ⟨?_, ?_⟩, rfl, rfl⟩
    · rw [hnil]; exact hread _
    · rw [hcons]; exact hread _
    · rw [hcons]; rfl

end Sys2Proof.Machine
end

section
/-! PROOFS. Watchdogs, trap records and the heartbeat (O47): the fields of a record's first word, a core that a watchdog stops, the
order of the waiting records, yard memory read back after writes, and a yardmaster that is reset or started. -/

namespace Sys2Proof.Machine
open Claims

/-! ### Watchdogs -/

theorem Cause.code_lt (c : Cause) : c.code < 64 := by cases c <;> decide

/-- The fields of word 0 of a record (R388). -/
theorem bits_trapWord0 (ctx p kind obj strm : Nat) (c : Cause) :
    let w := (trapWord0 ctx p kind obj strm 0 c).toNat
    bits w 0 6 = c.code ∧ bits w 20 3 = strm % 8 ∧ bits w 28 3 = kind % 8 ∧ bits w 23 5 = obj % 32 := by
  have hc := c.code_lt
  simp only [trapWord0, bits, BitVec.toNat_ofNat, Nat.shiftRight_eq_div_pow]
  omega

theorem streamNo_lt (st : Stream) : streamNo st < 8 := by cases st <;> decide

/-- A core on which an exception of a stream has been taken: the stream halts in forked mode, and the stop waits to be placed (R178,
R389). -/
def Core.stoppedBy (c : Core) (st : Stream) : Core :=
  let c1 := if c.forked then c.setSt st { c.st st with hlt := true } else c
  { c1 with stops := c1.stops ++ [⟨if c.forked then some st else none, false⟩] }

/-- An exception on a compute core: the stop, and the record that waits for the FIFO (R388). -/
theorem State.takeTrap_of_compute (s : State) {p : Nat} (st : Stream) (lane : Nat) (c : Cause) (v : DWord) (kind obj swc : Nat)
    (h : isYard p = false) : ∃ ctx wid pos, s.takeTrap p st lane c v kind obj swc = (s.setCr p ((s.cr p).stoppedBy st)).report
      ⟨p, [trapWord0 ctx p kind obj (streamNo st) swc c, wid, pos, v], some (if (s.cr p).forked then some st else none)⟩ := by
  unfold State.takeTrap State.takeTrapAt
  rw [show ∀ t u : State, (if isYard p then t else u) = u from fun t u => if_neg (by simp [h])]
  exact ⟨_, _, _, rfl⟩

/-- Nothing else of the core changes but a halted stream's mark. -/
theorem Core.stoppedBy_fields (c : Core) (st : Stream) :
    (c.stoppedBy st).stops = c.stops ++ [⟨if c.forked then some st else none, false⟩] ∧ (c.stoppedBy st).regs = c.regs ∧
      (c.stoppedBy st).queues = c.queues ∧ (c.stoppedBy st).tokens = c.tokens ∧ (c.stoppedBy st).freezeDog = c.freezeDog ∧
      ((c.stoppedBy st).st st).wdog = (c.st st).wdog := by
  unfold Core.stoppedBy
  split
  · cases st <;> exact ⟨rfl, rfl, rfl, rfl, rfl, rfl⟩
  · cases st <;> exact ⟨rfl, rfl, rfl, rfl, rfl, rfl⟩

/-- A watchdog's exception on a core of which it has restarted a count and nothing else: the record, the stop, and the rest of the task
as it was. -/
theorem timeout_takeTrap {s : State} {p : Nat} {k : Core} (st : Stream) (lane : Nat) (c : Cause) (v : DWord) (kind obj : Nat)
    (hp : p < 512) (hforked : k.forked = (s.cr p).forked) (hstops : k.stops = (s.cr p).stops) (hregs : k.regs = (s.cr p).regs)
    (hqueues : k.queues = (s.cr p).queues) (htokens : k.tokens = (s.cr p).tokens) :
    let t := (s.setCr p k).takeTrap p st lane c v kind obj 0
    Timeout s t p st c kind obj ∧ (t.cr p).freezeDog = k.freezeDog ∧ ((t.cr p).st st).wdog = (k.st st).wdog := by
  intro t
  have hk : (s.setCr p k).cr p = k := State.cr_setCr_same ..
  obtain ⟨ctx, wid, pos, ht⟩ :=
    (s.setCr p k).takeTrap_of_compute st lane c v kind obj 0 (decide_eq_false (Nat.not_le.mpr hp) : isYard p = false)
  rw [hk, hforked] at ht
  have hcore : t.cr p = k.stoppedBy st := by rw [show t = _ from ht]; exact State.cr_setCr_same ..
  have hother : ∀ q, q ≠ p → t.cr q = s.cr q := fun q hq => by
    rw [show t = _ from ht]
    exact (State.cr_setCr_ne _ hq _).trans (State.cr_setCr_ne _ hq _)
  obtain ⟨hs, hr, hq, htok, hfreeze, hwait⟩ := k.stoppedBy_fields st
  obtain ⟨hcause, hstrm, hkind, hobj⟩ := bits_trapWord0 ctx p kind obj (streamNo st) c
  refine ⟨⟨⟨_, congrArg State.trapWait ht, rfl, rfl, hcause, hstrm.trans (Nat.mod_eq_of_lt (streamNo_lt st)), hkind, hobj⟩, ?_, ?_, ?_,
    ?_, State.takeTrap_mem .., hother⟩, ?_, ?_⟩
  all_goals rw [hcore]
  · rw [hs, hstops, hforked]
  · exact hr.trans hregs
  · exact hq.trans hqueues
  · exact htok.trans htokens
  · exact hfreeze
  · exact hwait

theorem awaiting_iff (s : State) (p : Nat) : Awaiting s p ↔ s.awaitsReply p = true := by
  simp [Awaiting, State.awaitsReply]

theorem Context.field_of_zero (off len : Nat) : ({ record := 0 } : Context).field off len = 0 := by
  simp only [Context.field, bits, BitVec.ofNat_eq_ofNat, BitVec.toNat_zero, Nat.zero_shiftRight, Nat.zero_mod]

/-- The limits of a core, the default where its context is gone. -/
theorem limitOf_freeze (s : State) (p : Nat) : limitOf s p 66 20 = (s.limits p).freezeLimit := by
  unfold limitOf State.limits Context.freezeLimit
  cases s.ctx? (s.cr p).ctxId with
  | none => rw [Option.getD_none, Context.field_of_zero, if_pos rfl]
  | some x => rfl

theorem limitOf_wait (s : State) (p : Nat) : limitOf s p 67 24 = (s.limits p).waitLimit := by
  unfold limitOf State.limits Context.waitLimit
  cases s.ctx? (s.cr p).ctxId with
  | none => rw [Option.getD_none, Context.field_of_zero, if_pos rfl]
  | some x => rfl

/-- The object that a wait names (R343). -/
theorem Wait.code_of_memory {w : Wait} (h : ∀ k i, w ≠ .object k i) : w.code = (0, 0) := by
  unfold Wait.code
  split
  · exact absurd rfl (h _ _)
  · rfl

/-- FREEZE_WATCHDOG_EXPIRY of a joined core that is frozen by its own stall alone (R32). -/
theorem freezeWatchdog_cases {s : State} {p : Nat} {st : Stream} {w : Wait} (hstall : (s.cr p).stalled = some (st, w)) (hp : p < 512)
    (hjoined : (s.cr p).forked = false) (hfreeze : (s.cr p).freezeHeld = false) (hthaw : (s.cr p).thawed = false)
    (hstops : (s.cr p).stops = []) :
    (Awaiting s p → Happens (.freezeWatchdogExpiry p) s s) ∧
    ((s.cr p).freezeDog + 1 < limitOf s p 66 20 → Happens (.freezeWatchdogExpiry p) s s) ∧
    (¬ Awaiting s p → limitOf s p 66 20 ≤ (s.cr p).freezeDog + 1 → ∃ t, Happens (.freezeWatchdogExpiry p) s t ∧
      (t.cr p).freezeDog = 0 ∧ (∀ kind idx, w = .object kind idx → Timeout s t p st .freezeTimeout kind idx) ∧
      ((∀ kind idx, w ≠ .object kind idx) → Timeout s t p st .freezeTimeout 0 0)) := by
  have hyard : isYard p = false := decide_eq_false (Nat.not_le.mpr hp)
  have heff : freezeDogEff s p =
      if s.awaitsReply p = true ∨ (s.cr p).freezeDog + 1 < limitOf s p 66 20 then none
      else some ((s.setCr p { s.cr p with freezeDog := 0 }).takeTrap p st (s.cr p).c.lane .freezeTimeout ((s.cr p).waitInfo w)
        w.code.1 w.code.2 0) := by
    rw [limitOf_freeze]
    simp [freezeDogEff, hstall, hyard, hjoined, Core.frozen, hfreeze, hthaw, hstops]
  refine ⟨fun h => event_none (heff.trans (if_pos (.inl ((awaiting_iff s p).mp h)))),
    fun h => event_none (heff.trans (if_pos (.inr h))), fun hawait hlimit => ?_⟩
  have hnot : ¬(s.awaitsReply p = true ∨ (s.cr p).freezeDog + 1 < limitOf s p 66 20) := fun h =>
    h.elim (fun h => hawait ((awaiting_iff s p).mpr h)) (Nat.not_lt.mpr hlimit)
  obtain ⟨htime, hdog, -⟩ := timeout_takeTrap (s := s) (k := { s.cr p with freezeDog := 0 }) st (s.cr p).c.lane .freezeTimeout
    ((s.cr p).waitInfo w) w.code.1 w.code.2 hp rfl rfl rfl rfl rfl
  refine ⟨_, event_some (heff.trans (if_neg hnot)), hdog, fun kind idx hw => ?_, fun hw => ?_⟩
  · subst hw; exact htime
  · rw [Wait.code_of_memory hw] at htime ⊢; exact htime

/-- What a stream waits for on its watchdog (R32). -/
def WaitsFor (s : State) (p : Nat) (st : Stream) (kind idx : Nat) : Prop :=
  let x := (s.cr p).st st
  (s.cr p).forked = true ∧ x.hlt = false ∧ x.out = false ∧
      (x.wait = some (.object kind idx) ∨
        ((∀ k i, x.wait ≠ some (.object k i)) ∧ ∃ f, x.jn = some f ∧ kind = 7 ∧ idx = f.toNat)) ∨
    ((s.cr p).forked = false ∧ st = .c ∧ (s.cr p).stops = [] ∧ s.commitWait p = some (.object kind idx))

theorem State.countedWait_of_waitsFor {s : State} {p kind idx : Nat} {st : Stream} (hp : p < 512) (hfreeze : (s.cr p).freezeHeld = false)
    (hthaw : (s.cr p).thawed = false) (hawait : s.awaitsReply p = false) (h : WaitsFor s p st kind idx) :
    s.countedWait p st = some (.object kind idx) := by
  have hguard : (isYard p || (s.cr p).frozen || s.awaitsReply p) = false := by
    simp [isYard, hp, Core.frozen, hfreeze, hthaw, hawait]
  unfold State.countedWait
  simp only [hguard, Bool.false_eq_true, if_false]
  rcases h with ⟨hforked, hhlt, hout, hwait⟩ | ⟨hjoined, rfl, hstops, hcommit⟩
  · simp only [hforked, hhlt, hout, Bool.or_self, Bool.false_eq_true, if_false, if_true]
    rcases hwait with hwait | ⟨hnone, f, hjoin, rfl, rfl⟩
    · rw [hwait]
    · split
      · rename_i k i hk; exact absurd hk (hnone k i)
      · rw [hjoin]
  · simp [hjoined, hstops, hcommit]

/-- WAIT_WATCHDOG_EXPIRY (R32). -/
theorem waitWatchdog_cases {s : State} {p kind idx : Nat} {st : Stream} (hp : p < 512) (hfreeze : (s.cr p).freezeHeld = false)
    (hthaw : (s.cr p).thawed = false) (h : WaitsFor s p st kind idx) :
    (Awaiting s p → Happens (.waitWatchdogExpiry p st) s s) ∧
    (((s.cr p).st st).wdog + 1 < limitOf s p 67 24 → Happens (.waitWatchdogExpiry p st) s s) ∧
    (¬ Awaiting s p → limitOf s p 67 24 ≤ ((s.cr p).st st).wdog + 1 → ∃ t, Happens (.waitWatchdogExpiry p st) s t ∧
      ((t.cr p).st st).wdog = 0 ∧ Timeout s t p st .waitTimeout kind idx) := by
  have hidle : s.awaitsReply p = true → waitDogEff s p st = none := fun ha => by
    simp [waitDogEff, State.countedWait, ha]
  have heff : s.awaitsReply p = false → waitDogEff s p st =
      if ((s.cr p).st st).wdog + 1 < limitOf s p 67 24 then none
      else some ((s.setCr p ((s.cr p).setSt st { (s.cr p).st st with wdog := 0 })).takeTrap p st ((s.cr p).st st).lane .waitTimeout
        ((s.cr p).waitInfo (.object kind idx)) kind idx 0) := fun ha => by
    rw [limitOf_wait, waitDogEff, State.countedWait_of_waitsFor hp hfreeze hthaw ha h]; rfl
  refine ⟨fun ha => event_none (hidle ((awaiting_iff s p).mp ha)), fun hlt => event_none ?_, fun hawait hlimit => ?_⟩
  · cases ha : s.awaitsReply p with
    | true => exact hidle ha
    | false => exact (heff ha).trans (if_pos hlt)
  · have ha : s.awaitsReply p = false := Bool.not_eq_true _ ▸ fun h => hawait ((awaiting_iff s p).mpr h)
    obtain ⟨htime, -, hdog⟩ := timeout_takeTrap (s := s) (k := (s.cr p).setSt st { (s.cr p).st st with wdog := 0 }) st
      ((s.cr p).st st).lane .waitTimeout ((s.cr p).waitInfo (.object kind idx)) kind idx hp (by simp) (by cases st <;> rfl) (by simp)
      (by simp) (by simp)
    refine ⟨_, event_some ((heff ha).trans (if_neg (Nat.not_lt.mpr hlimit))), hdog.trans ?_, htime⟩
    cases st <;> rfl

/-! ### The trap FIFO -/

theorem mem_insertBy {α : Type} (f : α → Nat) (x y : α) (l : List α) : y ∈ insertBy f x l ↔ y = x ∨ y ∈ l := by
  induction l with
  | nil => simp [insertBy]
  | cons z l ih =>
    unfold insertBy
    split
    · simp
    · simp only [List.mem_cons, ih]; tauto

theorem mem_foldl_insertBy {α : Type} (f : α → Nat) (y : α) (xs l : List α) :
    y ∈ xs.foldl (fun ys x => insertBy f x ys) l ↔ y ∈ xs ∨ y ∈ l := by
  induction xs generalizing l with
  | nil => simp
  | cons x xs ih => simp only [List.foldl_cons, ih, mem_insertBy, List.mem_cons]; tauto

theorem insertBy_of_lt {α : Type} {f : α → Nat} {x : α} {l : List α} (h : ∀ y ∈ l, f x < f y) : insertBy f x l = x :: l := by
  cases l with
  | nil => rfl
  | cons y l => exact if_pos (h y List.mem_cons_self)

/-- The least element stays ahead of all that come after it. -/
theorem foldl_insertBy_cons {α : Type} {f : α → Nat} {x : α} {xs : List α} (h : ∀ y ∈ xs, f x ≤ f y) (l : List α) :
    ∃ l', xs.foldl (fun ys x => insertBy f x ys) (x :: l) = x :: l' := by
  induction xs generalizing l with
  | nil => exact ⟨l, rfl⟩
  | cons y xs ih =>
    obtain ⟨hy, hxs⟩ := List.forall_mem_cons.mp h
    rw [List.foldl_cons, show insertBy f y (x :: l) = x :: insertBy f y l from if_neg (Nat.not_lt.mpr hy)]
    exact ih hxs _

/-- The first of the least elements comes first. -/
theorem sortBy_of_first {α : Type} {f : α → Nat} {x : α} {pre post : List α} (hpre : ∀ y ∈ pre, f x < f y)
    (hpost : ∀ y ∈ post, f x ≤ f y) : ∃ l, sortBy f (pre ++ x :: post) = x :: l := by
  unfold sortBy
  rw [List.foldl_append, List.foldl_cons, insertBy_of_lt fun y hy => hpre y (by simpa [mem_foldl_insertBy] using hy)]
  exact foldl_insertBy_cons hpost _

/-- Records in the order of time, core and source (R388). -/
theorem TrapRec.key_eq (y : Nat × TrapRec) :
    TrapRec.key y = y.1 * 2 ^ 16 + y.2.core % 2 ^ 10 * 8 + bits (y.2.words.getD 0 0).toNat 20 3 := rfl

/-- The order by a key with wider fields is the same. -/
theorem TrapRec.key_lt_iff (x y : Nat × TrapRec) :
    (x.1 * 2 ^ 10 + x.2.core % 2 ^ 10) * 2 ^ 6 + bits (x.2.words.getD 0 0).toNat 20 3 <
      (y.1 * 2 ^ 10 + y.2.core % 2 ^ 10) * 2 ^ 6 + bits (y.2.words.getD 0 0).toNat 20 3 ↔ TrapRec.key x < TrapRec.key y := by
  have hx : bits (x.2.words.getD 0 0).toNat 20 3 < 8 := Nat.mod_lt _ (by decide)
  have hy : bits (y.2.words.getD 0 0).toNat 20 3 < 8 := Nat.mod_lt _ (by decide)
  rw [key_eq, key_eq]
  omega

/-- The first stop of a source that is not placed counts as placed. -/
theorem placeStop_append {st : Option Stream} {a : List TrapStop} (b : List TrapStop) (h : ∀ z ∈ a, z.st = st → z.placed = true) :
    placeStop st (a ++ ⟨st, false⟩ :: b) = a ++ ⟨st, true⟩ :: b := by
  induction a with
  | nil => simp [placeStop]
  | cons z a ih =>
    obtain ⟨hz, ha⟩ := List.forall_mem_cons.mp h
    have hnot : (decide (z.st = st) && !z.placed) = false := by
      by_cases hst : z.st = st
      · simp [hz hst]
      · simp [hst]
    rw [List.cons_append, placeStop, hnot, if_neg Bool.false_ne_true, ih ha, List.cons_append]

/-- TRAP_RECORD_PLACE of the first waiting record (R388). -/
theorem trapRecordPlace_cases {s : State} {x : Nat × TrapRec} {pre post : List (Nat × TrapRec)} (hwait : s.trapWait = pre ++ x :: post)
    (hpre : ∀ y ∈ pre, TrapRec.key x < TrapRec.key y) (hpost : ∀ y ∈ post, TrapRec.key x ≤ TrapRec.key y) :
    (256 * 4 < s.trapFifo.length + 4 → Happens .trapRecordPlace s s) ∧
    (s.trapFifo.length + 4 ≤ 256 * 4 → ∃ t, Happens .trapRecordPlace s t ∧ t.trapFifo = s.trapFifo ++ x.2.words ∧
      t.trapWait = pre ++ post ∧ t.mem = s.mem ∧ (x.2.stop = none → t.cores = s.cores) ∧
      ∀ st a b, x.2.stop = some st → (s.cr x.2.core).stops = a ++ ⟨st, false⟩ :: b → (∀ z ∈ a, z.st = st → z.placed = true) →
        t = { s with trapFifo := t.trapFifo, trapWait := t.trapWait, cores := t.cores } ∧ OtherCores s t x.2.core ∧
        t.cr x.2.core = { s.cr x.2.core with stops := a ++ ⟨st, true⟩ :: b }) := by
  obtain ⟨l, hsort⟩ := sortBy_of_first hpre hpost
  have herase : (pre ++ x :: post).erase x = pre ++ post := by
    have hx : x ∉ pre := fun h => lt_irrefl _ (hpre x h)
    rw [List.erase_append_right _ hx, List.erase_cons_head]
  have heff : placeEff s = if 1024 < s.trapFifo.length + 4 then none
      else
        let u := { s with trapWait := pre ++ post, trapFifo := s.trapFifo ++ x.2.words }
        match x.2.stop with
        | none => some u
        | some st => some (u.setCr x.2.core { s.cr x.2.core with stops := placeStop st (s.cr x.2.core).stops }) := by
    unfold placeEff
    rw [hwait, hsort]
    simp only [herase]
    rfl
  refine ⟨fun hfull => event_none (heff.trans (if_pos hfull)), fun hroom => ?_⟩
  rw [if_neg (Nat.not_lt.mpr hroom)] at heff
  cases hstop : x.2.stop with
  | none =>
    rw [hstop] at heff
    exact ⟨_, event_some heff, rfl, rfl, rfl, fun _ => rfl, fun _ _ _ h => nomatch h⟩
  | some st =>
    rw [hstop] at heff
    refine ⟨_, event_some heff, rfl, rfl, rfl, fun h => absurd h (Option.some_ne_none st), fun st' a b hst hstops hplaced => ?_⟩
    obtain rfl := Option.some.inj hst
    refine ⟨rfl, fun q hq => State.cr_setCr_ne _ hq _, ?_⟩
    rw [State.cr_setCr_same, hstops, placeStop_append b hplaced]

/-! ### Yard memory read back -/

/-- A byte of yard memory as it reads: zero where its line is scrub-pending (R257). -/
def State.yardByte (s : State) (a : Nat) : Byte := if s.scrubbed a then 0 else Sparse.get Config.blankByte s.mem a

/-- The addresses of a line are scrub-pending together. -/
theorem State.scrubbed_congr (s : State) {a b : Nat} (h : a / 256 = b / 256) : s.scrubbed a = s.scrubbed b := by
  rw [State.scrubbed, State.scrubbed, State.tag, State.tag, show a / 32768 = b / 32768 by omega,
    show a % 32768 / 256 = b % 32768 / 256 by omega]

/-- A write ends the scrub of its own line and of no other (R393). -/
theorem State.scrubbed_writeBytes (s : State) (pa : Nat) (bs : List Byte) (a : Nat) :
    (s.writeBytes pa bs).scrubbed a = (s.scrubbed a && decide (a / 256 ≠ pa / 256)) := by
  cases hscrub : s.scrubbed pa with
  | false =>
    have htags : (s.writeBytes pa bs).tags = s.tags := by simp [State.writeBytes, hscrub]
    have : (s.writeBytes pa bs).scrubbed a = s.scrubbed a := by simp only [State.scrubbed, State.tag, htags]
    rw [this]
    by_cases h : a / 256 = pa / 256
    · rw [s.scrubbed_congr h, hscrub, Bool.false_and]
    · simp [h]
  | true =>
    have htags : (s.writeBytes pa bs).tags = Sparse.set {} s.tags (pa / 32768)
        { s.tag pa with scrub := (s.tag pa).scrub &&& ~~~(1#128 <<< (pa % 32768 / 256)) } := by
      unfold State.writeBytes
      simp only [hscrub, if_true]
      rfl
    unfold State.scrubbed State.tag
    rw [htags, Sparse.get_set]
    by_cases hframe : a / 32768 = pa / 32768
    · have hline : a / 256 = pa / 256 ↔ pa % 32768 / 256 = a % 32768 / 256 := by omega
      have hlt : a % 32768 / 256 < 128 := by omega
      rw [if_pos hframe, show Sparse.get {} s.tags (a / 32768) = s.tag pa by rw [State.tag, hframe]]
      simp only [BitVec.getLsbD_and, BitVec.getLsbD_not, BitVec.getLsbD_shiftLeft, BitVec.getLsbD_one, hlt, decide_true,
        Bool.true_and]
      congr 1
      by_cases h : pa % 32768 / 256 = a % 32768 / 256
      · simp [hline.mpr h, h]
      · have : ¬ a / 256 = pa / 256 := fun h' => h (hline.mp h')
        simp [this]
        omega
    · have hne : a / 256 ≠ pa / 256 := by omega
      rw [if_neg hframe, decide_eq_true hne, Bool.and_true]

/-- What a write within a line of yard memory leaves to be read. -/
theorem State.yardByte_writeBytes (s : State) {pa a : Nat} {bs : List Byte} (hpa : inYard pa = true) (hlen : pa % 256 + bs.length ≤ 256) :
    (s.writeBytes pa bs).yardByte a = if pa ≤ a ∧ a < pa + bs.length then bs.getD (a - pa) 0 else s.yardByte a := by
  have hkey : s.key (pa / 256 * 256) = pa / 256 * 256 := s.key_of_inYard ((inYard_iff _).mpr (by have := (inYard_iff _).mp hpa; omega))
  have hat : pa / 256 * 256 + pa % 256 = pa := by omega
  have hin : pa ≤ a ∧ a < pa + bs.length → a / 256 = pa / 256 := fun h => by omega
  unfold State.yardByte
  rw [State.scrubbed_writeBytes]
  cases hscrub : s.scrubbed pa with
  | false =>
    rw [State.writeBytes_mem_of_clean hscrub, hkey, hat, Mem.get_write]
    by_cases h : pa ≤ a ∧ a < pa + bs.length
    · simp [h, hin h]
    · by_cases hl : a / 256 = pa / 256
      · simp [h, hl, s.scrubbed_congr hl, hscrub]
      · simp [h, hl]
  | true =>
    rw [State.writeBytes_mem_of_scrubbed hscrub, hkey, hat, Mem.get_write, Mem.get_write_zeros]
    by_cases h : pa ≤ a ∧ a < pa + bs.length
    · simp [h, hin h]
    · by_cases hl : a / 256 = pa / 256
      · have : pa / 256 * 256 ≤ a ∧ a < pa / 256 * 256 + 256 := by omega
        simp [h, hl, s.scrubbed_congr hl, hscrub, this]
      · have : ¬(pa / 256 * 256 ≤ a ∧ a < pa / 256 * 256 + 256) := by omega
        simp [h, hl, this]

/-- A read within a line of yard memory gives its bytes. -/
theorem State.readBytes_of_inYard (s : State) {pa n : Nat} (hpa : inYard pa = true) (hlen : pa % 256 + n ≤ 256) :
    s.readBytes pa n = (List.range n).map fun i => s.yardByte (pa + i) := by
  have hline : ∀ i < n, s.scrubbed (pa + i) = s.scrubbed pa := fun i hi => s.scrubbed_congr (by omega)
  unfold State.readBytes State.yardByte
  rw [s.key_of_inYard hpa, Mem.read_eq]
  cases hscrub : s.scrubbed pa with
  | false =>
    rw [if_neg Bool.false_ne_true]
    refine List.map_congr_left fun i hi => ?_
    rw [hline i (List.mem_range.mp hi), hscrub, if_neg Bool.false_ne_true]
  | true =>
    rw [if_pos rfl]
    refine (List.eq_replicate_iff.mpr ⟨by simp, fun b hb => ?_⟩).symm
    obtain ⟨i, hi, rfl⟩ := List.mem_map.mp hb
    rw [hline i (List.mem_range.mp hi), hscrub, if_pos rfl]

/-- What has been written is read back. -/
theorem State.readBytes_writeBytes_same (s : State) {pa n : Nat} {bs : List Byte} (hpa : inYard pa = true) (hn : bs.length = n)
    (hlen : pa % 256 + n ≤ 256) : (s.writeBytes pa bs).readBytes pa n = bs := by
  rw [State.readBytes_of_inYard _ hpa hlen]
  refine List.ext_getElem (by simp [hn]) fun i hi hi' => ?_
  have hin : pa ≤ pa + i ∧ pa + i < pa + bs.length := by omega
  simp only [List.getElem_map, List.getElem_range]
  rw [s.yardByte_writeBytes hpa (by omega), if_pos hin, Nat.add_sub_cancel_left, List.getD_eq_getElem _ _ hi']

/-- A write elsewhere leaves what is read. -/
theorem State.readBytes_writeBytes_apart (s : State) {pa a n : Nat} {bs : List Byte} (hpa : inYard pa = true) (ha : inYard a = true)
    (hlen : pa % 256 + bs.length ≤ 256) (hn : a % 256 + n ≤ 256) (happart : pa + bs.length ≤ a ∨ a + n ≤ pa) :
    (s.writeBytes pa bs).readBytes a n = s.readBytes a n := by
  rw [State.readBytes_of_inYard _ ha hn, State.readBytes_of_inYard _ ha hn]
  refine List.map_congr_left fun i hi => ?_
  have := List.mem_range.mp hi
  rw [s.yardByte_writeBytes hpa hlen, if_neg (by omega)]

theorem length_valBytes (n x : Nat) : (valBytes n x).length = n := by
  induction n generalizing x with
  | zero => rfl
  | succ n ih => simp [valBytes, ih]

theorem bytesVal_valBytes (n x : Nat) : bytesVal (valBytes n x) = x % 256 ^ n := by
  induction n generalizing x with
  | zero => simp [valBytes, bytesVal, Nat.mod_one]
  | succ n ih =>
    rw [valBytes, bytesVal, ih, BitVec.toNat_ofNat, show 256 ^ (n + 1) = 256 * 256 ^ n from Nat.pow_succ', Nat.mod_mul]

/-! ### The trap ring -/

/-- One entry of a ring in yard memory, the producer index and the MSI (R419). -/
theorem State.writeRing_one {s : State} {c : Context} {e : List Byte} (he : e.length = 64) (halign : c.ring % 64 = 0)
    (hlow : inYard c.ring = true) (hhigh : inYard (c.ring + 64 + 64 * 2 ^ c.trl2) = true) (hmsi : c.msia ≠ 0) (hmsi' : c.msia < 2 ^ 64) :
    let made := s.readNat c.ring 8
    let t := s.writeRing c [e]
    t.trapFifo = s.trapFifo ∧ t.msis = s.msis ++ [(c.msia, c.msid)] ∧ t.cores = s.cores ∧ t.ctxs = s.ctxs ∧
      t.readBytes (c.ring + 64 + 64 * (made % 2 ^ c.trl2)) 64 = e ∧ t.readNat c.ring 8 = (made + 1) % 2 ^ 64 := by
  intro made t
  generalize hn : made % 2 ^ c.trl2 = n
  have hroom : n < 2 ^ c.trl2 := hn ▸ Nat.mod_lt _ (Nat.two_pow_pos _)
  have hentry : inYard (c.ring + 64 + 64 * n) = true := by
    rw [inYard_iff] at *; omega
  let u := s.writeBytes (c.ring + 64 + 64 * n) e
  let v := u.writeBytes c.ring (valBytes 8 ((made + 1) % 2 ^ 64))
  have ht : t = { v with msis := s.msis ++ [(c.msia, c.msid)] } := by
    have : t = v.msi (BitVec.ofNat 64 c.msia) c.msid := by
      simp only [t, v, u, State.writeRing, State.ringIndex, State.writeDw, List.zipIdx, List.foldl, Nat.add_zero, List.length_cons,
        List.length_nil, BitVec.toNat_ofNat, ← hn]
      rfl
    rw [this, State.msi_eq, BitVec.toNat_ofNat, Nat.mod_eq_of_lt hmsi', if_neg hmsi]
    simp only [v, u, State.writeBytes_msis]
  have hread : ∀ a n, t.readBytes a n = v.readBytes a n := fun a n => by rw [ht]; rfl
  rw [State.readNat, hread, hread, ht]
  refine ⟨by simp [v, u], rfl, by simp [v, u], by simp [v, u], ?_, ?_⟩
  · rw [u.readBytes_writeBytes_apart hlow hentry (by rw [length_valBytes]; omega) (by omega) (by rw [length_valBytes]; omega)]
    exact s.readBytes_writeBytes_same hentry he (by omega)
  · rw [u.readBytes_writeBytes_same hlow (length_valBytes _ _) (by omega), bytesVal_valBytes]
    exact Nat.mod_mod _ _

/-! ### The firmware's reading of the trap FIFO -/

/-- The machine once its firmware has read a word: the record that the firmware holds goes on. -/
def State.fwRead (s : State) (ws : List DWord) (r : List DWord) : State := { s with trapFifo := ws, fwRecord := r }

/-- What TRAPQ_POP does with the word that it reads (R387, R388). -/
theorem trapqEff_of_word {s : State} {y : Nat} {w : DWord} {ws : List DWord} (hup : s.yardUp y = true) (hfifo : s.trapFifo = w :: ws) :
    let r := (if 4 ≤ s.fwRecord.length then [] else s.fwRecord) ++ [w]
    let u := s.fwRead ws r
    let w0 := (r.getD 0 0).toNat
    trapqEff s y = if r.length < 4 then some u
      else if bits w0 0 6 = 0x08 then
        some { u with tileFaults := u.tileFaults ++ [(u.recordTask (bits w0 40 16) (bits w0 31 9) (r.getD 1 0), r)] }
      else u.forward r := by
  unfold trapqEff State.popTrapq
  rw [hup, hfifo]
  rfl

theorem State.forward_of_kept (s : State) {r : List DWord} (h : forwards (bits (r.getD 0 0).toNat 0 6) = false) :
    s.forward r = some s := by
  unfold State.forward
  simp only [h, Bool.not_false, if_true]

/-- The task of a record whose core still holds it. -/
theorem State.recordTask_of_held {s : State} {ctx p : Nat} {wid : DWord} {task : TaskId} (h : (s.cr p).task = some task)
    (hctx : task.ctx = ctx) (hwid : task.wid = wid) : s.recordTask ctx p wid = task := by
  simp [State.recordTask, h, hctx, hwid]

/-- A record of a forwarded cause waits while its context's ring is full (R419). -/
theorem State.forward_of_full {s : State} {r : List DWord} {c : Context} (h : forwards (bits (r.getD 0 0).toNat 0 6) = true)
    (hctx : s.ctx? (bits (r.getD 0 0).toNat 40 16) = some c) (hfull : s.ringRoom c 1 = false) : s.forward r = none := by
  unfold State.forward
  simp only [h, hctx, hfull, Bool.not_true, Bool.not_false, Bool.false_eq_true, if_true, if_false]

/-- The context of a record whose forwarding awaits a reply keeps its place in the ring and its task (R390). -/
theorem State.forward_of_room {s : State} {r : List DWord} {c : Context} (h : forwards (bits (r.getD 0 0).toNat 0 6) = true)
    (hctx : s.ctx? (bits (r.getD 0 0).toNat 40 16) = some c) (hroom : s.ringRoom c 1 = true) :
    let w0 := (r.getD 0 0).toNat
    let t := s.writeRing c [ringEntry r]
    ∃ x, s.forward r = some (if Machine.awaitsReply (bits w0 0 6) then
      t.setCtx (bits w0 40 16) { c with forwarded := c.forwarded ++ [⟨s.readNat c.ring 8 % 2 ^ c.trl2, bits w0 31 9, x⟩] } else t) := by
  intro w0 t
  refine ⟨t.recordTask (bits w0 40 16) (bits w0 31 9) (r.getD 1 0), ?_⟩
  unfold State.forward
  simp only [h, hctx, hroom, Bool.not_true, Bool.false_eq_true, if_false]
  split <;> rfl

theorem forwards_iff (code : Nat) : forwards code = true ↔
    code ∈ [0x01, 0x02, 0x03, 0x04, 0x05, 0x06, 0x07, 0x09, 0x0A, 0x0B, 0x0C, 0x0D, 0x10, 0x12, 0x13, 0x14] := List.contains_iff_mem

theorem awaitsReply_iff (code : Nat) : awaitsReply code = true ↔ code ∈ [0x09, 0x10, 0x13, 0x14] := List.contains_iff_mem

theorem length_ringEntry (r : List DWord) : (ringEntry r).length = 64 := by
  simp [ringEntry, List.length_flatMap, length_valBytes]

theorem State.ringRoom_one (s : State) (c : Context) :
    s.ringRoom c 1 = decide ((s.readNat c.ring 8 + 2 ^ 64 - s.readNat (c.ring + 8) 8) % 2 ^ 64 < 2 ^ c.trl2) := rfl

/-- A record of a forwarded cause reaches its context's ring (R390, R419). -/
theorem State.forward_happens {s : State} {r : List DWord} {c : Context} (h : forwards (bits (r.getD 0 0).toNat 0 6) = true)
    (hctx : s.ctx? (bits (r.getD 0 0).toNat 40 16) = some c) (hroom : s.ringRoom c 1 = true) (halign : c.ring % 64 = 0)
    (hlow : inYard c.ring = true) (hhigh : inYard (c.ring + 64 + 64 * 2 ^ c.trl2) = true) (hmsi : c.msia ≠ 0)
    (hmsi' : c.msia < 2 ^ 64) :
    let w0 := (r.getD 0 0).toNat
    let made := s.readNat c.ring 8
    ∃ t, s.forward r = some t ∧ t.trapFifo = s.trapFifo ∧ t.msis = s.msis ++ [(c.msia, c.msid)] ∧ t.cores = s.cores ∧
      t.readBytes (c.ring + 64 + 64 * (made % 2 ^ c.trl2)) 64 = ringEntry r ∧ t.readNat c.ring 8 = (made + 1) % 2 ^ 64 ∧
      ∀ f, (t.ctx? (bits w0 40 16)).map (·.forwarded) = some f →
        (Machine.awaitsReply (bits w0 0 6) = true → ∃ x, f = c.forwarded ++ [⟨made % 2 ^ c.trl2, bits w0 31 9, x⟩]) ∧
        (Machine.awaitsReply (bits w0 0 6) = false → f = c.forwarded) := by
  intro w0 made
  obtain ⟨x, ht⟩ := State.forward_of_room h hctx hroom
  obtain ⟨hfifo, hmsis, hcores, hctxs, hentry, hindex⟩ :=
    State.writeRing_one (length_ringEntry r) halign hlow hhigh hmsi hmsi'
  cases hawait : Machine.awaitsReply (bits w0 0 6) with
  | true =>
    rw [if_pos hawait] at ht
    refine ⟨_, ht, hfifo, hmsis, hcores, hentry, hindex, fun f hf => ⟨fun _ => ⟨x, ?_⟩, fun h => nomatch h⟩⟩
    rw [State.ctx?_setCtx] at hf
    exact (Option.some.inj hf).symm
  | false =>
    rw [if_neg (hawait ▸ Bool.false_ne_true)] at ht
    refine ⟨_, ht, hfifo, hmsis, hcores, hentry, hindex, fun f hf => ⟨fun h => (nomatch h), fun _ => ?_⟩⟩
    have hsame : (s.writeRing c [ringEntry r]).ctx? (bits w0 40 16) = some c := by rw [State.ctx?, hctxs]; exact hctx
    rw [hsame] at hf
    exact (Option.some.inj hf).symm

/-- TRAPQ_POP (R387, R388, R390). -/
theorem trapqPop_cases {s : State} {y : Nat} {w : DWord} {ws : List DWord} (hup : s.yardUp y = true) (hfifo : s.trapFifo = w :: ws) :
    let r := (if 4 ≤ s.fwRecord.length then [] else s.fwRecord) ++ [w]
    let u := { s with trapFifo := ws, fwRecord := r }
    let w0 := (r.getD 0 0).toNat
    (r.length < 4 → Happens (.trapqPop y) s u) ∧
    (4 ≤ r.length → bits w0 0 6 ∈ [0x0E, 0x0F, 0x11, 0x15, 0x16] → Happens (.trapqPop y) s u) ∧
    (4 ≤ r.length → bits w0 0 6 = 0x08 → ∃ x, Happens (.trapqPop y) s { u with tileFaults := u.tileFaults ++ [(x, r)] } ∧
      ∀ task, (s.cr (bits w0 31 9)).task = some task → task.ctx = bits w0 40 16 → task.wid = r.getD 1 0 → x = task) ∧
    ∀ c, 4 ≤ r.length → bits w0 0 6 ∈ [0x01, 0x02, 0x03, 0x04, 0x05, 0x06, 0x07, 0x09, 0x0A, 0x0B, 0x0C, 0x0D, 0x10, 0x12, 0x13, 0x14] →
      s.ctx? (bits w0 40 16) = some c →
      let made := s.readNat c.ring 8
      let used := s.readNat (c.ring + 8) 8
      ((made + 2 ^ 64 - used) % 2 ^ 64 = 2 ^ c.trl2 → Happens (.trapqPop y) s s) ∧
      ((made + 2 ^ 64 - used) % 2 ^ 64 < 2 ^ c.trl2 → c.ring % 64 = 0 → c.trl2 ≤ 16 → inYard c.ring = true →
        inYard (c.ring + 64 + 64 * 2 ^ c.trl2) = true → c.msia ≠ 0 → c.msia < 2 ^ 64 →
        ∃ t, Happens (.trapqPop y) s t ∧ t.trapFifo = ws ∧ t.msis = s.msis ++ [(c.msia, c.msid)] ∧ t.cores = s.cores ∧
          t.readBytes (c.ring + 64 + 64 * (made % 2 ^ c.trl2)) 64 = (List.range 8).flatMap (fun i => valBytes 8 (r.getD i 0).toNat) ∧
          t.readNat c.ring 8 = (made + 1) % 2 ^ 64 ∧
          ∀ f, (t.ctx? (bits w0 40 16)).map (·.forwarded) = some f →
            (bits w0 0 6 ∈ [0x09, 0x10, 0x13, 0x14] → ∃ x, f = c.forwarded ++ [⟨made % 2 ^ c.trl2, bits w0 31 9, x⟩]) ∧
            (bits w0 0 6 ∉ [0x09, 0x10, 0x13, 0x14] → f = c.forwarded)) := by
  intro r u w0
  have heff : trapqEff s y = if r.length < 4 then some u
      else if bits w0 0 6 = 0x08 then
        some { u with tileFaults := u.tileFaults ++ [(u.recordTask (bits w0 40 16) (bits w0 31 9) (r.getD 1 0), r)] }
      else u.forward r := trapqEff_of_word hup hfifo
  have hforward : 4 ≤ r.length → bits w0 0 6 ≠ 0x08 → trapqEff s y = u.forward r := fun hlen hcode =>
    heff.trans ((if_neg (Nat.not_lt.mpr hlen)).trans (if_neg hcode))
  refine ⟨fun hlen => event_some (heff.trans (if_pos hlen)), fun hlen hcode => ?_, fun hlen hcode => ?_, fun c hlen hcode hctx => ?_⟩
  · have hkept : forwards (bits w0 0 6) = false ∧ bits w0 0 6 ≠ 0x08 := by
      revert hcode; generalize bits w0 0 6 = code; revert code; decide
    exact event_some ((hforward hlen hkept.2).trans (u.forward_of_kept hkept.1))
  · exact ⟨_, event_some (heff.trans ((if_neg (Nat.not_lt.mpr hlen)).trans (if_pos hcode))),
      fun task htask hc hw => State.recordTask_of_held (s := u) htask hc hw⟩
  · have hne : bits w0 0 6 ≠ 0x08 := fun h => by rw [h] at hcode; exact absurd hcode (by decide)
    have hfwd := (forwards_iff _).mpr hcode
    intro made used
    refine ⟨fun hfull => event_none ((hforward hlen hne).trans (State.forward_of_full hfwd (s := u) hctx ?_)),
      fun hroom halign _ hlow hhigh hmsi hmsi' => ?_⟩
    · rw [State.ringRoom_one]
      exact decide_eq_false (Nat.not_lt.mpr (Nat.le_of_eq hfull.symm))
    · obtain ⟨t, ht, hf, hm, hc, he, hi, hlist⟩ := State.forward_happens (s := u) hfwd hctx
        (decide_eq_true hroom) halign hlow hhigh hmsi hmsi'
      refine ⟨t, event_some ((hforward hlen hne).trans ht), hf, hm, hc, he, hi, fun f hmap => ⟨fun ha => ?_, fun ha => ?_⟩⟩
      · exact (hlist f hmap).1 ((awaitsReply_iff _).mpr ha)
      · exact (hlist f hmap).2 (Bool.not_eq_true _ ▸ fun h => ha ((awaitsReply_iff _).mp h))

/-! ### The heartbeat -/

/-- A core from which nothing but loads is on its way has nothing to run to completion (R110). -/
theorem State.flushCore_of_quiet {s : State} {p : Nat} (h : Quiet (s.cr p)) : s.flushCore p = s := by
  obtain ⟨hstores, hamos, harrives, hbuf⟩ := h
  have hloads : ∀ x ∈ (s.cr p).inOrder, x.load = true := fun x hx => by
    have hx' := ((mem_foldl_insertBy _ x _ _).mp hx).resolve_right List.not_mem_nil
    simp only [Core.pending, hstores, hamos, harrives, List.map_nil, List.append_nil, List.mem_map] at hx'
    obtain ⟨l, -, rfl⟩ := hx'
    rfl
  have hC : s.flushC p = s := by
    unfold State.flushC
    generalize (s.cr p).inOrder = xs at hloads
    induction xs with
    | nil => rfl
    | cons x xs ih =>
      obtain ⟨hx, hxs⟩ := List.forall_mem_cons.mp hloads
      simp only [List.foldl_cons, hamos, harrives, List.find?_nil, List.any_nil, Bool.false_eq_true, if_false, hx, if_true]
      exact ih hxs
  rw [State.flushCore, hC, State.flushD, hbuf]
  rfl

/-- A yardmaster held in reset: its registers keep their values, and the Plovelm and the other yardmaster are as before. -/
theorem State.resetYard_of_quiet {s : State} {p : Nat} (hp : p = 512 ∨ p = 513) (h : Quiet (s.cr p)) :
    let t := s.resetYard p
    t.plovelm = s.plovelm ∧ t.primary1 = s.primary1 ∧ t.yard p = { s.yard p with inReset := true } ∧
      t.yard (1025 - p) = s.yard (1025 - p) := by
  intro t
  have ht : t = ((s.setCr p (s.cr p).afterReset).keepSent p).setYard p { s.yard p with inReset := true } := by
    simp only [t, State.resetYard, State.flushCore_of_quiet h]
  rw [ht]
  refine ⟨?_, ?_, State.yard_setYard .., (State.yard_setYard_other _ hp _).trans rfl⟩
  · rw [State.setYard_plovelm]; rfl
  · rw [State.setYard_primary1]; rfl

/-- A slot's body stands at its place once it has been loaded (R437). -/
theorem State.loadSlot_bytes (s : State) (b : Bool) {k : Nat} (hk : k < s.plovelm.imageLen b) :
    byteAt (s.loadSlot b) (Config.firmwareBase + k) = (s.plovelm.body b).getD k 0 := by
  have hlen : (s.plovelm.body b).length = s.plovelm.imageLen b := Mem.length_read ..
  have hin : Config.firmwareBase ≤ Config.firmwareBase + k ∧ Config.firmwareBase + k < Config.firmwareBase + (s.plovelm.body b).length := by
    omega
  unfold byteAt State.loadSlot
  simp only [Mem.get_write, if_pos hin, Nat.add_sub_cancel_left]

/-- A yardmaster that has started runs the slot's entry line in the state of R412. -/
theorem State.startYard_onSlot (s : State) {p : Nat} (hp : p = 512 ∨ p = 513) (b : Bool) (s1 : DWord) (missed : Option Bool) :
    let t := s.startYard p b s1 missed
    OnSlot t p b s1 missed ∧ t.plovelm = { s.plovelm with activeB := b } ∧ t.primary1 = s.primary1 ∧
      t.yard (1025 - p) = s.yard (1025 - p) := by
  intro t
  have hpl : t.plovelm = { s.plovelm with activeB := b } := by
    simp only [t, State.startYard, State.setYard_plovelm]; rfl
  have hcr : t.cr p = { (s.cr p).afterReset with
      regs := { s := (Vector.replicate 32 0).setIfInBounds 1 s1 }
      c := { line := BitVec.ofNat 64 (Config.firmwareBase + s.plovelm.entry b) } } := by
    have : t.cores = ((s.loadSlot b).setCr p _).cores := State.setYard_cores ..
    rw [State.cr, this]
    exact State.cr_setCr_same ..
  have hmem : t.mem = (s.loadSlot b).mem := State.setYard_mem ..
  refine ⟨⟨State.yard_setYard .., ?_, by rw [hpl], fun k hk => ?_⟩, hpl, ?_, (State.yard_setYard_other _ hp _).trans rfl⟩
  · rw [hcr, hpl]; rfl
  · rw [hpl] at hk ⊢
    rw [byteAt, hmem]
    exact s.loadSlot_bytes b hk
  · simp only [t, State.startYard, State.setYard_primary1]; rfl

/-- HEARTBEAT restarts the limit and ends a pending SWITCH (R417). -/
theorem heartbeat_happens {s : State} {y : Nat} (hup : s.yardUp y = true) :
    ∃ t, Happens (.heartbeat y) s t ∧ t.yard (512 + y) = { s.yard (512 + y) with hb := 0 } ∧ t.cores = s.cores ∧ t.mem = s.mem ∧
      t.plovelm = (if 512 + y = s.primary then { s.plovelm with switch := none } else s.plovelm) := by
  have heff : (if s.yardUp y then some (s.beat (yardCore y)) else none) = some (s.beat (512 + y)) := if_pos hup
  let u := s.setYard (512 + y) { s.yard (512 + y) with hb := 0 }
  have hpl : u.plovelm = s.plovelm := State.setYard_plovelm ..
  have hprimary : u.primary = s.primary := by rw [State.primary, State.setYard_primary1]; rfl
  have hbeat : s.beat (512 + y) = if 512 + y = s.primary then { u with plovelm := { s.plovelm with switch := none } } else u := by
    rw [← hprimary, ← hpl]; rfl
  refine ⟨_, event_some heff, ?_⟩
  rw [hbeat]
  split
  · exact ⟨State.yard_setYard .., State.setYard_cores .., State.setYard_mem .., rfl⟩
  · exact ⟨State.yard_setYard .., State.setYard_cores .., State.setYard_mem .., hpl⟩

/-- A register of the Plovelm after an extension (R414). -/
theorem Plovelm.extended_extend (v : Plovelm) {r : Nat} (hr : r < 16) (d : BitVec 512) : Extended v (v.extend r d) r d := by
  refine ⟨?_, fun k hk => ?_, rfl⟩
  · simp [Plovelm.extend, hr]
  · simp [Plovelm.extend, Ne.symm hk]

/-- The primary yardmaster that has missed its heartbeat is held in reset for good (R418). -/
def State.failedYard (s : State) (p : Nat) : State :=
  (s.resetYard p).setYard p { (s.resetYard p).yard p with failed := true }

/-- The Plovelm when the slot left by a SWITCH is restored: its image is extended, and the SWITCH is over (R417). -/
def Plovelm.restored (v : Plovelm) (left : Bool) : Plovelm := { v.extend 8 (v.imageDigest left) with switch := none }

theorem heartbeatLimitEff_of_early {s : State} {y : Nat} (h : (s.yard (512 + y)).hb < 32000000) : heartbeatLimitEff s y = none := by
  unfold heartbeatLimitEff yardCore
  simp [h]

section
variable {s : State} {y : Nat} (hy : y < 2) (hprimary : 512 + y = s.primary) (hup : (s.yard (512 + y)).inReset = false)
include hy hprimary hup

/-- Past the limit after a SWITCH the slot left runs again if it verifies (R417). -/
theorem heartbeatLimitEff_of_switch {left : Bool} {addr : DWord} (h : 32000000 ≤ (s.yard (512 + y)).hb)
    (hswitch : s.plovelm.switch = some (left, addr)) :
    heartbeatLimitEff s y = some (if s.plovelm.verify left ≠ 0 then s.resetYard (512 + y)
      else { s.resetYard (512 + y) with plovelm := s.plovelm.restored left }.startYard (512 + y) left addr (some s.plovelm.activeB)) := by
  unfold heartbeatLimitEff yardCore
  simp only [hup, hswitch, decide_eq_false (Nat.not_le.mpr hy), decide_eq_false (Nat.not_lt.mpr h), ← hprimary, ne_eq,
    not_true_eq_false, decide_false, Bool.or_self, Bool.false_eq_true, if_false]
  split <;> rfl

/-- Past the limit with no SWITCH pending the standby is promoted if it has not failed itself (R418). -/
theorem heartbeatLimitEff_of_none (h : 32000000 ≤ (s.yard (512 + y)).hb) (hswitch : s.plovelm.switch = none) :
    heartbeatLimitEff s y = some (if (s.yard (1025 - (512 + y))).failed then s.failedYard (512 + y)
      else { s.failedYard (512 + y) with primary1 := 1025 - (512 + y) = 513 }.startYard (1025 - (512 + y)) s.plovelm.activeB 0
        (some s.plovelm.activeB)) := by
  unfold heartbeatLimitEff yardCore
  simp only [hup, hswitch, decide_eq_false (Nat.not_le.mpr hy), decide_eq_false (Nat.not_lt.mpr h), ← hprimary, ne_eq,
    not_true_eq_false, decide_false, Bool.or_self, Bool.false_eq_true, if_false]
  split <;> rfl

/-- HEARTBEAT_LIMIT_EXPIRY of the primary yardmaster (R417, R418). -/
theorem heartbeatLimitExpiry_cases (hquiet : Quiet (s.cr (512 + y))) :
    let p := 512 + y
    let v := s.plovelm
    ((s.yard p).hb < 32000000 → Happens (.heartbeatLimitExpiry y) s s) ∧
    (32000000 ≤ (s.yard p).hb →
      (∀ left addr, v.switch = some (left, addr) →
        (v.verify left = 0 → ∃ t, Happens (.heartbeatLimitExpiry y) s t ∧ OnSlot t p left addr (some v.activeB) ∧
          t.plovelm.switch = none ∧ Extended v t.plovelm 8 (v.imageDigest left) ∧ t.primary = p) ∧
        (v.verify left ≠ 0 → ∃ t, Happens (.heartbeatLimitExpiry y) s t ∧ (t.yard p).inReset = true ∧ t.plovelm = v)) ∧
      (v.switch = none → ∃ t, Happens (.heartbeatLimitExpiry y) s t ∧ (t.yard p).inReset = true ∧ (t.yard p).failed = true ∧
        ((s.yard (513 - y)).failed = false → OnSlot t (513 - y) v.activeB 0 (some v.activeB) ∧ t.primary = 513 - y) ∧
        ((s.yard (513 - y)).failed = true → t.yard (513 - y) = s.yard (513 - y) ∧ t.primary = p))) := by
  intro p v
  have hp : p = 512 ∨ p = 513 := by omega
  obtain ⟨hpl, hprim, hyard, hother⟩ := State.resetYard_of_quiet hp hquiet
  have hprimary1 : ∀ t : State, t.primary1 = s.primary1 → t.primary = p := fun t h => by
    rw [State.primary, h]; exact hprimary.symm
  refine ⟨fun h => event_none (heartbeatLimitEff_of_early h), fun h => ⟨fun left addr hswitch => ?_, fun hswitch => ?_⟩⟩
  · have heff := heartbeatLimitEff_of_switch hy hprimary hup h hswitch
    refine ⟨fun hverify => ?_, fun hverify => ?_⟩
    · rw [if_neg (not_not_intro hverify)] at heff
      obtain ⟨hslot, hplov, hprim', -⟩ := State.startYard_onSlot
        { s.resetYard p with plovelm := v.restored left } hp left addr (some v.activeB)
      refine ⟨_, event_some heff, hslot, congrArg Plovelm.switch hplov, ?_, hprimary1 _ (hprim'.trans hprim)⟩
      rw [hplov]
      exact v.extended_extend (by decide) _
    · rw [if_pos hverify] at heff
      exact ⟨_, event_some heff, by rw [hyard], hpl⟩
  · have heff := heartbeatLimitEff_of_none hy hprimary hup h hswitch
    have hq : 1025 - p = 513 - y := by omega
    have hq' : 1025 - p = 512 ∨ 1025 - p = 513 := by omega
    have hback : 1025 - (1025 - p) = p := by omega
    have hfy : (s.failedYard p).yard p = { s.yard p with inReset := true, failed := true } := by
      rw [State.failedYard, State.yard_setYard, hyard]
    have hfo : (s.failedYard p).yard (1025 - p) = s.yard (1025 - p) := (State.yard_setYard_other _ hp _).trans hother
    have hfp : (s.failedYard p).primary1 = s.primary1 := (State.setYard_primary1 ..).trans hprim
    rw [← hq]
    cases hfail : (s.yard (1025 - p)).failed with
    | true =>
      rw [if_pos hfail] at heff
      exact ⟨_, event_some heff, by rw [hfy], by rw [hfy], fun h => (nomatch h), fun _ => ⟨hfo, hprimary1 _ hfp⟩⟩
    | false =>
      rw [if_neg (hfail ▸ Bool.false_ne_true)] at heff
      obtain ⟨hslot, -, hprim', hyard'⟩ := State.startYard_onSlot { s.failedYard p with primary1 := 1025 - p = 513 } hq' v.activeB 0
        (some v.activeB)
      have hkept := (hback ▸ hyard').trans hfy
      refine ⟨_, event_some heff, by rw [hkept], by rw [hkept], fun _ => ⟨hslot, ?_⟩, fun h => nomatch h⟩
      rw [State.primary, hprim']
      rcases hq' with h | h <;> rw [h] <;> rfl

end

/-- Settles O47, a conjunct for each of the watchdogs, the placement of records, the firmware's reading of them, and the heartbeat. -/
theorem trapsAndWatchdogs : Obligations.TrapsAndWatchdogs := by
  unfold Obligations.TrapsAndWatchdogs
  refine ⟨fun _ _ _ _ => freezeWatchdog_cases, fun _ _ _ _ _ hp hfreeze hthaw h => waitWatchdog_cases hp hfreeze hthaw h, ?_,
    fun _ _ _ _ => trapqPop_cases, fun _ _ => heartbeat_happens, fun _ _ hy hprimary hup => heartbeatLimitExpiry_cases hy hprimary hup⟩
  intro s x pre post key hwait hpre hpost
  exact trapRecordPlace_cases hwait (fun y hy => (TrapRec.key_lt_iff x y).mp (hpre y hy))
    fun y hy => Nat.not_lt.mp fun h => Nat.not_lt.mpr (hpost y hy) ((TrapRec.key_lt_iff y x).mpr h)

end Sys2Proof.Machine
end

section
/-! PROOFS. An abort on a table of cores that lists one core twice (O31). -/

namespace Sys2Proof.Machine
open Claims

/-! ### A core that is listed twice -/

/-- A launch that runs and has no status word. -/
def unreportedLaunch : Launch :=
  { id := 1, queue := 2, level := 0, ctx := 5, group := 0, stat := 0, msia := 0, msid := 0, khdr := 0, hdr := 1, binds := [],
    phases := [2], offs := [[]], st := .running, sizes := [2] }

/-- A store of the byte 1 to the first byte of yard memory, which nothing holds back. -/
def looseStore : LinStore := { va := 0, pa := 0x80_0000_0000, size := 1, val := 1, kind := 0, seq := 0, due := 0 }

/-- Core 3 stands in the table twice: first with no task and a store in flight, then with a task of the launch. The functions that go
over the table see both entries, and a read of core 3 sees the first alone. -/
def listedTwice : State :=
  { launches := [unreportedLaunch], nextLaunch := 2
    cores := [(3, { stores := [looseStore] }), (3, { task := some { ctx := 5, launch := 1, phase := 0, ordinal := 0 } })] }

/-- No core reads as one that holds a task of the launch. -/
theorem task_listedTwice (q : Nat) : (listedTwice.cr q).task = none := by
  by_cases h : q = 3
  · rw [h]; rfl
  · have hne : 3 ≠ q := Ne.symm h
    simp [State.cr, listedTwice, Sparse.get, hne]

/-- The launch's abort finds the task's entry, and flushes the store of the entry that core 3 reads as. -/
theorem abort_listedTwice :
    (abortEff listedTwice 1 5).map (fun t => byteAt t 0x80_0000_0000) = some 1 ∧ byteAt listedTwice 0x80_0000_0000 ≠ 1 := by
  decide +kernel

/-- Refutes O31 by its second clause: on a table of cores that lists a core twice, the abort discards the launch's task in the second
entry and runs the store in flight of the first to completion, although no core reads as one that holds a task of the launch; so memory
changes where the clause says that it does not. On a table that lists each core once a task of the launch is found where its core is
read. -/
theorem not_launchesEnd : ¬ Obligations.LaunchesEnd := by
  unfold Obligations.LaunchesEnd
  rintro ⟨-, habort, -⟩
  obtain ⟨t, hhappens, -, -, hmem⟩ := habort listedTwice 1 5 unreportedLaunch rfl (.inl rfl) (by decide) (by decide)
    fun k hk _ => by rw [List.mem_singleton.mp hk]; rfl
  have hquiet : ∀ q, (listedTwice.cr q).task.map (·.launch) = some 1 → Quiet (listedTwice.cr q) := fun q hq => by
    rw [task_listedTwice q] at hq; cases hq
  have hsame : t.mem = listedTwice.mem := (hmem hquiet).2 (by decide)
  obtain ⟨hwritten, hclean⟩ := abort_listedTwice
  obtain ⟨u, hu, hbyte⟩ := Option.map_eq_some_iff.mp hwritten
  obtain rfl : t = u := by
    have hnext : exec (.launchAbort 1 5) listedTwice = .next u := event_some hu
    exact Host.Outcome.next.inj (hhappens.symm.trans hnext)
  exact hclean ((congrArg (Sparse.get _ · _) hsame.symm).trans hbyte)

end Sys2Proof.Machine
end

section
/-! PROOFS. An encoded instruction reads back (O56): the decoder's tables by the major of a word, the fields of a word that is put
together from its parts, and every row of the encoding tables. -/

namespace Sys2Proof.Machine

/-- The words of an instruction read back as it in a stream, whatever word follows a short form, and it has a second word exactly
where its major is a long form of the stream. -/
def ReadsBack (st : Stream) (i : Instr) (w1 : Word) : Prop :=
  ∃ w0 rest, encode i = w0 :: rest ∧ decode st w0 (rest.headD w1) = .ok i ∧
    rest.length = (if isLong st (major w0) then 1 else 0)

/-- The decoder's table for a major: the common block's, or the stream's own (R77 to R81). -/
def decodeTable (st : Stream) (maj : Nat) (w0 w1 : Word) : Dec :=
  if 0x60 ≤ maj then decodeCommon st maj w0 w1
  else match st with
    | .c => decodeC st maj w0 w1
    | .a => decodeA st maj w0 w1
    | .k => decodeK st maj w0 w1
    | .d => decodeD st maj w0 w1

/-- A word of any major but 0x00 is read by the table for its major (R70). -/
theorem decode_of_major {st : Stream} {w0 w1 : Word} (h : major w0 ≠ 0) :
    decode st w0 w1 = decodeTable st (major w0) w0 w1 := if_neg h

/-- An instruction reads back where the table for its major reads its words as it. -/
theorem ReadsBack.of_major {st : Stream} {i : Instr} {w0 w1 : Word} {rest : List Word} {m : Nat}
    (hwords : encode i = w0 :: rest) (hread : decodeTable st m w0 (rest.headD w1) = .ok i)
    (hlong : rest.length = if isLong st m then 1 else 0)
    (hm : major w0 = m := by
      simp only [major, BitVec.extractLsb'_append_eq_of_le, BitVec.extractLsb'_eq_self, Nat.reduceLeDiff, Nat.reduceSub,
        Nat.le_refl, BitVec.reduceToNat]; rfl)
    (hpos : m ≠ 0 := by decide) : ReadsBack st i w1 := by
  subst hm
  exact ⟨w0, rest, hwords, (decode_of_major hpos).trans hread, hlong⟩

theorem mem_homes_of_wf {st : Stream} {i : Instr} (h : i.wf st = true) : st ∈ i.homes := by
  simp only [Instr.wf, Bool.and_eq_true, List.contains_iff_mem] at h
  exact h.1.1

/-- Where the reserved fields are zero, the end of a decode accepts a well-formed instruction (R82). -/
theorem finish_of_wf {st : Stream} {i : Instr} (h : i.wf st = true) : finish st true i = .ok i := by
  simp only [Instr.wf, Bool.and_eq_true] at h
  obtain ⟨⟨hhome, hcodes⟩, hfields⟩ := h
  simp only [finish, hhome, hcodes, hfields, Bool.and_self, Bool.not_true, Bool.false_eq_true, if_false, if_true]

/-- The rows of stream C's own map read back (R77): the register ALU by its `fn`, the rows that the major alone selects, and the
group forms of the barrier instructions. -/
theorem readsBack_of_c {i : Instr} (w1 : Word) (h : i.wf .c = true) (hi : i.homes = [.c]) : ReadsBack .c i w1 := by
  cases i with
  | add | sub | mul | mulh | mulhu | div | divu | rem | remu | and_ | or_ | xor_ | andn | shl | shr | sar | rol | min_
    | max_ | minu | maxu | slt | sltu | seq | clz | ctz | popc | bext =>
    refine .of_major rfl ?_ rfl
    change decodeAlu _ _ = _
    simp only [decodeAlu, BitVec.extractLsb'_append_eq_of_le, BitVec.extractLsb'_append_eq_of_add_le, BitVec.extractLsb'_eq_self,
      Nat.reduceLeDiff, Nat.reduceSub, Nat.zero_add, Nat.le_refl,
      BitVec.reduceToNat, BitVec.ofNat_eq_ofNat, BEq.rfl]
    exact finish_of_wf h
  | addi | andi | ori | xori | shli | shri | sari | slti | sltiu | li | li64 | ldB | ldBu | ldH | ldHu | ldW | ldWu
    | ldD | stB | stH | stW | stD | amoAdd | amoAnd | amoOr | amoXor | amoMin | amoMax | amoSwp | amoCas | amoAddd
    | amoNull | fence | fenceI | beq | bne | blt | bge | bltu | bgeu | jmpr | fork | pushfmt | qpush | qpop | qstat
    | cont | launch | csrr | csrw | csrs | csrc | rtt | wfi | halt | freeze | thaw | snapr | snapw | tend | hint =>
    refine .of_major rfl ?_ rfl
    simp only [decodeTable, Nat.reduceLeDiff, reduceIte]
    change finish _ _ _ = _
    simp only [BitVec.extractLsb'_append_eq_of_le, BitVec.extractLsb'_append_eq_of_add_le, BitVec.extractLsb'_eq_self,
      Nat.reduceLeDiff, Nat.reduceSub, Nat.zero_add, Nat.le_refl,
      BitVec.ofNat_eq_ofNat, BEq.rfl, Bool.and_self, List.headD_cons]
    exact finish_of_wf h
  | barArvGroup | barWaitGroup =>
    refine .of_major rfl ?_ rfl
    simp only [decodeTable, decodeCommon,
      BitVec.extractLsb'_append_eq_of_le, BitVec.extractLsb'_append_eq_of_add_le, BitVec.extractLsb'_eq_self,
      Nat.reduceLeDiff, Nat.reduceSub, Nat.zero_add, Nat.le_refl,
      BitVec.reduceToNat, reduceIte, BitVec.ofNat_eq_ofNat, BEq.rfl, Bool.and_self]
    exact finish_of_wf h
  | _ => cases hi

/-- The rows of stream A's own map read back (R78): the major alone selects each. -/
theorem readsBack_of_a {i : Instr} (w1 : Word) (h : i.wf .a = true) (hi : i.homes = [.a]) : ReadsBack .a i w1 := by
  cases i with
  | aadd | aaddi | amov | aset | ali | tld | tldT | tldb | ild | bfxcfg | mldw | mldwT | mlds | gather | xchgP | xchgD
    | xfer | stash | restore =>
    refine .of_major rfl ?_ rfl
    simp only [decodeTable, Nat.reduceLeDiff, reduceIte]
    change finish _ _ _ = _
    simp only [BitVec.extractLsb'_append_eq_of_le, BitVec.extractLsb'_append_eq_of_add_le, BitVec.extractLsb'_eq_self,
      Nat.reduceLeDiff, Nat.reduceSub, Nat.zero_add, Nat.le_refl,
      BitVec.ofNat_eq_ofNat, BEq.rfl, Bool.and_self, List.headD_cons]
    exact finish_of_wf h
  | _ => cases hi

/-- The rows of stream K's own map read back (R79): those that the major alone selects, and those that a further field tells
apart. -/
theorem readsBack_of_k {i : Instr} (w1 : Word) (h : i.wf .k = true) (hi : i.homes = [.k]) : ReadsBack .k i w1 := by
  cases i with
  | mflip | mstream | mstreamIdx | mzero | bind | mspill | vadd | vsub | vmul | vfma | vfms | vnfma | vmin | vmax
    | vabs | vneg | vrcp | vrsq | vexp2 | vlog2 | vcvt | vq | vcmp | vsel | vand | vor | vxor | vshl | vshr | vsar
    | viadd | visub | vimul | vimin | vimax | vred | vscan | vperm | vthr | vtopk | pand | por | pxor | pnot | pset =>
    refine .of_major rfl ?_ rfl
    simp only [decodeTable, Nat.reduceLeDiff, reduceIte]
    change finish _ _ _ = _
    simp only [BitVec.extractLsb'_append_eq_of_le, BitVec.extractLsb'_append_eq_of_add_le, BitVec.extractLsb'_eq_self,
      Nat.reduceLeDiff, Nat.reduceSub, Nat.zero_add, Nat.le_refl,
      BitVec.ofNat_eq_ofNat, BEq.rfl, Bool.and_self]
    exact finish_of_wf h
  | slotcfg | slotcfgFault | slotfree | slotfreeAll | slotmapRead | slotmapMap | vpop | vpopK | vpush | vpushOq0
    | vmov | vmovK | vbcast | vbcastLane | vli | vliK | mhint =>
    refine .of_major rfl ?_ rfl
    simp only [decodeTable, decodeK, decodeCommon,
      BitVec.extractLsb'_append_eq_of_le, BitVec.extractLsb'_append_eq_of_add_le, BitVec.extractLsb'_eq_self,
      Nat.reduceLeDiff, Nat.reduceSub, Nat.zero_add, Nat.le_refl,
      BitVec.reduceToNat, reduceIte, BitVec.ofNat_eq_ofNat, BEq.rfl, Bool.and_self, List.headD_cons]
    exact finish_of_wf h
  | _ => cases hi

/-- The rows of stream D's own map read back (R80): those that the major alone selects, and TST. -/
theorem readsBack_of_d {i : Instr} (w1 : Word) (h : i.wf .d = true) (hi : i.homes = [.d]) : ReadsBack .d i w1 := by
  cases i with
  | drain | drainQ | scatter | rwrAddF32 | rwrAddBf16 | rwrMaxF32 | rwrAddI32 =>
    refine .of_major rfl ?_ rfl
    simp only [decodeTable, Nat.reduceLeDiff, reduceIte]
    change finish _ _ _ = _
    simp only [BitVec.extractLsb'_append_eq_of_le, BitVec.extractLsb'_append_eq_of_add_le, BitVec.extractLsb'_eq_self,
      Nat.reduceLeDiff, Nat.reduceSub, Nat.zero_add, Nat.le_refl,
      BitVec.ofNat_eq_ofNat, BEq.rfl, Bool.and_self, List.headD_cons]
    exact finish_of_wf h
  | tst =>
    refine .of_major rfl ?_ rfl
    simp only [decodeTable, decodeD,
      BitVec.extractLsb'_append_eq_of_le, BitVec.extractLsb'_append_eq_of_add_le, BitVec.extractLsb'_eq_self,
      Nat.reduceLeDiff, Nat.reduceSub, Nat.zero_add, Nat.le_refl,
      reduceIte, BitVec.ofNat_eq_ofNat, BEq.rfl]
    exact finish_of_wf h
  | _ => cases hi

/-- The rows of one stream's own map read back in it, by the stream. -/
theorem readsBack_of_one {s st : Stream} {i : Instr} (w1 : Word) (h : i.wf st = true) (hi : i.homes = [s]) : ReadsBack st i w1 := by
  obtain rfl : st = s := List.mem_singleton.mp (hi ▸ mem_homes_of_wf h)
  cases st with
  | c => exact readsBack_of_c w1 h hi
  | a => exact readsBack_of_a w1 h hi
  | k => exact readsBack_of_k w1 h hi
  | d => exact readsBack_of_d w1 h hi

/-- The rows of the common block read back in every stream (R81): those that the major alone selects, those that a further field
tells apart, and BAR.INIT, whose count stands in two fields. -/
theorem readsBack_of_common {st : Stream} {i : Instr} (w1 : Word) (h : i.wf st = true) (hi : i.homes = [.c, .a, .k, .d]) :
    ReadsBack st i w1 := by
  cases i with
  | nop => exact ⟨0, [], rfl, rfl, by cases st <;> rfl⟩
  | loop | lstr | jmp | bqz | bqnz | join | tksig | tkwait | mark | fwait | cntset | cntwait | trap =>
    refine .of_major rfl ?_ ?_
    · simp only [decodeTable, Nat.reduceLeDiff, reduceIte]
      change finish _ _ _ = _
      simp only [BitVec.extractLsb'_append_eq_of_le, BitVec.extractLsb'_append_eq_of_add_le, BitVec.extractLsb'_eq_self,
        Nat.reduceLeDiff, Nat.reduceSub, Nat.zero_add, Nat.le_refl,
        BitVec.ofNat_eq_ofNat, BEq.rfl, Bool.and_self, List.headD_cons]
      exact finish_of_wf h
    · cases st <;> rfl
  | fset | fclr | barArv | barWait | rdvset | rdvwait =>
    refine .of_major rfl ?_ ?_
    · simp only [decodeTable, decodeCommon, reduceIte,
        BitVec.extractLsb'_append_eq_of_le, BitVec.extractLsb'_append_eq_of_add_le, BitVec.extractLsb'_eq_self,
        Nat.reduceLeDiff, Nat.reduceSub, Nat.zero_add, Nat.le_refl,
        BitVec.reduceToNat, BitVec.ofNat_eq_ofNat, BEq.rfl, Bool.and_self]
      exact finish_of_wf h
    · cases st <;> rfl
  | barInit =>
    refine .of_major rfl ?_ ?_
    · simp only [decodeTable, decodeCommon, reduceIte,
        BitVec.extractLsb'_append_eq_of_le, BitVec.extractLsb'_append_eq_of_add_le, BitVec.extractLsb'_eq_self,
        Nat.reduceLeDiff, Nat.reduceSub, Nat.zero_add, Nat.le_refl,
        BitVec.reduceToNat, BitVec.ofNat_eq_ofNat, BEq.rfl, Bool.and_self]
      rw [BitVec.extractLsb'_append_extractLsb']
      exact finish_of_wf h
    · cases st <;> rfl
  | _ => cases hi

/-- A well-formed instruction reads back: it belongs to the common block or to one stream's own map, and no step of the device is
well formed. -/
theorem readsBack {st : Stream} {i : Instr} (w1 : Word) (h : i.wf st = true) : ReadsBack st i w1 := by
  cases i with
  | nop | loop | lstr | jmp | bqz | bqnz | join | tksig | tkwait | mark | fset | fclr | fwait | cntset | cntwait
    | barInit | barArv | barWait | rdvset | rdvwait | trap =>
    exact readsBack_of_common w1 h rfl
  | instructionLineFetch | linePassOver | heldLaneResume | loopLineEnd | joinComplete | scalarResultReady
    | vectorResultReady | loadReply | amoResultReturn | roundClose | tldLineArrival | planeLineArrival
    | bfxcfgRecordLoaded | tileLookupComplete | pageWalkComplete | deferredReleaseEffect | groupBarrierUpdate
    | groupBarrierPollReply | markerRetire | rendezvousFire | engineCommandDispatch | engineCommandCompletion
    | gatherExecute | scatterExecute | xferExecute | stashEncode | restoreDecode | reduceRequestApply | xchgPStart
    | xchgDStart | exchangeLineSwap | exchangeCommit | exchangeRollbackStart | rollbackLineSwap | rollbackComplete
    | rollbackLinkLost | idleScrubWrite | matrixRowEntry | rampUpEnd | slotRowAdd | mflipEffect | mzeroEffect
    | slotSpill | bindStart | bindRowWrite | arrayCold | hintTargetReached | claimComplete | drainRowRead
    | drainDelivery | writeBufferLineWrite | remoteLineWrite | freezeWatchdogExpiry | waitWatchdogExpiry
    | scheduleSlip | taskStart | taskCommit | launchTake | launchAgingTick | launchQueuePush | launchQueueOpen
    | launchQueueQuiesce | launchQueueDisable | trapRecordPlace | trapqPop | yardmasterTrapEntry | heartbeat
    | heartbeatLimitExpiry | snapshotStore | snapshotLoad | snapshotEvict | snapshotClear | serviceXchgP
    | serviceXchgD | grant | tlbinvAll | tlbinvAsid | tlbinvPage | tlbInvalidationDone | granuleMigrationStart
    | migrationCopyComplete | migrationFlip | migrationAbandon | rtsVerify | rtsExtend | rtsSwitch
    | rtsRequestComplete | contextCreate | contextDestroy | contextDestructionComplete | groupBind | groupRebind
    | groupResume | groupRelease | launchQueueAssign | trapReply | vylumEnable | vylumRetrain | vylumDisable
    | linkTrained | linkTrainingTimeout | linkRetrainTimeout | errorBurst | laneLockLoss | flitReceive | nakReceive
    | peerRequestReceive | portLinkStateChange | pcieMemoryRequest | shedLost | packageReset | spdmRequest
    | registerWrite | applicationCoreAccess | storeResolved | softError | walkerResume | serialisedReRun
    | phaseRollBack | launchAbort | dvfs => cases h
  | _ => exact readsBack_of_one w1 h rfl

/-- Settles O56: the well-formed instructions by the rows of the encoding tables. -/
theorem encodingRoundTrip : Obligations.EncodingRoundTrip := fun _ _ w1 h => readsBack w1 h

end Sys2Proof.Machine
end

section
/-! PROOFS. Words of the encoding tables (O57). -/

namespace Sys2Proof.Machine
open Claims

/-- Major 0x00 in every stream: the word of zeros is NOP, and a field that is not zero is reserved (R70). -/
theorem decode_majorZero (st : Stream) :
    decode st 0 0 = .ok .nop ∧ decode st 0x00800000 0 = .reserved ∧ decode st 0x00000001 0 = .reserved := by
  cases st <;> decide

/-- Settles O57: each clause but the one over the streams is the decoder run on a word. -/
theorem decodeWords : Obligations.DecodeWords := by
  refine ⟨?_, ?_, ?_, ?_, ?_, ?_, decode_majorZero, ?_, ?_⟩ <;> decide

end Sys2Proof.Machine
end

section
/-! PROOFS. The frame of a scalar register's write (O3). -/

namespace Sys2Proof.Machine
open Claims

/-- A write to s[n] changes no register of another file. -/
theorem Core.regs_putS_eq (c : Core) (n : BitVec 5) (v : DWord) :
    ∃ x, (c.putS n v).regs = { c.regs with s := x } := by
  by_cases h : n = 0
  · subst h; exact ⟨c.regs.s, rfl⟩
  · exact ⟨_, c.regs_putS h v⟩

theorem gave_me_regs (s : State) (d : BitVec 5) (v : DWord) : ∃ x, (gave s d v 0).me.regs = { s.me.regs with s := x } := by
  obtain ⟨x, hx⟩ := (s.me.kill (.s d)).regs_putS_eq d v
  exact ⟨x, by simpa [gave] using hx⟩

/-- A write drops the pending results of its register, and no other (R108). -/
theorem gave_me_pend (s : State) (d : BitVec 5) (v : DWord) :
    (gave s d v 0).me.pend = s.me.pend.filter (·.reg ≠ .s d) := by
  simp [gave, Core.kill]

/-- A load in flight for the register that is written keeps its place without a destination (R108). -/
theorem gave_me_loads (s : State) (d : BitVec 5) (v : DWord) :
    (gave s d v 0).me.loads = s.me.loads.map fun l => if l.dst = some d then { l with dst := none } else l := by
  simp [gave, Core.kill]

/-- Settles O3: what a write changes is the register and the results and loads that were to come for it. -/
theorem scalarWrite : Obligations.ScalarWrite := by
  intro s d r v t
  obtain ⟨x, hregs⟩ := gave_me_regs s d v
  have hfile {β : Type} (f : Regs → β) (hf : ∀ y, f { s.me.regs with s := y } = f s.me.regs) : f t.me.regs = f s.me.regs := by
    rw [hregs, hf]
  refine ⟨getS_gave s d r v, hfile (·.a) fun _ => rfl, hfile (·.d) fun _ => rfl, hfile (·.k) fun _ => rfl, hfile (·.v) fun _ => rfl,
    hfile (·.p) fun _ => rfl, hfile (·.i) fun _ => rfl, hfile (·.wid) fun _ => rfl, hfile (·.x) fun _ => rfl,
    gave_me_flags s d v 0, gave_me_counters s d v 0, by simp [t, gave], by simp [t, gave], gave_mem s d v 0, rfl, rfl,
    otherCores_gave s d v 0, ?_, ?_, ?_⟩
  · intro e he
    rw [gave_me_pend, List.mem_filter] at he
    exact of_decide_eq_true he.2
  · intro l hl
    rw [gave_me_loads, List.mem_map] at hl
    obtain ⟨l', -, rfl⟩ := hl
    split
    · simp
    · assumption
  · intro e he hne
    rw [gave_me_pend, List.mem_filter]
    exact ⟨he, decide_eq_true hne⟩

end Sys2Proof.Machine
end

section
/-! PROOFS. Branches and jumps (O13): the line that an offset names, and a taken transfer. -/

namespace Sys2Proof.Machine
open Claims

/-- The low 57 bits of an integer in 64 bits are those of the integer. -/
theorem setWidth_ofInt_57 (z : Int) : (BitVec.ofInt 64 z).setWidth 57 = BitVec.ofInt 57 z := by
  apply BitVec.eq_of_toNat_eq
  rw [BitVec.toNat_setWidth, BitVec.toNat_ofInt, BitVec.toNat_ofInt]
  omega

/-- The model's target is the line that the offset counts to in the 57-bit space (R126). -/
theorem lineTarget_eq (line : DWord) (off : Int) : lineTarget line off = linesFrom line off := by
  have hsum : (line + BitVec.ofInt 64 (32 * off)).setWidth 57 = BitVec.ofInt 57 (line.toInt + 32 * off) := by
    rw [← setWidth_ofInt_57, BitVec.ofInt_add, BitVec.ofInt_toInt]
  rw [lineTarget, linesFrom, hsum, BitVec.signExtend, BitVec.toInt_ofInt]

theorem take_eq (target : DWord) (s : State) : take target s = .ok ((), transferTo s target) := rfl

theorem ownLine_eq (s : State) : ownLine s = .ok (standsAt s, s) := rfl

/-- A conditional branch whose operands can be read transfers where its condition holds, and changes nothing where it does not. -/
theorem branch_does {i : Instr} {w : BitVec 2} {a b : BitVec 5} {off : BitVec 13} {cond : DWord → DWord → Bool} {s : State}
    (hexec : exec i s = branch i w a b off cond s) (hcan : Can i w s) (ha : Free s (.s a)) (hb : Free s (.s b)) :
    (cond (s.me.getS a) (s.me.getS b) = true → Does i s (transferTo s (linesFrom (standsAt s) off.toInt))) ∧
    (cond (s.me.getS a) (s.me.getS b) = false → Does i s s) := by
  constructor
  · intro hcond
    refine does_of_ok hexec hcan ?_
    rw [Act.bind_ok (readS_ok ha), Act.bind_ok (readS_ok hb), Act.bind_ok (ownLine_eq s), if_pos hcond, take_eq, lineTarget_eq]
  · intro hcond
    refine does_of_ok hexec hcan ?_
    rw [Act.bind_ok (readS_ok ha), Act.bind_ok (readS_ok hb), Act.bind_ok (ownLine_eq s), if_neg (by rw [hcond]; decide)]
    rfl

/-- The same by a condition that the decision of the model decides. -/
theorem branch_takes {i : Instr} {w : BitVec 2} {a b : BitVec 5} {off : BitVec 13} {cond : DWord → DWord → Bool} {s : State}
    (hexec : exec i s = branch i w a b off cond s) (hcan : Can i w s) (ha : Free s (.s a)) (hb : Free s (.s b))
    {holds : DWord → DWord → Prop} (hholds : ∀ x y, cond x y = true ↔ holds x y) :
    (holds (s.me.getS a) (s.me.getS b) → Does i s (transferTo s (linesFrom (standsAt s) off.toInt))) ∧
    (¬ holds (s.me.getS a) (s.me.getS b) → Does i s s) := by
  rw [← hholds, Bool.not_eq_true]
  exact branch_does hexec hcan ha hb

/-- Settles O13: each branch by the integer condition that its test decides. -/
theorem branchesTransfer : Obligations.BranchesTransfer := by
  refine ⟨fun x hx w a b off s hcan ha hb => ?_, fun w a s hcan ha => ⟨fun haligned => ?_, fun hodd => ?_⟩, fun w off s hcan => ?_⟩
  · simp only [branchOps, List.mem_cons, List.not_mem_nil, or_false] at hx
    obtain rfl | rfl | rfl | rfl | rfl | rfl := hx
    · exact branch_takes rfl hcan ha hb fun x y => decide_eq_true_iff.trans BitVec.toNat_inj.symm
    · exact branch_takes rfl hcan ha hb fun x y => decide_eq_true_iff.trans (not_congr BitVec.toNat_inj.symm)
    · exact branch_takes rfl hcan ha hb fun x y => by rw [BitVec.slt_iff_toInt_lt]
    · exact branch_takes rfl hcan ha hb fun x y => by
        rw [Bool.not_eq_true', ← Bool.not_eq_true, BitVec.slt_iff_toInt_lt, Int.not_lt]
    · exact branch_takes rfl hcan ha hb fun x y => by rw [BitVec.ult_iff_toNat_lt]
    · exact branch_takes rfl hcan ha hb fun x y => by
        rw [Bool.not_eq_true', ← Bool.not_eq_true, BitVec.ult_iff_toNat_lt, Nat.not_lt]
  · refine does_of_ok rfl hcan ?_
    rw [Act.bind_ok (readS_ok ha), Act.bind_ok (require_true (decide_eq_true (Nat.mod_eq_zero_of_dvd haligned)) ..), take_eq]
  · refine happens_of_trap rfl hcan ?_
    rw [Act.bind_ok (readS_ok ha),
      Act.bind_error (require_false (decide_eq_false fun h => hodd (Nat.dvd_of_mod_eq_zero h)) ..)]
  · have hexec : exec (.jmp w off) s = execJmp w off s := rfl
    refine does_of_ok hexec hcan ?_
    rw [Act.bind_ok (ownLine_eq s), take_eq, lineTarget_eq]

end Sys2Proof.Machine
end

section
/-! PROOFS. The iteration qualifier (O54): an instruction with an encoding runs as a meaning under its first word's qualifier. -/

namespace Sys2Proof.Machine
open Claims

/-! ### The qualifier of an arm -/

/-- An instruction that runs under the qualifier of its first word runs as a meaning under it. -/
theorem exec_eq_run_of {i : Instr} {w : BitVec 2} {m : Act Unit} {s : State} (h : exec i s = run i w m s)
    (hw : qualifier i = w := by
      simp only [qualifier, encode, List.headD_cons, BitVec.extractLsb'_append_eq_of_le, BitVec.extractLsb'_append_eq_of_add_le,
        BitVec.extractLsb'_eq_self, Nat.reduceLeDiff, Nat.reduceSub, Nat.zero_add, Nat.le_refl]) :
    ∃ m, exec i s = run i (qualifier i) m s := ⟨m, hw ▸ h⟩

/-- The arm of every instruction that has an encoding is a meaning that runs under the instruction's own qualifier (R69). -/
theorem exec_eq_run {i : Instr} (s : State) (h : isEvent i = false) : ∃ m, exec i s = run i (qualifier i) m s := by
  cases i with
  | nop => exact ⟨pure (), rfl⟩
  | add | sub | mul | mulh | mulhu | div | divu | rem | remu | and_ | or_ | xor_ | andn | shl | shr | sar | rol | min_
    | max_ | minu | maxu | slt | sltu | seq | clz | ctz | popc | bext | addi | andi | ori | xori | shli | shri | sari
    | slti | sltiu | li | li64 | ldB | ldBu | ldH | ldHu | ldW | ldWu | ldD | stB | stH | stW | stD | amoAdd | amoAnd
    | amoOr | amoXor | amoMin | amoMax | amoSwp | amoCas | amoAddd | amoNull | fence | fenceI | beq | bne | blt | bge
    | bltu | bgeu | jmpr | fork | pushfmt | qpush | qpop | qstat | cont | launch | csrr | csrw | csrs | csrc | rtt
    | wfi | halt | freeze | thaw | snapr | snapw | barArvGroup | barWaitGroup | tend | hint | aadd | aaddi | amov
    | aset | ali | tld | tldT | tldb | ild | bfxcfg | mldw | mldwT | mlds | gather | xchgP | xchgD | xfer | stash
    | restore | mhint | mflip | mstream | mstreamIdx | mzero | bind | slotcfg | slotcfgFault | slotfree | slotfreeAll
    | slotmapRead | slotmapMap | mspill | vpop | vpopK | vpush | vpushOq0 | vmov | vmovK | vbcast | vbcastLane | vli
    | vliK | vadd | vsub | vmul | vfma | vfms | vnfma | vmin | vmax | vabs | vneg | vrcp | vrsq | vexp2 | vlog2 | vcvt
    | vq | vcmp | vsel | vand | vor | vxor | vshl | vshr | vsar | viadd | visub | vimul | vimin | vimax | vred | vscan
    | vperm | vthr | vtopk | pset | drain | drainQ | tst | scatter | rwrAddF32 | rwrAddBf16 | rwrMaxF32 | rwrAddI32
    | loop | lstr | jmp | bqz | bqnz | join | tksig | tkwait | mark | fset | fclr | fwait | cntset | cntwait | barInit
    | barArv | barWait | rdvset | rdvwait | trap =>
    exact exec_eq_run_of (by unfold exec; rfl)
  | pand | por | pxor | pnot =>
    exact exec_eq_run_of (by unfold exec; exact predicate2.eq_1 ..)
  | _ => cases h

/-! ### The table of R69 -/

/-- The innermost active level is found from the highest level down. -/
theorem innermost_toList (ls : Vector LoopLevel 6) :
    innermost ls.toList = ([5, 4, 3, 2, 1, 0] : List Nat).findSome? fun n =>
      if (ls.getD n {}).active then some (ls.getD n {}) else none := by
  have hlevels : ls.toList.reverse = ([5, 4, 3, 2, 1, 0] : List Nat).map (ls.getD · {}) := by
    obtain ⟨⟨l⟩, hsize⟩ := ls
    match l, hsize with
    | [_, _, _, _, _, _], _ => rfl
  rw [innermost, List.getLast?_filter, hlevels, ← List.findSome?_guard, List.findSome?_map]
  rfl

theorem governing_eq (s : State) : governing s = innermost (s.me.st (s.me.lead s.stream)).loops.toList := by
  rw [innermost_toList, governing, Core.lead]
  cases s.me.forked <;> rfl

/-- The model's test of a qualifier is the table's row. -/
theorem iqIssues_eq (w : BitVec 2) (l : Option LoopLevel) : iqIssues w l = issuesIn w.toNat l := by
  have hlast (l : LoopLevel) : l.index + 1 = l.count ↔ l.index = l.count - 1 := eq_sub_iff_add_eq.symm
  have hw : ∀ w : BitVec 2, w = 0 ∨ w = 1 ∨ w = 2 ∨ w = 3 := by decide
  cases l with
  | none => obtain rfl | rfl | rfl | rfl := hw w <;> rfl
  | some l =>
    obtain rfl | rfl | rfl | rfl := hw w
    · rfl
    · rfl
    · exact decide_eq_decide.mpr (hlast l)
    · change (l.index + 1 != l.count) = decide (l.index ≠ l.count - 1)
      rw [Bool.eq_iff_iff, bne_iff_ne, decide_eq_true_iff]
      exact not_congr (hlast l)

theorem issues_eq (s : State) (w : BitVec 2) : s.issues w = issuesIn w.toNat (governing s) := by
  rw [State.issues, iqIssues_eq, governing_eq]

/-- An instruction that issues is not suppressed: it completes, waits or takes its exception. -/
theorem run_lane_ne_suppressed {i : Instr} {w : BitVec 2} {m : Act Unit} {s t : State} (hcan : Can i w s)
    (h : run i w m s = .next t) : t.lane ≠ .suppressed := by
  obtain ⟨href, hiss⟩ := hcan
  cases hm : m s with
  | ok x =>
    rw [run_done href hiss hm] at h
    cases h; simp
  | error e =>
    cases e with
    | wait x l => rw [run_waits href hiss hm] at h; cases h; simp
    | trap c v k l => rw [run_raises href hiss hm] at h; cases h; simp [State.laneTrap]

/-! ### The place in the order of a cycle -/

/-- The state at another place in the order of a cycle. -/
def State.inTurn (s : State) (u : Turn) : State := { s with turn := u }

theorem State.tileFor_inTurn (s : State) (u : Turn) (p port ea : Nat) :
    (s.inTurn u).tileFor p port ea = (s.tileFor p port ea).map fun x => (x.1, x.2.inTurn u) := by
  unfold State.tileFor
  rw [show (s.inTurn u).cr p = s.cr p from rfl]
  dsimp only
  cases ((s.cr p).lookups.tiles.getD port []).find? (·.1 = ea) with
  | some r => rfl
  | none => cases (s.cr p).lookups.tileDone.contains (port, ea) <;> rfl

theorem State.lineDest_inTurn (s : State) (u : Turn) (p : Nat) (l : WLine) :
    (s.inTurn u).lineDest p l = (s.lineDest p l).map fun x => (x.1, x.2.inTurn u) := by
  unfold State.lineDest
  dsimp only
  rw [s.tileFor_inTurn u, show (s.inTurn u).layOf p l.lay = s.layOf p l.lay from rfl]
  change (if (!s.layOk (s.cr p).ctxId l.lay) = true then _ else _) = _
  cases s.layOk (s.cr p).ctxId l.lay with
  | false => rfl
  | true => cases s.tileFor p 2 ((s.layOf p l.lay).entry l.blk) <;> rfl

theorem State.bufferBlocked_inTurn (s : State) (u : Turn) (p : Nat) : (s.inTurn u).bufferBlocked p = s.bufferBlocked p := by
  unfold State.bufferBlocked
  simp only [s.lineDest_inTurn u]
  change (match (s.cr p).drain.waiting with | l :: _ => _ | [] => _) = _
  cases (s.cr p).drain.waiting with
  | nil => rfl
  | cons l ls => 
    dsimp only
    cases s.lineDest p l with
    | none => rfl
    | some x => obtain ⟨d, t⟩ := x; cases d <;> rfl

theorem State.gate_inTurn (s : State) (u : Turn) (p : Nat) : (s.inTurn u).gate p = s.gate p := by
  unfold State.gate
  rw [s.bufferBlocked_inTurn u]
  rfl

/-! ### The turn of a joined core -/

/-- A joined core with a line fetched issues it in its turn. -/
theorem step_joined {s : State} {p : Nat} {v : ILine} (h : JoinedAt s p v) :
    step s = issueLine exec p v (s.inTurn (nextPlace p .c)) := by
  obtain ⟨⟨p0, st0, hturn, hnext⟩, hforked, hhold, hgate, hlane, hbuf⟩ := h
  have hissue : step s = issue exec p .c s := by simp only [step, stepWith, hturn, hnext]
  have hjoined : issue exec p .c s = issueJoined exec p (s.inTurn (nextPlace p .c)) :=
    if_neg (Bool.not_eq_true _ ▸ hforked : ¬ (s.cr p).forked = true)
  have hbuf' : ((s.inTurn (nextPlace p .c)).cr p).c.buf = some v := hbuf
  have hrun : ¬ ((s.inTurn (nextPlace p .c)).cr p).clk < ((s.inTurn (nextPlace p .c)).cr p).hold := Nat.not_lt.mpr hhold
  have hin : ((s.inTurn (nextPlace p .c)).cr p).c.lane ≠ 8 := Nat.ne_of_lt hlane
  rw [hissue, hjoined, issueJoined]
  simp only [s.gate_inTurn, hgate, hbuf', if_neg hrun, if_neg hin]

/-- A decode exception of any lane stops the whole line (R83). -/
theorem issueLine_fault {s : State} {p : Nat} {v : ILine} {k : Nat} {st : Stream} {c : Cause}
    (h : lineFault (isYard p) (s.cr p).forked v = some (k, st, c)) :
    issueLine exec p v s = .next (({ s with core := p, stream := st, laneNo := if isYard p then (s.cr p).c.lane else k } :
      State).laneTrap c 0 [] none) := by
  unfold issueLine
  extract_lets s1 core src s2 ks first wait part pops
  have h1 : lineFault (isYard p) core.forked v = some (k, st, c) := h
  rw [h1]
  rfl

/-- Settles O54: the arms run under their qualifiers, which the model tests as the table of R69 says, after the restrictions of R68;
a decode exception of a line comes before any of its lanes. -/
theorem iqDecides : Obligations.IqDecides := by
  refine ⟨fun s i hi href => ?_, fun s i c hi href => ?_, fun s p v k st c hat hfault => ?_⟩
  · obtain ⟨m, hrun⟩ := exec_eq_run s hi
    rw [← issues_eq, hrun]
    exact ⟨fun hno => run_suppressed href hno, fun hyes t ht => run_lane_ne_suppressed ⟨href, hyes⟩ ht⟩
  · obtain ⟨m, hrun⟩ := exec_eq_run s hi
    rw [hrun, run_refused href]
  · obtain ⟨-, hforked, -⟩ := id hat
    rw [step_joined hat]
    exact issueLine_fault (hforked ▸ hfault)

end Sys2Proof.Machine
end

section
/-! PROOFS. The machine goes on from every state (O58): the arms of the dispatcher, the lanes of a line, and a step. -/

namespace Sys2Proof.Machine
open Claims

/-- A device step has its effect, or may not take place and changes nothing. -/
theorem exec_event_goesOn {i : Instr} (s : State) (h : isEvent i = true) : GoesOn (exec i s) := by
  cases i with
  | instructionLineFetch | linePassOver | heldLaneResume | loopLineEnd | joinComplete | scalarResultReady
    | vectorResultReady | loadReply | amoResultReturn | roundClose | tldLineArrival | planeLineArrival
    | bfxcfgRecordLoaded | tileLookupComplete | pageWalkComplete | deferredReleaseEffect | groupBarrierUpdate
    | groupBarrierPollReply | markerRetire | rendezvousFire | engineCommandDispatch | engineCommandCompletion
    | gatherExecute | scatterExecute | xferExecute | stashEncode | restoreDecode | reduceRequestApply | xchgPStart
    | xchgDStart | exchangeLineSwap | exchangeCommit | exchangeRollbackStart | rollbackLineSwap | rollbackComplete
    | rollbackLinkLost | idleScrubWrite | matrixRowEntry | rampUpEnd | slotRowAdd | mflipEffect | mzeroEffect
    | slotSpill | bindStart | bindRowWrite | arrayCold | hintTargetReached | claimComplete | drainRowRead
    | drainDelivery | writeBufferLineWrite | remoteLineWrite | freezeWatchdogExpiry | waitWatchdogExpiry
    | scheduleSlip | taskStart | taskCommit | launchTake | launchAgingTick | launchQueuePush | launchQueueOpen
    | launchQueueQuiesce | launchQueueDisable | trapRecordPlace | trapqPop | yardmasterTrapEntry | heartbeat
    | heartbeatLimitExpiry | snapshotStore | snapshotLoad | snapshotEvict | snapshotClear | serviceXchgP
    | serviceXchgD | grant | tlbinvAll | tlbinvAsid | tlbinvPage | tlbInvalidationDone | granuleMigrationStart
    | migrationCopyComplete | migrationFlip | migrationAbandon | rtsVerify | rtsExtend | rtsSwitch
    | rtsRequestComplete | contextCreate | contextDestroy | contextDestructionComplete | groupBind | groupRebind
    | groupResume | groupRelease | launchQueueAssign | trapReply | vylumEnable | vylumRetrain | vylumDisable
    | linkTrained | linkTrainingTimeout | linkRetrainTimeout | errorBurst | laneLockLoss | flitReceive | nakReceive
    | peerRequestReceive | portLinkStateChange | pcieMemoryRequest | shedLost | packageReset | spdmRequest
    | registerWrite | applicationCoreAccess | storeResolved | softError | walkerResume | serialisedReRun
    | phaseRollBack | launchAbort | dvfs =>
    unfold exec
    exact ⟨_, rfl⟩
  | _ => cases h

/-- No arm of the dispatcher ends in a fault or a refusal. -/
theorem exec_goesOn (i : Instr) (s : State) : GoesOn (exec i s) := by
  cases h : isEvent i with
  | true => exact exec_event_goesOn s h
  | false =>
    obtain ⟨m, hrun⟩ := exec_eq_run s h
    rw [hrun]
    exact run_goesOn i _ m s

theorem goesOn_andThen {o : Host.Outcome State Fault Refusal} {f : State → Host.Outcome State Fault Refusal}
    (ho : GoesOn o) (hf : ∀ s, GoesOn (f s)) : GoesOn (andThen o f) := by
  obtain ⟨t, rfl⟩ := ho
  exact hf t

/-- No lane stops a line but by its own part's end, its wait or its exception. -/
theorem runLanes_ne_stops (v : ILine) (ks : List Nat) (s : State) (o : Host.Outcome State Fault Refusal) :
    runLanes exec v ks s ≠ .stops o := by
  induction ks generalizing s with
  | nil => exact LineRun.noConfusion
  | cons k ks ih =>
    unfold runLanes
    split
    · exact ih s
    · rename_i st _
      split
      · exact LineRun.noConfusion
      · split
        · rename_i i _
          obtain ⟨t, ht⟩ := exec_goesOn i { s with stream := st, laneNo := k }
          rw [ht]
          dsimp only
          split
          · exact LineRun.noConfusion
          · exact LineRun.noConfusion
          · exact LineRun.noConfusion
          · exact ih t
        · exact ih s

theorem issueLine_goesOn (p : Nat) (v : ILine) (s : State) : GoesOn (issueLine exec p v s) := by
  unfold issueLine
  extract_lets s1 c src s2 ks first wait part pops
  have hpart (t : State) (k : Nat) (u : State) : GoesOn (part t k u) := by
    unfold part
    split <;> exact ⟨_, rfl⟩
  split
  · exact ⟨_, rfl⟩
  · split
    · exact ⟨_, rfl⟩
    · exact hpart _ _ _
    · exact hpart _ _ _
    · exact ⟨_, rfl⟩
    · exact ⟨_, rfl⟩
    · rename_i o ho
      exact absurd ho (runLanes_ne_stops v ks s2 o)

theorem issueJoined_goesOn (p : Nat) (s : State) : GoesOn (issueJoined exec p s) := by
  unfold issueJoined
  extract_lets c t
  split
  · exact ⟨_, rfl⟩
  · split
    · exact ⟨_, rfl⟩
    · split
      · split <;> exact ⟨_, rfl⟩
      · split
        · exact issueLine_goesOn _ _ _
        · split
          · exact issueLine_goesOn _ _ _
          · exact ⟨_, rfl⟩
          · exact ⟨_, rfl⟩

theorem issueLane_goesOn (p : Nat) (st : Stream) (v : ILine) (k : Nat) (rest : List Nat) (s : State) :
    GoesOn (issueLane exec p st v k rest s) := by
  unfold issueLane
  extract_lets s1 c src s2
  split
  · exact ⟨_, rfl⟩
  · refine goesOn_andThen (exec_goesOn _ _) fun t => ?_
    split
    · exact ⟨_, rfl⟩
    · exact ⟨_, rfl⟩
    · extract_lets d d'
      split <;> exact ⟨_, rfl⟩
  · exact ⟨_, rfl⟩

theorem issueOwn_goesOn (p : Nat) (st : Stream) (v : ILine) (s : State) : GoesOn (issueOwn exec p st v s) := by
  unfold issueOwn
  split
  · exact issueLane_goesOn _ _ _ _ _ _
  · exact ⟨_, rfl⟩

theorem issueForked_goesOn (p : Nat) (st : Stream) (s : State) : GoesOn (issueForked exec p st s) := by
  unfold issueForked
  extract_lets c x t
  split
  · exact ⟨_, rfl⟩
  · split
    · exact ⟨_, rfl⟩
    · split
      · exact issueOwn_goesOn _ _ _ _
      · split
        · exact issueOwn_goesOn _ _ _ _
        · exact ⟨_, rfl⟩
        · exact ⟨_, rfl⟩

theorem issue_goesOn (p : Nat) (st : Stream) (s : State) : GoesOn (issue exec p st s) := by
  unfold issue
  extract_lets u
  split
  · exact issueForked_goesOn p st u
  · exact issueJoined_goesOn p u

/-- A step is a due input, an event, the turn of a stream or the end of a cycle. -/
theorem step_goesOn (s : State) : GoesOn (step s) := by
  unfold step stepWith
  split
  · split
    · split
      · exact exec_goesOn _ _
      · exact ⟨_, rfl⟩
    · split <;> exact ⟨_, rfl⟩
  · split
    · exact issue_goesOn _ _ _
    · exact ⟨_, rfl⟩
  · split <;> exact ⟨_, rfl⟩

/-- Settles O58: no arm of the dispatcher and no part of a step ends but in a next state. -/
theorem machineGoesOn : Obligations.MachineGoesOn := ⟨exec_goesOn, step_goesOn⟩

end Sys2Proof.Machine
end

section
/-! PROOFS. A joined line that stalls (O55): where the state that the step answers differs from the claim's. -/

namespace Sys2Proof.Machine
open Claims

/-- A line of one instruction, `add s3, s1, s2` in lane 1 for C. -/
def oneAdd : ILine := 0x020C2200_00000001#64 |>.setWidth 256

/-- Core 0 at its turn with the line fetched. A result for s1, issued in an earlier cycle, is not ready. -/
def operandPending : State :=
  ({ turn := .issue 0 .c } : State).setCr 0
    { task := some {}, c := { buf := some oneAdd }, clk := 1, pend := [{ reg := .s 1, val := 0, ready := 5, issued := 0 }] }

theorem joinedAt_operandPending : JoinedAt operandPending 0 oneAdd :=
  ⟨⟨0, .c, rfl, by decide +kernel⟩, by decide +kernel, by decide +kernel, by decide +kernel, by decide +kernel, by decide +kernel⟩

/-- Lane 1 of the line acts. -/
def firstLane : State := { lineStart operandPending 0 with stream := .c, laneNo := 1 }

/-- The add waits for the result. -/
theorem exec_add_firstLane : exec (.add 0 3 1 2) firstLane = .next { firstLane with lane := .waiting .fixed none } := by
  have hwait : readS 1 firstLane = .error (.wait .fixed none) := by
    have hreg : firstLane.me.regWait (.s 1) = some .fixed := by decide +kernel
    unfold readS await
    exact Act.bind_error (by rw [hreg])
  have hexec : exec (.add 0 3 1 2) firstLane = execAdd 0 3 1 2 firstLane := rfl
  have href : firstLane.refusal (.add 0 3 1 2) = none := by decide +kernel
  have hissues : firstLane.issues 0 = true := by decide +kernel
  rw [hexec, execAdd, alu]
  exact run_waits href hissues (Act.bind_error hwait)

/-- The number of the lane that the machine names as the acting one after a step. -/
def laneNoAfter : Host.Outcome State Fault Refusal → Option Nat
  | .next t => some t.laneNo
  | _ => none

/-- The step that stalls the line leaves the acting lane at the start of the line. -/
theorem laneNoAfter_step_operandPending : laneNoAfter (step operandPending) = some 0 := by decide +kernel

/-- Refutes O55 by its clause on a lane that waits. The claim's next state is made from the state in which that lane acts, so it
names the lane and its stream as the acting ones. The model's is made from the start of the line, and names lane 0 of C: `State.beginLine`
takes the former state for its lookups and the latter for its result. -/
theorem not_stepRunsDecoded : ¬ Obligations.StepRunsDecoded := by
  unfold Obligations.StepRunsDecoded
  rintro ⟨hjoined, -, -⟩
  obtain ⟨-, hlanes⟩ := hjoined operandPending 0 oneAdd joinedAt_operandPending (by decide +kernel)
  obtain ⟨hwaits, -⟩ := hlanes [] 1 [2, 3, 4, 5, 6, 7] (lineStart operandPending 0) .c (.add 0 3 1 2) _ (by decide +kernel) rfl
    (by decide +kernel) (by decide +kernel) (by decide +kernel) exec_add_firstLane
  obtain ⟨hstalls, -⟩ := hwaits .fixed none rfl (fun _ => nofun)
  have hstep : step operandPending = .next (firstLane.stall 0 .c .fixed) := hstalls fun _ _ => nofun
  have hlane : laneNoAfter (step operandPending) = some 1 := by rw [hstep]; rfl
  exact absurd (laneNoAfter_step_operandPending.symm.trans hlane) (by decide)

end Sys2Proof.Machine
end

section
/-! PROOFS. The control instructions (O15): the state that each leaves, and the frame that they share. -/

namespace Sys2Proof.Machine
open Claims

/-! ### The frame -/

/-- A core whose registers, flags, queues and matrix engine are as before is all that a control instruction changes. -/
theorem controlFrame_setMe {s : State} {c : Core} (hregs : c.regs = s.me.regs) (hflags : c.flags = s.me.flags)
    (hqueues : c.queues = s.me.queues) (hmatrix : c.matrix = s.me.matrix) : ControlFrame s (s.setMe c) := by
  refine ⟨?_, ?_, ?_, ?_, rfl, rfl, rfl, s.otherCores_setMe c⟩ <;> rwa [State.me_setMe]

theorem controlFrame_trans {s t u : State} (hst : ControlFrame s t) (htu : ControlFrame t u) (hcore : t.core = s.core) :
    ControlFrame s u := by
  obtain ⟨hregs, hflags, hqueues, hmatrix, hmem, hyard0, hyard1, hcores⟩ := hst
  obtain ⟨hregs', hflags', hqueues', hmatrix', hmem', hyard0', hyard1', hcores'⟩ := htu
  exact ⟨hregs'.trans hregs, hflags'.trans hflags, hqueues'.trans hqueues, hmatrix'.trans hmatrix, hmem'.trans hmem,
    hyard0'.trans hyard0, hyard1'.trans hyard1, fun q hq => (hcores' q (hcore ▸ hq)).trans (hcores q hq)⟩

theorem controlFrame_setSt (s : State) (st : Stream) (x : StreamState) : ControlFrame s (s.setMe (s.me.setSt st x)) :=
  controlFrame_setMe (Core.setSt_regs ..) (Core.setSt_flags ..) (Core.setSt_queues ..) (Core.setSt_matrix ..)

theorem Core.lead_joined {c : Core} (h : c.forked = false) (st : Stream) : c.lead st = .c := by
  rw [Core.lead, h]; rfl

theorem standsAt_joined {s : State} (h : s.me.forked = false) : standsAt s = s.me.c.line := by
  rw [standsAt, h]; rfl

theorem controlFrame_transferTo (s : State) (t : DWord) : ControlFrame s (transferTo s t) := controlFrame_setSt s _ _

/-- In joined mode a transfer is C's. -/
theorem me_c_transferTo {s : State} (h : s.me.forked = false) (t : DWord) :
    (transferTo s t).me.c = { s.me.c with bp := true, target := t } := by
  rw [transferTo, h, State.me_setMe]; rfl

/-! ### The loop unit -/

theorem getD_loops_setLevel (x : StreamState) {n : Nat} (h : n < 6) (l : LoopLevel) : (x.setLevel n l).loops.getD n {} = l := by
  rw [StreamState.setLevel, vector_getD_setIfInBounds, if_pos ⟨rfl, h⟩]

theorem StreamState.strides_noStrides (x : StreamState) {n : Nat} (h : n < 6) : ((x.noStrides n).loops.getD n {}).strides = [] := by
  rw [StreamState.noStrides, getD_loops_setLevel x h]

/-- A LOOP leaves the stream whose level it sets. -/
theorem Core.st_noStrides_same (c : Core) (st : Stream) (n : Nat) : (c.noStrides st n).st st = c.st st := by
  cases st <;> rfl

/-- A LOOP of C clears the strides of the streams that act with C's level. -/
theorem Core.strides_noStrides {c : Core} {u : Stream} {n : Nat} (h : n < 6) (hu : u ≠ .c)
    (hacts : c.forked = false ∨ (c.st u).out = true) : (((c.noStrides .c n).st u).loops.getD n {}).strides = [] := by
  have hst : (c.noStrides .c n).st u = (c.st u).noStrides n := by
    have hif : (decide (Stream.c = .c) && (!c.forked || (c.st u).out)) = true := by simpa using hacts
    cases u with
    | c => exact absurd rfl hu
    | a => exact if_pos hif
    | k => exact if_pos hif
    | d => exact if_pos hif
  rw [hst, StreamState.strides_noStrides _ h]

/-- The level that a LOOP sets in the line in which it stands. -/
def loopLevel (s : State) (n : Word) (e : BitVec 16) : LoopLevel :=
  ⟨n ≠ 0, n, 0, standsAt s, linesFrom (standsAt s) e.toNat, []⟩

/-- The stream of a LOOP with its level set: where the count is 0, it passes over the loop (R133). -/
def loopSet (s : State) (n : Nat) (l : LoopLevel) : StreamState :=
  let y := (s.me.st (s.me.lead s.stream)).setLevel n l
  if l.count = 0 then { y with skip := some (linesFrom l.endLine 1) } else y

/-- The core after a LOOP. -/
def loopCore (s : State) (n : Nat) (l : LoopLevel) : Core :=
  (s.me.setSt (s.me.lead s.stream) (loopSet s n l)).noStrides (s.me.lead s.stream) n

theorem loops_loopSet (s : State) (n : Nat) (l : LoopLevel) :
    (loopSet s n l).loops = ((s.me.st (s.me.lead s.stream)).setLevel n l).loops := by
  unfold loopSet; dsimp only; split <;> rfl

theorem bp_loopSet (s : State) (n : Nat) (l : LoopLevel) : (loopSet s n l).bp = (s.me.st (s.me.lead s.stream)).bp := by
  unfold loopSet; dsimp only; split <;> rfl

theorem skip_loopSet (s : State) (n : Nat) (l : LoopLevel) :
    (loopSet s n l).skip = if l.count = 0 then some (linesFrom l.endLine 1) else (s.me.st (s.me.lead s.stream)).skip := by
  unfold loopSet; dsimp only; split <;> rfl

theorem loopCore_st (s : State) (n : Nat) (l : LoopLevel) : (loopCore s n l).st (s.me.lead s.stream) = loopSet s n l := by
  rw [loopCore, Core.st_noStrides_same, Core.st_setSt_same]

/-- The strides of a level are cleared in C and the streams that act with C's level by a LOOP of C. -/
theorem strides_loopCore {s : State} {n : Nat} {l : LoopLevel} (h : n < 6) (hlead : s.me.lead s.stream = .c) (hl : l.strides = [])
    {u : Stream} (hacts : s.me.forked = false ∨ (s.me.st u).out = true) :
    (((loopCore s n l).st u).loops.getD n {}).strides = [] := by
  by_cases hu : u = .c
  · subst hu
    rw [← hlead, loopCore_st, loops_loopSet, getD_loops_setLevel _ h, hl]
  · rw [loopCore, hlead]
    refine Core.strides_noStrides h hu ?_
    rwa [Core.setSt_forked, Core.st_setSt_ne _ hu]

theorem readK_ok {s : State} {r : BitVec 5} (h : Free s (.k r)) : readK r s = .ok (s.me.getK r, s) := by
  have hawait : await (.k r) s = .ok ((), s) := by rw [await, h]
  exact Act.bind_ok hawait

/-- The register of a LOOP's count can be read where nothing is pending for it. -/
theorem readOwn_ok {s : State} {r : BitVec 5} (n : BitVec 16) (hs : s.stream = .c → Free s (.s r))
    (hk : s.stream = .k → Free s (.k r)) : ∃ x, readOwn r s = .ok (x, s) ∧ loopCount s 1 r n = x.setWidth 32 := by
  unfold readOwn loopCount
  rw [Act.get_bind, if_pos rfl]
  cases hst : s.stream with
  | c => exact ⟨_, readS_ok (hs hst), rfl⟩
  | k => exact ⟨_, readK_ok (hk hst), rfl⟩
  | a => exact ⟨_, rfl, rfl⟩
  | d => exact ⟨_, rfl, rfl⟩

/-- What a LOOP does, its count from a register or from its field. -/
theorem loop_does {w : BitVec 2} {l : BitVec 3} {cr : BitVec 1} {r : BitVec 5} {n e : BitVec 16} {s : State}
    (hcan : Can (.loop w l cr r n e) w s) (hs : cr = 1 → s.stream = .c → Free s (.s r))
    (hk : cr = 1 → s.stream = .k → Free s (.k r)) :
    Does (.loop w l cr r n e) s (s.setMe (loopCore s l.toNat (loopLevel s (loopCount s cr r n) e))) := by
  have hexec : exec (.loop w l cr r n e) s = execLoop w l cr r n e s := rfl
  refine does_of_ok hexec hcan ?_
  by_cases hcr : cr = 1
  · obtain ⟨x, hread, hcount⟩ := readOwn_ok n (hs hcr) (hk hcr)
    subst hcr
    rw [if_pos rfl, Act.bind_ok (Act.bind_ok hread), hcount]
    refine (Act.bind_ok (ownLine_eq s)).trans ?_
    simp only [lineTarget_eq]
    rfl
  · have hpure : (pure (n.setWidth 32) : Act Word) s = .ok (n.setWidth 32, s) := rfl
    rw [if_neg hcr, loopCount, if_neg hcr, Act.bind_ok hpure]
    refine (Act.bind_ok (ownLine_eq s)).trans ?_
    simp only [lineTarget_eq]
    rfl

/-! ### LSTR -/

theorem getElem?_setAt {α : Type} (xs : List α) {n : Nat} (h : n < xs.length) (x : α) : (setAt xs n x)[n]? = some x := by
  fun_induction setAt xs n x with
  | case1 => cases h
  | case2 => rfl
  | case3 y ys n x ih => exact ih (Nat.lt_of_succ_lt_succ h)

/-- The stride that the acting stream's LSTR places. -/
def ownStride (s : State) (d : BitVec 5) (pair : BitVec 1) (imm : BitVec 32) : Stride :=
  ⟨true, imm, pair = 1, s.stream = .a || s.stream = .d, d⟩

/-- The stream of an LSTR with the stride in its slot. -/
def strideSet (x : StreamState) (n slot : Nat) (e : Stride) : StreamState :=
  let l := x.loops.getD n {}
  x.setLevel n { l with strides := setAt (l.strides ++ List.replicate (4 - l.strides.length) {}) slot e }

theorem strides_strideSet {x : StreamState} {n slot : Nat} {e : Stride} (hn : n < 6) (hslot : slot < 4) :
    ((strideSet x n slot e).loops.getD n {}).strides[slot]? = some e := by
  rw [strideSet, getD_loops_setLevel _ hn]
  refine getElem?_setAt _ ?_ e
  rw [List.length_append, List.length_replicate]
  omega

/-! ### TEND -/

/-- The position of a lane in a line (R149). -/
theorem toNat_line_or_lane {line : DWord} {k : Nat} (hline : 32 ∣ line.toNat) (hk : k < 8) :
    (line ||| BitVec.ofNat 64 (k % 8)).toNat = line.toNat + k := by
  obtain ⟨q, hq⟩ := hline
  rw [BitVec.toNat_or, BitVec.toNat_ofNat, Nat.mod_eq_of_lt hk, Nat.mod_eq_of_lt (by omega), hq]
  exact (Nat.two_pow_add_eq_or_of_lt (i := 5) (by omega) q).symm

/-! ### The instructions -/

/-- The arrival of a stream at a JOIN whose flag agrees with those recorded. -/
theorem join_does {w : BitVec 2} {f : BitVec 3} {s : State} (hcan : Can (.join w f) w s)
    (hflag : ∀ st g, (s.me.st st).jn = some g → g = f) :
    Does (.join w f) s (s.setMe (s.me.setSt s.stream { s.me.st s.stream with jn := some f })) := by
  have hexec : exec (.join w f) s = execJoin w f s := rfl
  have hall : (allStreams.all fun st => match (s.me.st st).jn with | some g => decide (g = f) | none => true) = true := by
    rw [List.all_eq_true]
    intro st _
    cases hjn : (s.me.st st).jn with
    | none => rfl
    | some g => exact decide_eq_true (hflag st g hjn)
  refine does_of_ok hexec hcan ?_
  rw [Act.get_bind]
  exact Act.bind_ok (require_true hall ..)

/-- The state in which the FORK is recorded and C's transfer is not. -/
def forkMarked (s : State) (x : BitVec 3 × DWord × DWord × DWord) : State :=
  s.setMe { s.me with c := { s.me.c with fork := some x } }

/-- The state in which the task's end is recorded and C's transfer is not. -/
def endMarked (s : State) : State := s.setMe { s.me with c := { s.me.c with ended := true } }

theorem controlFrame_forkMarked (s : State) (x : BitVec 3 × DWord × DWord × DWord) : ControlFrame s (forkMarked s x) :=
  controlFrame_setMe rfl rfl rfl rfl

theorem controlFrame_endMarked (s : State) : ControlFrame s (endMarked s) := controlFrame_setMe rfl rfl rfl rfl

theorem fork_does {w : BitVec 2} {m : BitVec 3} {oa ok od : BitVec 16} {s : State} (hcan : Can (.fork w m oa ok od) w s) :
    Does (.fork w m oa ok od) s (transferTo
      (forkMarked s (m, linesFrom (standsAt s) oa.toInt, linesFrom (standsAt s) ok.toInt, linesFrom (standsAt s) od.toInt))
      (linesFrom (standsAt s) 1)) := by
  have hexec : exec (.fork w m oa ok od) s = execFork w m oa ok od s := rfl
  refine does_of_ok hexec hcan ?_
  rw [Act.bind_ok (ownLine_eq s)]
  simp only [lineTarget_eq]
  rfl

theorem tend_does {w : BitVec 2} {s : State} (hcan : Can (.tend w) w s) :
    Does (.tend w) s (transferTo (endMarked s) (standsAt s ||| BitVec.ofNat 64 (s.laneNo % 8))) := by
  have hexec : exec (.tend w) s = execTend w s := rfl
  refine does_of_ok hexec hcan ?_
  rw [Act.bind_ok (ownLine_eq s)]
  rfl

theorem lstr_does {w : BitVec 2} {d : BitVec 5} {slot : BitVec 2} {l : BitVec 3} {pair : BitVec 1} {imm : BitVec 32} {s : State}
    (hcan : Can (.lstr w d slot l pair imm) w s) :
    Does (.lstr w d slot l pair imm) s (s.setMe (s.me.setSt s.stream (strideSet (s.me.st s.stream) l.toNat slot.toNat
      (ownStride s d pair imm)))) := by
  have hexec : exec (.lstr w d slot l pair imm) s = execLstr w d slot l pair imm s := rfl
  exact does_of_ok hexec hcan rfl

theorem trap_does {w : BitVec 2} {code : BitVec 8} {s : State} (hcan : Can (.trap w code) w s) :
    Does (.trap w code) s (s.setMe (s.me.setSt s.stream { s.me.st s.stream with swTrap := some code })) := by
  have hexec : exec (.trap w code) s = execTrap w code s := rfl
  exact does_of_ok hexec hcan rfl

/-- What the state after a LOOP says of its level and of the streams that act with it. -/
theorem loop_leaves (s : State) {n : Nat} (hn : n < 6) (c : Word) (e : BitVec 16) :
    let t := s.setMe (loopCore s n (loopLevel s c e))
    let st := if s.me.forked then s.stream else .c
    let x := (t.me.st st).loops.getD n {}
    ControlFrame s t ∧ x = loopLevel s c e ∧
      (s.me.forked = false → ∀ u, ((t.me.st u).loops.getD n {}).strides = []) ∧
      (s.me.forked = true → s.stream = .c → ∀ u, (s.me.st u).out = true → ((t.me.st u).loops.getD n {}).strides = []) ∧
      (t.me.st st).bp = (s.me.st st).bp ∧
      (t.me.st st).skip = if c = 0 then some (linesFrom (linesFrom (standsAt s) e.toNat) 1) else (s.me.st st).skip := by
  intro t st x
  have hme : t.me = loopCore s n (loopLevel s c e) := State.me_setMe ..
  have hst : t.me.st st = loopSet s n (loopLevel s c e) := by rw [hme]; exact loopCore_st ..
  refine ⟨controlFrame_setMe ?_ ?_ ?_ ?_, ?_, fun hjoined u => ?_, fun hforked hstream u hout => ?_, ?_, ?_⟩
  · exact Core.setSt_regs ..
  · exact Core.setSt_flags ..
  · exact Core.setSt_queues ..
  · exact Core.setSt_matrix ..
  · rw [show x = (t.me.st st).loops.getD n {} from rfl, hst, loops_loopSet, getD_loops_setLevel _ hn]
  · rw [hme]
    exact strides_loopCore hn (Core.lead_joined hjoined _) rfl (.inl hjoined)
  · rw [hme]
    exact strides_loopCore hn (by rw [Core.lead, hforked, hstream]; rfl) rfl (.inr hout)
  · rw [hst, bp_loopSet]; rfl
  · rw [hst, skip_loopSet]; rfl

/-! ### The claim -/

/-- Settles O15: the state that each instruction leaves, and what that state says. -/
theorem controlActs : Obligations.ControlActs := by
  refine ⟨fun s hcan => does_of_ok (m := pure ()) rfl hcan rfl, fun w a k s hcan ha => ?_, fun w m oa ok od s hcan hjoined => ?_,
    fun w f s hcan hforked hflag => ?_, fun w l cr r n e s hcan hl hs hk => ?_, fun w d slot l pair imm s hcan hl _ => ?_,
    fun w s hcan hjoined => ?_, fun w code s hcan => ?_⟩
  · exact does_of_ok (m := readS a >>= fun _ => pure ()) rfl hcan (Act.bind_ok (readS_ok ha))
  · have hmode : (forkMarked s (m, linesFrom (standsAt s) oa.toInt, linesFrom (standsAt s) ok.toInt,
        linesFrom (standsAt s) od.toInt)).me.forked = false := by rw [forkMarked, State.me_setMe]; exact hjoined
    refine ⟨_, fork_does hcan, controlFrame_trans (controlFrame_forkMarked s _) (controlFrame_transferTo ..) rfl, ?_⟩
    rw [me_c_transferTo hmode]
    exact ⟨rfl, rfl, by rw [forkMarked, State.me_setMe]⟩
  · refine ⟨_, join_does hcan hflag, controlFrame_setSt .., ?_, fun u hu => ?_⟩
    · rw [State.me_setMe, Core.st_setSt_same]
    · rw [State.me_setMe, Core.st_setSt_ne _ hu]
  · obtain ⟨hframe, hx, hjoined, hforked, hbp, hskip⟩ := loop_leaves s hl (loopCount s cr r n) e
    refine ⟨_, loop_does hcan hs hk, hframe, ?_⟩
    simp only [hx]
    exact ⟨rfl, rfl, rfl, rfl, rfl, rfl, hjoined, hforked, hbp, hskip⟩
  · refine ⟨_, ownStride s d pair imm, lstr_does hcan, controlFrame_setSt .., ?_, rfl, rfl, rfl, rfl, (Bool.decide_or _ _).symm⟩
    rw [State.me_setMe, Core.st_setSt_same]
    exact strides_strideSet hl slot.isLt
  · have hmode : (endMarked s).me.forked = false := by rw [endMarked, State.me_setMe]; exact hjoined
    refine ⟨_, tend_does hcan, controlFrame_trans (controlFrame_endMarked s) (controlFrame_transferTo ..) rfl, ?_⟩
    rw [me_c_transferTo hmode]
    exact ⟨by rw [endMarked, State.me_setMe], rfl, toNat_line_or_lane⟩
  · refine ⟨_, trap_does hcan, controlFrame_setSt .., ?_, ?_⟩ <;> rw [State.me_setMe, Core.st_setSt_same]

end Sys2Proof.Machine
end

section
/-! PROOFS. The ends of lines (O16): a line that is passed over, a held lane, a loop's end, and the end of a join. -/

namespace Sys2Proof.Machine
open Claims

/-! ### One core changes -/

theorem State.otherCores_setCr (s : State) (p : Nat) (c : Core) : OtherCores s (s.setCr p c) p := fun _ hq => s.cr_setCr_ne hq c

theorem Core.setSt_setSt (c : Core) (st : Stream) (x y : StreamState) : (c.setSt st x).setSt st y = c.setSt st y := by
  cases st <;> rfl

/-- The bits of a mask of the low `n` bits. -/
theorem getLsbD_lowMask {n : Nat} (hn : n ≤ 64) (i : Nat) : (BitVec.ofNat 64 (2 ^ n - 1)).getLsbD i = decide (i < n) := by
  rw [BitVec.getLsbD_ofNat, Nat.testBit_two_pow_sub_one]
  by_cases h : i < n
  · simp [h, Nat.lt_of_lt_of_le h hn]
  · simp [h]

/-- A line address with its low five bits cleared is the address of its line. -/
theorem and_not_31 (a : DWord) : a &&& ~~~0x1F = aligned a := by
  have hdrop : a.toNat / 32 * 32 = (a >>> 5 <<< 5).toNat := by
    rw [BitVec.toNat_shiftLeft, BitVec.toNat_ushiftRight, Nat.shiftRight_eq_div_pow, Nat.shiftLeft_eq]
    have := a.isLt
    omega
  have hlow (i : Nat) : (0x1F : DWord).getLsbD i = decide (i < 5) := getLsbD_lowMask (by decide : 5 ≤ 64) i
  rw [aligned, hdrop, BitVec.ofNat_toNat, BitVec.setWidth_eq]
  refine BitVec.eq_of_getLsbD_eq fun i hi => ?_
  rw [BitVec.getLsbD_and, BitVec.getLsbD_not, hlow, BitVec.getLsbD_shiftLeft, BitVec.getLsbD_ushiftRight]
  by_cases h : i < 5
  · simp [h]
  · simp [h, hi, Nat.add_sub_cancel' (Nat.not_lt.mp h)]

/-! ### A line that is passed over, and a held lane -/

theorem passEff_eq {s : State} {p : Nat} {st : Stream} {v : ILine} (hbuf : ((s.cr p).st st).buf = some v)
    (hforked : (s.cr p).forked = true) (hruns : s.runs p st = true) (hlane : ((s.cr p).st st).lane ≠ 8)
    (hown : ownLanes v st = []) :
    passEff s p st = some (s.setCr p ((s.cr p).setSt st { (s.cr p).st st with lane := 8, wait := none, wdog := 0 })) := by
  unfold passEff
  simp only [hbuf]
  rw [if_pos (by simp [hforked, hruns, hlane, hown])]

theorem heldEff_eq {s : State} {p : Nat} {r : Reg} (hwait : (s.cr p).c.wait = some (.sameLine r))
    (hheld : (s.cr p).heldLine = true) (hready : (s.cr p).regWait r = none) :
    heldEff s p = some (s.setCr p { s.cr p with c := { (s.cr p).c with wait := none } }) := by
  unfold heldEff
  simp only [hwait]
  rw [if_pos (by simp [hheld, hready])]

/-! ### The end of a loop's line -/

/-- The level of a loop that ends, and the line to go back to: the next iteration, or none with the level inactive (R133). -/
def levelEnd (l : LoopLevel) : LoopLevel × Option DWord :=
  if l.index.toNat + 1 < l.count.toNat then ({ l with index := l.index + 1 }, some (lineTarget l.start 1))
  else ({ l with active := false }, none)

/-- One level without strides ends. -/
theorem Core.loopEnd_one {c : Core} {st : Stream} {n : Nat} (hstrides : c.strides st n = []) :
    c.loopEnd st [n] = (c.setSt st ((c.st st).setLevel n (levelEnd ((c.st st).loops.getD n {})).1),
      (levelEnd ((c.st st).loops.getD n {})).2) := by
  unfold Core.loopEnd levelEnd
  rw [hstrides]
  dsimp only [List.foldl_nil]
  split <;> rfl

/-- A stream that enters a line changes in its lane only. -/
theorem State.toOwnLane_eq (s : State) (p : Nat) (st : Stream) :
    s.toOwnLane p st = s ∨ ∃ k, s.toOwnLane p st = s.setCr p ((s.cr p).setSt st { (s.cr p).st st with lane := k }) := by
  unfold State.toOwnLane
  extract_lets c x
  split
  · exact .inl rfl
  · split
    · exact .inr ⟨_, rfl⟩
    · exact .inl rfl

theorem State.toOwnLane_joined {s : State} {p : Nat} (h : (s.cr p).forked = false) (st : Stream) : s.toOwnLane p st = s := by
  unfold State.toOwnLane
  exact if_pos (by simp [h])

/-- What the entry into a line leaves: the stream but for its lane, which stays in joined mode, and all else. -/
theorem State.toOwnLane_setCr (s : State) (p : Nat) (st : Stream) (c : Core) :
    let t := (s.setCr p c).toOwnLane p st
    (∃ k, (t.cr p).st st = { c.st st with lane := k } ∧ (c.forked = false → k = (c.st st).lane)) ∧ (t.cr p).regs = c.regs ∧
      t.mem = s.mem ∧ OtherCores s t p := by
  intro t
  by_cases hjoined : c.forked = false
  · have ht : t = s.setCr p c := State.toOwnLane_joined (by rwa [State.cr_setCr_same]) st
    rw [ht, State.cr_setCr_same]
    exact ⟨⟨_, rfl, fun _ => rfl⟩, rfl, rfl, State.otherCores_setCr _ _ _⟩
  · obtain ht | ⟨k, ht⟩ : t = s.setCr p c ∨ ∃ k, t = _ := (s.setCr p c).toOwnLane_eq p st
    · rw [ht, State.cr_setCr_same]
      exact ⟨⟨_, rfl, fun _ => rfl⟩, rfl, rfl, State.otherCores_setCr _ _ _⟩
    · rw [State.cr_setCr_same] at ht
      rw [ht, State.cr_setCr_same, Core.st_setSt_same]
      exact ⟨⟨k, rfl, fun h => absurd h hjoined⟩, Core.setSt_regs .., rfl,
        fun q hq => ((s.setCr p c).cr_setCr_ne hq _).trans (s.cr_setCr_ne hq c)⟩

theorem Core.st_unheld (c : Core) (st : Stream) : c.unheld.st st = c.st st := by cases st <;> rfl

theorem getD_of_getElem? {ls : Vector LoopLevel 6} {n : Nat} {l : LoopLevel} (h : ls[n]? = some l) : n < 6 ∧ ls.getD n {} = l := by
  obtain ⟨hn, hl⟩ := Vector.getElem?_eq_some_iff.mp h
  exact ⟨hn, by simpa [Vector.getD, hn] using hl⟩

/-- The stream at the end of a loop's line. -/
def loopLeft (x : StreamState) (n : Nat) (l : LoopLevel) : StreamState :=
  (x.setLevel n (levelEnd l).1).moveTo (((levelEnd l).2.getD (lineTarget x.line 1)) &&& ~~~0x1F) 0

/-- Where a loop's line ends the stream goes back to the line after the LOOP, or on to the next line (R133). -/
theorem loopLeft_leaves (x : StreamState) {n : Nat} (hn : n < 6) (l : LoopLevel) :
    if l.index.toNat + 1 < l.count.toNat then
      (loopLeft x n l).line = aligned (linesFrom l.start 1) ∧ (loopLeft x n l).loops[n]? = some { l with index := l.index + 1 }
    else (loopLeft x n l).line = aligned (linesFrom x.line 1) ∧ (loopLeft x n l).loops[n]? = some { l with active := false } := by
  have hloops : (loopLeft x n l).loops[n]? = some (levelEnd l).1 := Vector.getElem?_setIfInBounds_self_of_lt hn
  have hline : (loopLeft x n l).line = aligned ((levelEnd l).2.getD (linesFrom x.line 1)) := by
    rw [← and_not_31, ← lineTarget_eq]; rfl
  rw [hloops, hline, levelEnd]
  split
  · exact ⟨congrArg aligned (lineTarget_eq ..), rfl⟩
  · exact ⟨rfl, rfl⟩

theorem loopEndEff_eq {s : State} {p n : Nat} {st : Stream} {l : LoopLevel} (hlane : ((s.cr p).st st).lane = 8)
    (hbp : ((s.cr p).st st).bp = false) (hskip : ((s.cr p).st st).skip = none) (hending : ((s.cr p).st st).ending = [n])
    (hl : ((s.cr p).st st).loops.getD n {} = l) (hstrides : (s.cr p).strides st n = []) :
    loopEndEff s p st = some ((s.setCr p ((s.cr p).setSt st (loopLeft ((s.cr p).st st) n l)).unheld).toOwnLane p st) := by
  have hwait : (s.cr p).strideWait st = none := by
    rw [Core.strideWait, hending]
    simp [hstrides]
  unfold loopEndEff
  dsimp only
  rw [if_neg (by simp [hlane, hbp, hending, hwait]), hending, Core.loopEnd_one hstrides, hl, hskip]
  dsimp only
  rw [Core.st_setSt_same, Core.setSt_setSt, Option.getD_none]
  rfl

/-! ### The end of a join -/

/-- A stream that joins stands at the line after C's, with its loop unit cleared if it ran (R131). -/
def joinBack (x : StreamState) (line : DWord) : StreamState :=
  { x.moveTo line 0 with jn := none, loops := if x.out then x.loops else .replicate 6 {}, out := false, wdog := 0 }

/-- The core when a join with flag `f` completes. -/
def joined (c : Core) (f : BitVec 3) : Core :=
  let line := lineTarget c.c.line 1
  { c with
    c := { c.c.moveTo line 0 with jn := none, wdog := 0 }, a := joinBack c.a line, k := joinBack c.k line, d := joinBack c.d line
    forked := false, forkMask := 0, flags := setFlag c.flags f true }

theorem joinEff_eq {s : State} {p : Nat} {f : BitVec 3} (hforked : (s.cr p).forked = true) (hclocked : (s.cr p).clocked = true)
    (hflag : (s.cr p).c.jn = some f)
    (hthere : ∀ st, st = .c ∨ ((s.cr p).st st).out = false → ((s.cr p).st st).jn = some f ∧ ((s.cr p).st st).hlt = false) :
    joinEff s p = some (s.setCr p (joined (s.cr p) f)) := by
  have hall : ((s.cr p).joining.all fun st => decide (((s.cr p).st st).jn = some f) && !((s.cr p).st st).hlt) = true := by
    rw [List.all_eq_true]
    intro st hst
    have hawaited : st = .c ∨ ((s.cr p).st st).out = false := by
      simpa using (List.mem_filter.mp hst).2
    obtain ⟨hjn, hhlt⟩ := hthere st hawaited
    simp [hjn, hhlt]
  unfold joinEff
  simp only [hflag]
  rw [if_neg (by simp [hforked, hclocked, hall])]
  rfl

/-! ### The claim -/

/-- Settles O16: each event is the state it leaves, in which one core has changed. -/
theorem linesEnd : Obligations.LinesEnd := by
  refine ⟨fun s p st v hbuf hforked hruns hlane hown => ?_, fun s p r hwait hheld hready => ?_,
    fun s p n st l hlane hbp hskip hending hl hstrides => ?_, fun s p f hforked hclocked hflag hthere => ?_⟩
  · refine ⟨_, event_some (passEff_eq hbuf hforked hruns hlane hown), ?_, ?_, ?_, fun u hu => ?_, rfl, State.otherCores_setCr _ _ _⟩
    all_goals rw [State.cr_setCr_same]
    · rw [Core.st_setSt_same]
    · rw [Core.st_setSt_same]
    · exact Core.setSt_regs ..
    · exact Core.st_setSt_ne _ hu _
  · refine ⟨_, event_some (heldEff_eq hwait hheld hready), ?_, ?_, ?_, ?_, rfl, State.otherCores_setCr _ _ _⟩
    all_goals rw [State.cr_setCr_same]
    exact hheld
  · obtain ⟨hn, hlevel⟩ := getD_of_getElem? hl
    have hevent := loopEndEff_eq hlane hbp hskip hending hlevel hstrides
    obtain ⟨hstream, hregs, hmem, hcores⟩ :=
      State.toOwnLane_setCr s p st (((s.cr p).setSt st (loopLeft ((s.cr p).st st) n l)).unheld)
    obtain ⟨k, hst, hjoined⟩ := hstream
    have hleft : (((s.cr p).setSt st (loopLeft ((s.cr p).st st) n l)).unheld).st st = loopLeft ((s.cr p).st st) n l := by
      rw [Core.st_unheld, Core.st_setSt_same]
    rw [hleft] at hst hjoined
    refine ⟨_, event_some hevent, fun hmode => ?_, ?_, ?_, ?_, hmem, hcores⟩
    · rw [hst, hjoined ((Core.setSt_forked ..).trans hmode)]; rfl
    · rw [hst]; rfl
    · rw [hst]
      exact loopLeft_leaves _ hn _
    · rw [hregs]
      exact Core.setSt_regs ..
  · refine ⟨_, event_some (joinEff_eq hforked hclocked hflag hthere), ?_, ?_, ?_, fun st => ?_, ?_, fun g hg => ?_, ?_, rfl,
      State.otherCores_setCr _ _ _⟩
    all_goals rw [State.cr_setCr_same]
    · rfl
    · exact lineTarget_eq ..
    · rfl
    · cases st <;> rfl
    · exact (setFlag_getLsbD ..).trans (if_pos rfl)
    · exact (setFlag_getLsbD ..).trans (if_neg hg)
    · rfl

end Sys2Proof.Machine
end

section
/-! PROOFS. Coordinate arithmetic of stream A (O32): the elements of a register, and each instruction's result by its elements. -/

namespace Sys2Proof.Machine
open Claims

/-! ### The elements of a coordinate register -/

theorem getLsbD_elementMask (i : Nat) : (0xFFFF : DWord).getLsbD i = decide (i < 16) := getLsbD_lowMask (by decide : 16 ≤ 64) i

/-- An element that is replaced reads as the new one; the others read as before. -/
theorem coordEl_setEl (c : DWord) (v : BitVec 16) {k e : Nat} (he : e < 4) :
    coordEl (setEl c k v) e = if e = k then v else coordEl c e := by
  refine BitVec.eq_of_getLsbD_eq fun i hi => ?_
  have hbit : 16 * e + i < 64 := by omega
  simp only [coordEl, setEl, BitVec.getLsbD_extractLsb', hi, decide_true, Bool.true_and, BitVec.getLsbD_or, BitVec.getLsbD_and,
    BitVec.getLsbD_not, BitVec.getLsbD_shiftLeft, BitVec.getLsbD_setWidth, getLsbD_elementMask, hbit]
  by_cases hk : e = k
  · subst hk
    have hlow : ¬ 16 * e + i < 16 * e := by omega
    have hin : 16 * e + i - 16 * e = i := by omega
    have hwide : i < 64 := by omega
    simp [hlow, hin, hi, hwide]
  · rw [if_neg hk]
    obtain hlt | hgt := Nat.lt_or_gt_of_ne hk
    · have hlow : 16 * e + i < 16 * k := by omega
      simp [hlow, hi]
    · have hpast : ¬ 16 * e + i - 16 * k < 16 := by omega
      have hout : v.getLsbD (16 * e + i - 16 * k) = false := BitVec.getLsbD_of_ge _ _ (Nat.not_lt.mp hpast)
      simp [hpast, hout, hi]

/-- Elements that are replaced one after another, where they are selected. -/
theorem coordEl_foldl_setEl (sel : Nat → Bool) (f : Nat → BitVec 16) {e : Nat} (he : e < 4) (ks : List Nat) (v : DWord) :
    coordEl (ks.foldl (fun v k => if sel k then setEl v k (f k) else v) v) e =
      if e ∈ ks ∧ sel e = true then f e else coordEl v e := by
  induction ks generalizing v with
  | nil => simp
  | cons k ks ih =>
    rw [List.foldl_cons, ih]
    by_cases hin : e ∈ ks ∧ sel e = true
    · obtain ⟨hmem, hsel⟩ := hin
      rw [if_pos ⟨hmem, hsel⟩, if_pos ⟨List.mem_cons_of_mem _ hmem, hsel⟩]
    · rw [if_neg hin]
      by_cases hk : e = k
      · subst hk
        by_cases hsel : sel e = true
        · rw [if_pos hsel, coordEl_setEl _ _ he, if_pos rfl, if_pos ⟨List.mem_cons_self, hsel⟩]
        · rw [if_neg hsel, if_neg fun h => hsel h.2]
      · have hkeep : coordEl (if sel k = true then setEl v k (f k) else v) e = coordEl v e := by
          split
          · rw [coordEl_setEl _ _ he, if_neg hk]
          · rfl
        rw [hkeep, if_neg fun h => hin ⟨(List.mem_cons.mp h.1).resolve_left hk, h.2⟩]

theorem coordEl_addElements (a b : DWord) (em : BitVec 4) {e : Nat} (he : e < 4) :
    coordEl (addElements a b em) e = if em.getLsbD e then coordEl a e + coordEl b e else coordEl a e := by
  rw [addElements, coordEl_foldl_setEl em.getLsbD (fun k => coordEl a k + coordEl b k) he]
  simp [List.mem_range, he]

/-- Selector `e` of AMOV is the digit `e` of its field to base 4. -/
theorem toNat_selector (sel : BitVec 8) (e : Nat) : (sel.extractLsb' (2 * e) 2).toNat = sel.toNat / 4 ^ e % 4 := by
  rw [BitVec.extractLsb'_toNat, Nat.shiftRight_eq_div_pow, Nat.pow_mul]

theorem coordEl_permute (x : DWord) (sel : BitVec 8) {e : Nat} (he : e < 4) :
    coordEl (permute x sel) e = coordEl x (sel.toNat / 4 ^ e % 4) := by
  have hall := coordEl_foldl_setEl (fun _ => true) (fun k => coordEl x (sel.extractLsb' (2 * k) 2).toNat) he (List.range 4) 0
  rw [if_pos ⟨List.mem_range.mpr he, rfl⟩, toNat_selector] at hall
  exact hall

/-- ASET's element: the source shifted right and the low 16 bits shifted left. -/
theorem shifted_eq (x : DWord) (rsh lsh : Nat) :
    (x >>> rsh).setWidth 16 <<< lsh = BitVec.ofNat 16 (x.toNat / 2 ^ rsh * 2 ^ lsh) := by
  apply BitVec.eq_of_toNat_eq
  rw [BitVec.toNat_shiftLeft, BitVec.toNat_setWidth, BitVec.toNat_ushiftRight, BitVec.toNat_ofNat, Nat.shiftRight_eq_div_pow,
    Nat.shiftLeft_eq, Nat.mod_mul_mod]

/-! ### Reads and writes -/

theorem putA_eq (d : BitVec 5) (v : DWord) (s : State) : putA d v s = .ok ((), wroteA s d v) := rfl

theorem getAD_a {c : Core} {d : BitVec 5} (h : d.toNat < 16) : c.getAD .a d = c.regs.a.getD d.toNat 0 := by
  rw [Core.getAD, if_pos h, if_pos rfl]

/-- The source of a Q form is the popped entry, and the registers are as before. -/
theorem sourceA_pop {s : State} {v : Line} {rest : List Line} (a : BitVec 5) (h : (s.me.q 7).poppable s.now = v :: rest) :
    sourceA 1 a s = .ok (v.setWidth 64, popped s 7) :=
  Act.bind_ok (popQ_of_cons h)

theorem sourceA_wait {s : State} (a : BitVec 5) (h : (s.me.q 7).poppable s.now = []) :
    sourceA 1 a s = .error (.wait (.object 0 7) none) :=
  Act.bind_error (popQ_of_nil h)

theorem sourceA_register (s : State) (a : BitVec 5) : sourceA 0 a s = .ok (s.me.getAD .a a, s) := rfl

theorem regs_popped (s : State) (q : Nat) : (popped s q).me.regs = s.me.regs := by
  rw [popped, State.me_setMe, Core.setQ_regs]

/-! ### The instructions -/

section
variable {w : BitVec 2} {d a : BitVec 5} {q : BitVec 1} {s t : State} {x : DWord}

/-- AMOV permutes its source. -/
theorem amov_gives {sel : BitVec 8} (hcan : Can (.amov w d a q sel) w s) (hsource : sourceA q a s = .ok (x, t)) :
    GivesA (.amov w d a q sel) s t d fun e => coordEl x (sel.toNat / 4 ^ e % 4) := by
  have hexec : exec (.amov w d a q sel) s = execAmov w d a q sel s := rfl
  exact ⟨permute x sel, fun e he => coordEl_permute x sel he, does_of_ok hexec hcan (Act.bind_ok hsource)⟩

/-- ASET replaces one element by bits of its source. -/
theorem aset_gives {k : BitVec 2} {rsh : BitVec 6} {lsh : BitVec 4} (hd : d.toNat < 16) (hcan : Can (.aset w d a k rsh q lsh) w s)
    (hsource : sourceA q a s = .ok (x, t)) (hregs : t.me.regs = s.me.regs) :
    GivesA (.aset w d a k rsh q lsh) s t d fun e =>
      if e = k.toNat then BitVec.ofNat 16 (x.toNat / 2 ^ rsh.toNat * 2 ^ lsh.toNat)
      else coordEl (s.me.regs.a.getD d.toNat 0) e := by
  have hexec : exec (.aset w d a k rsh q lsh) s = execAset w d a k rsh q lsh s := rfl
  have hold : t.me.getAD .a d = s.me.regs.a.getD d.toNat 0 := by rw [getAD_a hd, hregs]
  refine ⟨setEl (s.me.regs.a.getD d.toNat 0) k.toNat ((x >>> rsh.toNat).setWidth 16 <<< lsh.toNat), fun e he => ?_,
    does_of_ok hexec hcan ?_⟩
  · exact (coordEl_setEl _ _ he).trans (by rw [shifted_eq])
  · rw [Act.bind_ok hsource, Act.bind_ok (readA_eq d t), putA_eq, hold]

theorem amov_waits {sel : BitVec 8} (hcan : Can (.amov w d a 1 sel) w s) (h : (s.me.q 7).poppable s.now = []) :
    Waits (.amov w d a 1 sel) s 0 7 := by
  have hexec : exec (.amov w d a 1 sel) s = execAmov w d a 1 sel s := rfl
  exact waits_of_error hexec hcan (Act.bind_error (sourceA_wait a h))

theorem aset_waits {k : BitVec 2} {rsh : BitVec 6} {lsh : BitVec 4} (hcan : Can (.aset w d a k rsh 1 lsh) w s)
    (h : (s.me.q 7).poppable s.now = []) : Waits (.aset w d a k rsh 1 lsh) s 0 7 := by
  have hexec : exec (.aset w d a k rsh 1 lsh) s = execAset w d a k rsh 1 lsh s := rfl
  exact waits_of_error hexec hcan (Act.bind_error (sourceA_wait a h))

theorem aadd_gives {b : BitVec 5} {em : BitVec 4} (hcan : Can (.aadd w d a b em) w s) :
    GivesA (.aadd w d a b em) s s d fun e => if em.getLsbD e then coordEl (s.me.getAD .a a) e + coordEl (s.me.getAD .a b) e
      else coordEl (s.me.getAD .a a) e := by
  have hexec : exec (.aadd w d a b em) s = execAadd w d a b em s := rfl
  exact ⟨_, fun e he => coordEl_addElements _ _ em he, does_of_ok hexec hcan rfl⟩

theorem aaddi_gives {k : BitVec 2} {imm : BitVec 11} (hcan : Can (.aaddi w d a k imm) w s) :
    GivesA (.aaddi w d a k imm) s s d fun e => if e = k.toNat then coordEl (s.me.getAD .a a) e + BitVec.ofInt 16 imm.toInt
      else coordEl (s.me.getAD .a a) e := by
  have hexec : exec (.aaddi w d a k imm) s = execAaddi w d a k imm s := rfl
  refine ⟨_, fun e he => (coordEl_setEl _ _ he).trans ?_, does_of_ok hexec hcan rfl⟩
  dsimp only
  split
  next hk => rw [hk]; rfl
  next => rfl

theorem ali_gives {pair : BitVec 1} {lo hi : BitVec 16} (hd : d.toNat < 16) (hcan : Can (.ali w d pair lo hi) w s) :
    GivesA (.ali w d pair lo hi) s s d fun e => if e = 2 * pair.toNat then lo else if e = 2 * pair.toNat + 1 then hi
      else coordEl (s.me.regs.a.getD d.toNat 0) e := by
  have hexec : exec (.ali w d pair lo hi) s = execAli w d pair lo hi s := rfl
  refine ⟨setEl (setEl (s.me.regs.a.getD d.toNat 0) (2 * pair.toNat) lo) (2 * pair.toNat + 1) hi, fun e he => ?_,
    does_of_ok hexec hcan ?_⟩
  · refine (coordEl_setEl _ _ he).trans ?_
    dsimp only
    rw [coordEl_setEl _ _ he]
    by_cases hlo : e = 2 * pair.toNat
    · rw [if_neg (by omega), if_pos hlo, if_pos hlo]
    · rw [if_neg hlo, if_neg hlo]
  · rw [Act.bind_ok (readA_eq d s), putA_eq, getAD_a hd]
end

/-- Settles O32: the result of each form by its elements, and the Q forms by what sq0 has. -/
theorem coordinates : Obligations.Coordinates := by
  intro w d a b s hd
  exact ⟨fun em hcan => aadd_gives hcan, fun k imm hcan => aaddi_gives hcan,
    fun sel hcan => amov_gives hcan (sourceA_register s a), fun k rsh lsh hcan => aset_gives hd hcan (sourceA_register s a) rfl,
    fun pair lo hi hcan => ali_gives hd hcan,
    fun k rsh lsh sel v rest hentry => ⟨fun hcan => amov_gives hcan (sourceA_pop a hentry),
      fun hcan => aset_gives hd hcan (sourceA_pop a hentry) (regs_popped s 7)⟩,
    fun k rsh lsh sel hempty => ⟨fun hcan => amov_waits hcan hempty, fun hcan => aset_waits hcan hempty⟩⟩

end Sys2Proof.Machine
end
